-- ==== Sys2Proof/Word.lean ====
section
/-! DEFINITION. The words of the Obrik 7140: bytes, house times, frame numbers and pixels
(spec/00_scope.md, Notational Conventions). -/

namespace Sys2Proof

/-- A byte of a data bus or of the table region. -/
abbrev Byte := BitVec 8

/-- A house time: a count of milliseconds that wraps (R60). -/
abbrev HouseTime := BitVec 32

/-- A frame number: the value of the 32-bit frame counter (R4). -/
abbrev FrameNo := BitVec 32

/-- A pixel: its bytes in address order are R, G, B and K (spec/00_scope.md). -/
structure Pixel where
  r : Byte
  g : Byte
  b : Byte
  k : Byte
  deriving DecidableEq, Repr

end Sys2Proof
end

