-- ==== Sys2Proof/Syntax.lean ====
section
/-! DEFINITION. The commands of the Obrik 7140: one constructor per row of spec/opcode_table.json,
with the operands the command carries. -/

namespace Sys2Proof

/-- The direction of a transaction on a port. -/
inductive Dir where
  | read
  | write
  deriving DecidableEq, Repr

/-- The AXI4 burst types (R166). -/
inductive Burst where
  | fixed
  | incr
  | wrap
  deriving DecidableEq, Repr

/-- The AXI4 response codes (R166). -/
inductive Resp where
  | okay
  | exokay
  | slverr
  | decerr
  deriving DecidableEq, Repr

/-- One write data beat of the 128-bit port, lane by lane: `some b` is a lane whose strobe is set and
that carries `b`, `none` a lane whose strobe is clear (spec/00_scope.md, Signal List). -/
abbrev Beat := List (Option Byte)

/-- A read at the system-side port: transaction ID, byte address, burst type, log2 of the bytes per
beat, number of beats. -/
structure ReadReq where
  id : BitVec 8
  addr : Nat
  burst : Burst
  size : Nat
  beats : Nat
  deriving DecidableEq, Repr

/-- A write at the system-side port. -/
structure WriteReq where
  id : BitVec 8
  addr : Nat
  burst : Burst
  size : Nat
  beats : List Beat
  deriving DecidableEq, Repr

/-- A transaction at the system-side port. -/
inductive Txn where
  | read (r : ReadReq)
  | write (w : WriteReq)
  deriving DecidableEq, Repr

/-- The composited read whose fetch a response answers: its ID, and its number among the reads of that ID in
flight, the oldest being number 0. The path tells it by the order of issue (R168). -/
structure ReadName where
  id : BitVec 8
  nth : Nat
  deriving DecidableEq, Repr

/-- One byte that an overlay fetch of a composited read returned: the layer it was fetched for, its
byte address, its value (R12). -/
structure OverlayByte where
  layer : Nat
  addr : Nat
  byte : Byte
  deriving DecidableEq, Repr

/-- The five request words with a code table; UNKNOWN_REQUEST_CODE names one of them (R171, R190). -/
inductive CodedWord where
  | showWord
  | clockWord
  | sponsorWord
  | replayWord
  | tickerWord
  deriving DecidableEq, Repr

/-- The commands. A request's operands are the transaction ID of the write that carries the whole
16-byte request word, the tag (byte 15) and the parameter bytes that ch. 12.4 lists for its code. -/
inductive Instr where
  /-- RESET_N (R189): assertion and deassertion; the straps and the GATE_RUN level as they stand at
  the deassertion. -/
  | resetN (tbase : BitVec 8) (gate : Bool)
  /-- FRAME_START (R4). -/
  | frameStart
  /-- GATE_RUN_EDGE (R65): the line changes its level. -/
  | gateRunEdge
  /-- SHOT_RST_EDGE (R71): a rising edge. -/
  | shotRstEdge
  /-- TB_IN_EDGE (R61): a rising edge. -/
  | tbInEdge
  /-- HOUSE_TIME_ADVANCE (R60). -/
  | houseTimeAdvance
  /-- TIMEBASE_LOSS (R62). -/
  | timebaseLoss
  /-- TIMEBASE_RESTORE (R63). -/
  | timebaseRestore
  /-- HORN_END (R72). -/
  | hornEnd
  /-- GAME_CLOCK_EXPIRY (R67). -/
  | gameClockExpiry
  /-- SHOT_CLOCK_EXPIRY (R70). -/
  | shotClockExpiry
  /-- UP_SET_POINT_REACHED (R68). -/
  | upSetPointReached
  /-- UP_LIMIT (R68). -/
  | upLimit
  /-- MESSAGE_EXPIRY (R146). -/
  | messageExpiry
  /-- FLASH_END (R86). -/
  | flashEnd
  /-- STACK_ENTRY_DWELL_END (R45). -/
  | stackEntryDwellEnd
  /-- ENTERING_BUMPER_END (R121). -/
  | enteringBumperEnd
  /-- LEAVING_BUMPER_END (R123). -/
  | leavingBumperEnd
  /-- CLIP_END_ACTION (R122). -/
  | clipEndAction
  /-- COMPOSITED_READ (R11): a read arrives. -/
  | compositedRead (r : ReadReq)
  /-- COMPOSITED_READ_ANSWER (R12): all fetches of this composited read have completed; the program bytes in
  the read's byte order, the overlay bytes, the response code of each beat. -/
  | compositedReadAnswer (read : ReadName) (program : List Byte) (overlay : List OverlayByte)
      (status : List Resp)
  /-- OVERLAY_FETCH_ERROR (R14): a fetch for this layer at this byte address, made for this
  composited read, returned an error. -/
  | overlayFetchError (read : ReadName) (layer : Nat) (addr : Nat)
  /-- PROGRAM_FETCH_ERROR (R15): a program fetch of this composited read returned an error. -/
  | programFetchError (read : ReadName)
  /-- INGEST_WRITE (R99): a write arrives. -/
  | ingestWrite (w : WriteReq)
  /-- INGEST_WRITE_RESPONSE (R106): the memory's response to one downstream write of the oldest ingest
  write of this ID that still waits for it: the remapped one, or, with `outside`, the one outside the
  window. -/
  | ingestWriteResponse (id : BitVec 8) (outside : Bool) (code : Resp)
  /-- WINDOW_READ (R100): a read arrives. -/
  | windowRead (r : ReadReq)
  /-- BLOCKED_WRITE (R174): a write arrives. -/
  | blockedWrite (w : WriteReq)
  /-- PART_OWNED_WRITE (R175): a write arrives. -/
  | partOwnedWrite (w : WriteReq)
  /-- CAPTURED_WRITE (R170): a write arrives. -/
  | capturedWrite (w : WriteReq)
  /-- FORWARDED_TRANSACTION (R167): a read or a write arrives. -/
  | forwardedTransaction (t : Txn)
  /-- FORWARDED_RESPONSE (R167): the memory's response to the oldest unanswered transaction of this
  direction and ID that the part forwarded: the bytes of a read, the response code of each beat (of
  the write, one code). -/
  | forwardedResponse (dir : Dir) (id : BitVec 8) (data : List Byte) (status : List Resp)
  /-- GEOMETRY_CAPTURE (R173): a write arrives. -/
  | geometryCapture (w : WriteReq)
  /-- TEAM_RECORD_CAPTURE (R82): a write arrives. -/
  | teamRecordCapture (w : WriteReq)
  /-- SPONSOR_ENTRY_CAPTURE (R36): a write arrives. -/
  | sponsorEntryCapture (w : WriteReq)
  /-- CLOCK_CONFIG_CAPTURE (R78): a write arrives. -/
  | clockConfigCapture (w : WriteReq)
  /-- INTAKE_TAIL_CAPTURE (R135): a write arrives. -/
  | intakeTailCapture (w : WriteReq)
  /-- NOTICE_CONSUME_CAPTURE (R187): a write arrives. -/
  | noticeConsumeCapture (w : WriteReq)
  /-- GO_LIVE (R180). -/
  | goLive (id : BitVec 8) (tag : Byte)
  /-- GO_PASS (R181). -/
  | goPass (id : BitVec 8) (tag : Byte)
  /-- CLEAR_GAME (R80). -/
  | clearGame (id : BitVec 8) (tag : Byte)
  /-- CLEAR_EXPOSURE (R37). -/
  | clearExposure (id : BitVec 8) (tag : Byte)
  /-- SPARE_REQUEST (R182): any code on the spare word. -/
  | spareRequest (id : BitVec 8) (tag : Byte) (code : Byte)
  /-- RUN_ENABLE (R73). -/
  | runEnable (id : BitVec 8) (tag : Byte)
  /-- RUN_DISABLE (R73). -/
  | runDisable (id : BitVec 8) (tag : Byte)
  /-- SET (R74). -/
  | clockSet (id : BitVec 8) (tag : Byte) (v : BitVec 32)
  /-- ADJUST (R75). -/
  | clockAdjust (id : BitVec 8) (tag : Byte) (delta : BitVec 32)
  /-- PERIOD_NEXT (R76). -/
  | periodNext (id : BitVec 8) (tag : Byte)
  /-- SHOT_RESET (R71). -/
  | shotReset (id : BitVec 8) (tag : Byte)
  /-- SHOT_SET (R77). -/
  | shotSet (id : BitVec 8) (tag : Byte) (v : BitVec 32)
  /-- SHOT_ENABLE (R77). -/
  | shotEnable (id : BitVec 8) (tag : Byte)
  /-- SHOT_DISABLE (R77). -/
  | shotDisable (id : BitVec 8) (tag : Byte)
  /-- HORN (R72). -/
  | horn (id : BitVec 8) (tag : Byte) (ms : BitVec 16)
  /-- SPOT (R51). -/
  | spot (id : BitVec 8) (tag : Byte) (sponsor placement : Byte) (dwell : BitVec 16) (creative : Byte)
  /-- SET_LOWEST (R52). -/
  | setLowest (id : BitVec 8) (tag : Byte) (sponsor placement : Byte)
  /-- END (R53). -/
  | endEntry (id : BitVec 8) (tag : Byte) (placement : Byte)
  /-- SUSPEND (R54). -/
  | suspend (id : BitVec 8) (tag : Byte) (sponsor : Byte)
  /-- SPONSOR_RESUME: the SPONSOR word's RESUME (R54). -/
  | sponsorResume (id : BitVec 8) (tag : Byte) (sponsor : Byte)
  /-- ARM (R113); `flags` is byte 3: bits 0 and 1 the end action, bit 7 auto-disarm. -/
  | arm (id : BitVec 8) (tag : Byte) (clip rate flags : Byte) (inPoint outPoint : BitVec 32) (bumperFrames bumperIndex : Byte)
  /-- DISARM (R115). -/
  | disarm (id : BitVec 8) (tag : Byte) (clip : Byte)
  /-- RESET_RING (R116). -/
  | resetRing (id : BitVec 8) (tag : Byte)
  /-- PLAY (R127). -/
  | play (id : BitVec 8) (tag : Byte) (clip : Byte)
  /-- FREEZE (R129). -/
  | freeze (id : BitVec 8) (tag : Byte)
  /-- REPLAY_RESUME: the REPLAY word's RESUME (R129). -/
  | replayResume (id : BitVec 8) (tag : Byte)
  /-- STEP (R130). -/
  | stepReplay (id : BitVec 8) (tag : Byte) (direction : Byte)
  /-- TAKE_LIVE (R131). -/
  | takeLive (id : BitVec 8) (tag : Byte)
  /-- PURGE (R149). -/
  | purge (id : BitVec 8) (tag : Byte)
  /-- PAUSE (R161). -/
  | pause (id : BitVec 8) (tag : Byte)
  /-- TICKER_RESUME: the TICKER word's RESUME (R161). -/
  | tickerResume (id : BitVec 8) (tag : Byte)
  /-- INTAKE_FETCH_START (R137). -/
  | intakeFetchStart
  /-- INTAKE_FETCH_COMPLETE (R138): the fetch in flight has completed, with an error on some beat or
  with 256 bytes. -/
  | intakeFetchComplete (error : Bool) (data : List Byte)
  /-- STATUS_REFRESH_START (R184). -/
  | statusRefreshStart
  /-- STATUS_REFRESH_COMPLETE (R184). -/
  | statusRefreshComplete
  /-- UNKNOWN_REQUEST_CODE (R190): a request word is written whole with this code and zero
  parameters. -/
  | unknownRequestCode (id : BitVec 8) (tag : Byte) (word : CodedWord) (code : Byte)
  deriving DecidableEq, Repr

end Sys2Proof
end

