-- ==== Sys2Proof/Config.lean ====
section
/-! DEFINITION. The free values: constants with no body, one for each point the manual leaves open
after which the part goes on. Nothing can be proved of their values. -/

namespace Sys2Proof

/-- Free value (log 1). The rank by which things that one command brings about at once are taken:
`freeRank draw key` is the rank of the thing with that key at that draw. R186: occurrences of
different kinds that arrive together "are taken one after another in either order". -/
opaque Config.freeRank : Nat → Nat → Nat

/-- Free value (log 2). Whether a placement whose binding changed is refilled at the same
FRAME_START: R44 step 3 omits steps 4 to 7 for it, R58 says it "is handled at the same FRAME_START
under its new binding". -/
opaque Config.bindingChangeRefills : Bool

end Sys2Proof
end

