-- ==== Sys2Proof/Machine/Axi.lean ====
section
/-! DEFINITION. The byte addresses of a burst, beat by beat, as AXI4 derives them on a 128-bit port
(R166; log 6). -/

namespace Sys2Proof.Machine

/-- The address of beat `n` of a burst (AXI4). -/
def beatAddr (addr size : Nat) (burst : Burst) (beats n : Nat) : Nat :=
  let nb := 2 ^ size
  match burst with
  | .fixed => addr
  | .incr => if n = 0 then addr else addr / nb * nb + n * nb
  | .wrap =>
    let total := nb * beats
    let low := addr / total * total
    low + (addr - low + n * nb) % total

/-- The byte addresses beat `n` carries: from the beat's address to the end of its aligned
container. -/
def beatBytes (addr size : Nat) (burst : Burst) (beats n : Nat) : List Nat :=
  let a := beatAddr addr size burst beats n
  let nb := 2 ^ size
  List.range' a (a / nb * nb + nb - a)

/-- A burst the port accepts: 1 to 16 beats of 1 to 16 bytes inside the 40-bit address space, a
wrapping burst aligned and of 2, 4, 8 or 16 beats (R166; spec/00_scope.md, Signal List). -/
def legalBurst (addr size : Nat) (burst : Burst) (beats : Nat) : Bool :=
  decide (size ≤ 4) && decide (1 ≤ beats) && decide (beats ≤ 16) && decide (addr < 2 ^ 40) &&
  match burst with
  | .fixed => true
  | .incr => decide (addr / 2 ^ size * 2 ^ size + beats * 2 ^ size ≤ 2 ^ 40)
  | .wrap => decide (addr % 2 ^ size = 0) && (beats == 2 || beats == 4 || beats == 8 || beats == 16)

def legalRead (r : ReadReq) : Bool := legalBurst r.addr r.size r.burst r.beats

/-- A write the port accepts; each beat has the port's 16 lanes. -/
def legalWrite (w : WriteReq) : Bool :=
  legalBurst w.addr w.size w.burst w.beats.length && w.beats.all (fun b => b.length == 16)

/-- The bytes of a read in beat order: the beat's number and the byte's address. -/
def readBytes (r : ReadReq) : List (Nat × Nat) :=
  (List.range r.beats).flatMap fun n =>
    (beatBytes r.addr r.size r.burst r.beats n).map fun a => (n, a)

/-- The enabled bytes of one beat whose byte addresses are `as`. -/
def beatEnabled (lanes : Beat) (as : List Nat) : List (Nat × Byte) :=
  as.filterMap fun a => (lanes.getD (a % 16) none).map fun b => (a, b)

/-- The enabled bytes of a write from beat `n` on, in beat order. -/
def enabledFrom (w : WriteReq) (beats : Nat) : Nat → List Beat → List (Nat × Byte)
  | _, [] => []
  | n, l :: ls =>
    beatEnabled l (beatBytes w.addr w.size w.burst beats n) ++ enabledFrom w beats (n + 1) ls

/-- The enabled bytes of a write in beat order: those whose strobe is set (section 10.1). -/
def writeBytes (w : WriteReq) : List (Nat × Byte) := enabledFrom w w.beats.length 0 w.beats

/-- The master tag: the upper 4 bits of the transaction ID (section 10.1). -/
def masterTag (id : BitVec 8) : Nat := id.toNat / 16

end Sys2Proof.Machine
end

