-- ==== Sys2Proof/Machine/State.lean ====
section
/-! DEFINITION. The state of the Obrik 7140 as plain data, block by block (spec/00_scope.md, Block
Overview), and its values after reset (R20, R59, R81, R117, R134, R151, R152, R178, R189). -/

namespace Sys2Proof.Machine

/-- Why the part stops. -/
inductive Fault where
  /-- Raised by an ingest write that must open a frame while every slot is held. R110: at least two
  slots are always neither held nor FILLING, so no run reaches it. Safe. -/
  | noUnheldSlot
  deriving DecidableEq, Repr

/-- Why a command has no meaning. -/
inductive Refusal where
  /-- Raised by exec's arm of a command that has no meaning yet. Safe. -/
  | notModelled (mnemonic : String)
  /-- Raised by an arrival whose operand is no burst that AXI4 allows on the 128-bit port (R166).
  Safe. -/
  | illegalBurst
  deriving DecidableEq, Repr

/-- A sparse byte memory in canonical form: addresses strictly rising, no byte 0 listed; an unlisted
address reads 0 (R169: reset zeroes the shadow). -/
abbrev Memory := List Host.Cell

/-- The modes (R1). -/
inductive Mode where
  | pass
  | live
  deriving DecidableEq, Repr

/-- A creative descriptor (ch. 12.3); the dwell is 0 where it is not read. -/
structure Descriptor where
  addr : Nat
  stride : Nat
  width : Nat
  height : Nat
  dwell : Nat
  deriving DecidableEq, Repr

/-! ### Transaction path (ch. 10) -/

/-- The taken geometry (section 10.5). -/
structure Geometry where
  canvasBase : Nat
  width : Nat
  height : Nat
  stride : Nat
  scanTag : Nat
  ingestTag : Nat
  windowBase : Nat
  poolBase : Nat
  slotCount : Nat
  assetBase : Nat
  sectorSize : Nat
  deriving DecidableEq, Repr

/-- A response at the system-side port: the bytes of a read, the response code of each beat (of a
write, one code). -/
structure UpResp where
  id : BitVec 8
  dir : Dir
  data : List Byte
  status : List Resp
  deriving DecidableEq, Repr

/-- One downstream write of an ingest write (R99, R106). -/
inductive Piece where
  /-- The write has no such piece. -/
  | absent
  /-- Its response has not come. -/
  | waiting
  /-- Its response. -/
  | answered (code : Resp)
  deriving DecidableEq, Repr

/-- What a transaction in flight waits for. -/
inductive EntryKind where
  /-- A blocked write; it is answered when it arrives. -/
  | blocked
  /-- A composited read (R11). -/
  | composited
  /-- An ingest write steered into a slot: its remapped write, and the one outside the window (R99). -/
  | ingest (slot : Nat) (remap other : Piece)
  /-- Forwarded, captured or window traffic, answered by the memory's own response. -/
  | forwarded
  deriving DecidableEq, Repr

/-- A transaction in flight, in its place in the response order (R167). -/
structure Entry where
  key : Nat
  id : BitVec 8
  dir : Dir
  kind : EntryKind
  bytes : Nat
  beats : Nat
  answer : Option UpResp
  deriving DecidableEq, Repr

/-- What a downstream transaction made by the part carries (R168, R176). -/
inductive Purpose where
  | program
  | overlay (layer : Nat)
  | window
  | ingest (slot : Nat)
  | outside
  deriving DecidableEq, Repr

/-- A transaction issued on the memory-side port. -/
inductive DownTxn where
  /-- Forwarded as it is (R167), or the intake fetch, which is one burst (R137). -/
  | burst (t : Txn)
  /-- A fetch of these byte addresses under this ID. -/
  | fetch (id : BitVec 8) (purpose : Purpose) (addrs : List Nat)
  /-- A write of these bytes under this ID. -/
  | store (id : BitVec 8) (purpose : Purpose) (bytes : List Host.Cell)
  /-- A status page write or a notice record write under this ID (R168). -/
  | own (id : BitVec 8) (addr : Nat) (data : List Byte)
  deriving DecidableEq, Repr

/-- What a reset dropped while its response was still to come (R176, R178). -/
inductive Stale where
  | forwarded (dir : Dir) (id : BitVec 8)
  | composited (id : BitVec 8)
  | ingest (id : BitVec 8) (outside : Bool)
  | intake
  | refresh
  deriving DecidableEq, Repr

structure PathUnit where
  tbase : BitVec 8
  shadow : Memory
  geom : Geometry
  order : List Entry
  nextKey : Nat
  issued : List DownTxn
  returned : List UpResp
  stale : List Stale
  deriving DecidableEq, Repr

/-! ### Compositor (ch. 1) -/

/-- What a scan-out read's underlying pixels come from (section 1.3). -/
inductive Source where
  | liveCanvas
  | slot (k : Nat)
  deriving DecidableEq, Repr

/-- An atlas as the shadow held it when the plan was built (R90, R162). -/
structure Atlas where
  addr : Nat
  cw : Nat
  ch : Nat
  stride : Nat
  advances : List Nat
  deriving DecidableEq, Repr

/-- A bug field rendered for a frame: its glyph codes, its box, its alignment (R91, R92). -/
structure RenderedField where
  codes : List Nat
  x : Nat
  y : Nat
  cells : Nat
  right : Bool
  deriving DecidableEq, Repr

/-- A message as the plan draws it: glyph codes and left edge (R162). -/
structure PlanMessage where
  codes : List Nat
  x : Int
  deriving DecidableEq, Repr

/-- The source content of a plan layer (section 1.3). -/
inductive Content where
  | nothing
  | creative (d : Descriptor)
  | bug (plate : Descriptor) (atlas : Atlas) (fields : List RenderedField)
  | ticker (plate : Pixel) (row : Nat) (atlas : Atlas) (band : List PlanMessage)
  deriving DecidableEq, Repr

/-- The sponsor field of a plan layer (R6). -/
inductive Named where
  | nobody
  | fallback
  | sponsor (s : Nat)
  deriving DecidableEq, Repr

structure PlanLayer where
  drawn : Bool
  rank : Nat
  x : Int
  y : Int
  w : Nat
  h : Nat
  content : Content
  opacity : Nat
  sponsor : Named
  deriving DecidableEq, Repr

/-- The frame plan (section 1.3); `erred` are the layers a fetch error has made not drawn (R14). -/
structure Plan where
  frame : FrameNo
  mode : Mode
  source : Source
  layers : List PlanLayer
  erred : List Nat
  deriving DecidableEq, Repr

/-- What the fetches of a composited read have returned: the program bytes in the read's byte order, the
overlay bytes, the response code of each beat (R12). -/
structure Fetched where
  program : List Byte
  overlay : List OverlayByte
  status : List Resp
  deriving DecidableEq, Repr

/-- A composited read in flight: the read, the plan and the taken geometry at its arrival, the slot
its window bytes come from, the layers it is formed without, whether a fetch of it is in flight, what its
fetches returned once they have completed, and whether a program fetch error has already answered it (R11,
R12, R14, R15). -/
structure CompRead where
  key : Nat
  req : ReadReq
  plan : Plan
  geom : Geometry
  windowSlot : Nat
  without : List Nat
  waits : Bool
  fetched : Option Fetched
  failed : Bool
  deriving DecidableEq, Repr

structure CompUnit where
  frame : FrameNo
  plan : Option Plan
  marks : List (Nat × Nat)
  weights : List Nat
  lock : List Nat
  reads : List CompRead
  deriving DecidableEq, Repr

/-! ### Rotation unit (ch. 3) -/

/-- The states of a sponsor (R34), in its order. -/
inductive SponsorState where
  | suspended
  | capped
  | empty
  | ready
  deriving DecidableEq, Repr

/-- The kinds of a stack entry (R43), in its order. -/
inductive EntryClass where
  | rotation
  | replay
  | fallback
  | spot
  deriving DecidableEq, Repr

structure StackEntry where
  kind : EntryClass
  sponsor : Option Nat
  creative : Descriptor
  dwell : Option Nat
  endMark : Bool
  deriving DecidableEq, Repr

structure Spot where
  sponsor : Nat
  creative : Nat
  dwell : Nat
  deriving DecidableEq, Repr

/-- A placement's fields (R38). -/
structure PlacementFields where
  members : BitVec 32
  held : Bool
  separate : Bool
  bound : Bool
  grade : Nat
  fallback : Descriptor
  deriving DecidableEq, Repr

/-- A placement: its stack from bottom to top, its pending set, its lowest mark, its fields as taken
at the latest FRAME_START (the grade in force and the binding last handled among them). -/
structure Placement where
  stack : List StackEntry
  spots : List Spot
  lowest : Nat
  fields : PlacementFields
  deriving DecidableEq, Repr

structure Sponsor where
  pointer : Nat
  acc : Nat
  capped : Bool
  deriving DecidableEq, Repr

structure RotationUnit where
  placements : List Placement
  sponsors : List Sponsor
  deriving DecidableEq, Repr

/-! ### Clock unit (ch. 4) -/

inductive ClockMode where
  | down
  | up
  deriving DecidableEq, Repr

inductive GameState where
  | stopped
  | running
  | expired
  deriving DecidableEq, Repr

/-- The states of the shot clock (R69), in its order. -/
inductive ShotState where
  | off
  | expired
  | running
  | held
  deriving DecidableEq, Repr

inductive TimeSource where
  | external
  | internal
  deriving DecidableEq, Repr

/-- The causes of a start or stop record (R66). -/
inductive ClockCause where
  | gate
  | soft
  | expiry
  | limit
  | adjust
  deriving DecidableEq, Repr

/-- The clock configuration (R78). -/
structure ClockConfig where
  mode : ClockMode
  startValue : Nat
  setPoint : Nat
  shotReset : Nat
  shotAtClear : Bool
  hornLength : Nat
  upHorn : Bool
  gateOverride : Bool
  timeouts : Nat
  deriving DecidableEq, Repr

structure ClockRecord where
  house : HouseTime
  frame : FrameNo
  value : Nat
  cause : ClockCause
  deriving DecidableEq, Repr

structure GateStamp where
  house : HouseTime
  frame : FrameNo
  value : Nat
  rising : Bool
  deriving DecidableEq, Repr

structure ClockUnit where
  house : HouseTime
  value : Nat
  state : GameState
  soft : Bool
  period : Nat
  added : Bool
  source : TimeSource
  watch : Option HouseTime
  returns : Nat
  lastReturn : HouseTime
  shotValue : Nat
  shotOn : Bool
  hornGame : Option HouseTime
  hornShot : Option HouseTime
  startRec : ClockRecord
  stopRec : ClockRecord
  gateRec : GateStamp
  config : ClockConfig
  configPending : Bool
  deriving DecidableEq, Repr

/-! ### Score unit (ch. 5) -/

inductive Team where
  | home
  | away
  deriving DecidableEq, Repr

structure Flash where
  team : Team
  creative : Descriptor
  remaining : Nat
  deriving DecidableEq, Repr

structure ScoreUnit where
  flash : Option Flash
  flashAsk : Option Team
  fields : List RenderedField
  deriving DecidableEq, Repr

/-! ### Replay unit (ch. 6 and 7) -/

inductive SlotState where
  | empty
  | filling
  | filled
  deriving DecidableEq, Repr

/-- A slot table record (R101); sequence, commit frame and stamp are 0 while not FILLED. -/
structure Slot where
  state : SlotState
  seq : Nat
  commitFrame : FrameNo
  stampValue : Nat
  stampMode : ClockMode
  stampPeriod : Nat
  writeError : Bool
  deriving DecidableEq, Repr

inductive ClipState where
  | empty
  | armed
  | playing
  deriving DecidableEq, Repr

inductive EndAction where
  | holdLast
  | returnLive
  deriving DecidableEq, Repr

/-- A clip record (R111); all fields 0 while EMPTY. -/
structure Clip where
  state : ClipState
  inPoint : Nat
  outPoint : Nat
  rate : Nat
  endAction : EndAction
  bumperFrames : Nat
  bumper : Option Descriptor
  autoDisarm : Bool
  deriving DecidableEq, Repr

inductive Playback where
  | live
  | entering
  | onAir
  | frozen
  | leaving
  deriving DecidableEq, Repr

/-- The causes of REPLAY_ENDED (R124). -/
inductive EndCause where
  | ended
  | takeLive
  | cut
  deriving DecidableEq, Repr

inductive Waiting where
  | play (c : Nat)
  | takeLive
  deriving DecidableEq, Repr

structure ReplayUnit where
  slots : List Slot
  fill : Option Nat
  captureSeq : Nat
  clips : List Clip
  playback : Playback
  clip : Option Nat
  position : Nat
  counter : Nat
  bumper : Option (Nat × Nat)
  lastShown : Nat
  leaveCause : EndCause
  waiting : Option Waiting
  cutPending : Bool
  deriving DecidableEq, Repr

/-! ### Message unit (ch. 8) -/

inductive MsgClass where
  | general
  | greeting
  | announce
  deriving DecidableEq, Repr

structure Message where
  id : BitVec 32
  cls : MsgClass
  text : List Nat
  queued : HouseTime
  deadline : HouseTime
  deriving DecidableEq, Repr

structure MessageUnit where
  head : BitVec 16
  tail : BitVec 16
  fetch : Option (BitVec 16)
  queue : List Message
  hold : Bool
  deriving DecidableEq, Repr

/-! ### Ticker unit (ch. 9) -/

inductive BandState where
  | hidden
  | running
  | paused
  | suppressed
  deriving DecidableEq, Repr

structure BandEntry where
  id : BitVec 32
  text : List Nat
  width : Nat
  x : Int
  deriving DecidableEq, Repr

structure TickerUnit where
  state : BandState
  prior : Option BandState
  band : List BandEntry
  withdrawals : List (BitVec 32)
  shown : BitVec 32
  deriving DecidableEq, Repr

/-! ### Report unit (ch. 11) -/

/-- The outcome codes (section 11.3), in its order. -/
inductive ReqOutcome where
  | accepted
  | clamped
  | superseded
  | duplicate
  | unknown
  | badParam
  | wrongMode
  | running
  | notMember
  | suspended
  | inService
  | notAllowed
  | notArmed
  | inUse
  | gone
  | notYet
  | noRoom
  | badRange
  | notOnAir
  | badGeometry
  | overlap
  deriving DecidableEq, Repr

/-- The request words, in their order (R171). -/
inductive ReqWord where
  | showWord
  | clockWord
  | sponsorWord
  | replayWord
  | tickerWord
  | spareWord
  deriving DecidableEq, Repr

/-- A place of the outcome table (R183): no outcome is shown as tag 0 with NONE. -/
structure Place where
  tag : Byte
  outcome : Option ReqOutcome
  mark : Bool
  deriving DecidableEq, Repr

structure OutcomeRow where
  latest : Place
  previous : Place
  deriving DecidableEq, Repr

/-- The notice kinds (R188), in its order. -/
inductive NoticeKind where
  | modeChanged
  | requestRefused
  | tableIgnored
  | writeBlocked
  | assetError
  | fallbackShown
  | exposureTarget
  | spotDropped
  | periodEnd
  | shotExpired
  | clockStopped
  | clockLimit
  | timebaseLost
  | timebaseRestored
  | scoreChange
  | replayStarted
  | replayEnded
  | ingestAbandoned
  | intakeOverrun
  | intakeBad
  | msgExpired
  | withdrawLate
  deriving DecidableEq, Repr

/-- The part's own copy of a notice record (ch. 12.6); no kind is the zero of reset. -/
structure NoticeRecord where
  number : BitVec 16
  kind : Option NoticeKind
  count : Nat
  frame : FrameNo
  house : HouseTime
  detail : List Byte
  deriving DecidableEq, Repr

/-- What a command hands to the report unit: an occurrence of a kind with its 16 detail bytes (R186),
or a consume capture with its value (R187). -/
inductive Report where
  | occurrence (kind : NoticeKind) (detail : List Byte)
  | consume (v : BitVec 16)
  deriving DecidableEq, Repr

/-- Why a refresh became due (R184). -/
inductive RefreshCause where
  | frameStart
  | clockStop
  deriving DecidableEq, Repr

structure ReportUnit where
  mode : Mode
  pendingMode : Option (Mode × Byte)
  outcomes : List OutcomeRow
  snapshot : Option (List Byte)
  held : Option RefreshCause
  refreshCount : BitVec 32
  ring : List NoticeRecord
  produce : BitVec 16
  consume : BitVec 16
  raised : List Report
  draws : Nat
  deriving DecidableEq, Repr

/-! ### The whole part -/

/-- The state: the queue of waiting commands, the level of GATE_RUN, the nine blocks. -/
structure State where
  pending : List Instr
  gateRun : Bool
  path : PathUnit
  comp : CompUnit
  rot : RotationUnit
  clock : ClockUnit
  score : ScoreUnit
  replay : ReplayUnit
  msg : MessageUnit
  ticker : TickerUnit
  report : ReportUnit
  deriving DecidableEq, Repr

/-! ### Reset values -/

def Descriptor.zero : Descriptor := { addr := 0, stride := 0, width := 0, height := 0, dwell := 0 }

def Geometry.zero : Geometry :=
  { canvasBase := 0, width := 0, height := 0, stride := 0, scanTag := 0, ingestTag := 0,
    windowBase := 0, poolBase := 0, slotCount := 0, assetBase := 0, sectorSize := 0 }

/-- The zeroed shadow read with its clamps (R78). -/
def ClockConfig.zero : ClockConfig :=
  { mode := .down, startValue := 1, setPoint := 1, shotReset := 1000, shotAtClear := false,
    hornLength := 100, upHorn := false, gateOverride := false, timeouts := 0 }

def ClockRecord.zero : ClockRecord := { house := 0, frame := 0, value := 0, cause := .gate }

def Slot.emptied : Slot :=
  { state := .empty, seq := 0, commitFrame := 0, stampValue := 0, stampMode := .down,
    stampPeriod := 0, writeError := false }

def Clip.emptied : Clip :=
  { state := .empty, inPoint := 0, outPoint := 0, rate := 0, endAction := .holdLast,
    bumperFrames := 0, bumper := none, autoDisarm := false }

/-- The zeroed shadow read with its clamps (R59). -/
def Placement.reset : Placement :=
  { stack := [], spots := [], lowest := 31,
    fields := { members := 0, held := false, separate := false, bound := false, grade := 1,
                fallback := { Descriptor.zero with dwell := 1 } } }

def RenderedField.blank : RenderedField := { codes := [], x := 0, y := 0, cells := 1, right := false }

def Place.none : Place := { tag := 0, outcome := Option.none, mark := false }

def NoticeRecord.zero : NoticeRecord :=
  { number := 0, kind := none, count := 0, frame := 0, house := 0, detail := List.replicate 16 0 }

/-- R178, with the straps at `tbase`; the responses to what `stale` names are still to come (R176). -/
def PathUnit.reset (tbase : BitVec 8) (stale : List Stale) : PathUnit :=
  { tbase := tbase, shadow := [], geom := .zero, order := [], nextKey := 0, issued := [],
    returned := [], stale := stale }

/-- R20. -/
def CompUnit.reset : CompUnit :=
  { frame := 0, plan := none, marks := [], weights := [0, 0, 0, 0], lock := [], reads := [] }

/-- R59. -/
def RotationUnit.reset : RotationUnit :=
  { placements := List.replicate 4 .reset,
    sponsors := List.replicate 32 { pointer := 0, acc := 0, capped := false } }

/-- R81. -/
def ClockUnit.reset : ClockUnit :=
  { house := 0, value := 0, state := .stopped, soft := false, period := 1, added := false,
    source := .external, watch := none, returns := 0, lastReturn := 0, shotValue := 0,
    shotOn := false, hornGame := none, hornShot := none, startRec := .zero, stopRec := .zero,
    gateRec := { house := 0, frame := 0, value := 0, rising := false }, config := .zero,
    configPending := false }

/-- R86, R91. -/
def ScoreUnit.reset : ScoreUnit :=
  { flash := none, flashAsk := none, fields := List.replicate 12 .blank }

/-- R117, R134. -/
def ReplayUnit.reset : ReplayUnit :=
  { slots := [], fill := none, captureSeq := 1, clips := List.replicate 16 .emptied,
    playback := .live, clip := none, position := 0, counter := 0, bumper := none, lastShown := 0,
    leaveCause := .ended, waiting := none, cutPending := false }

/-- R151. -/
def MessageUnit.reset : MessageUnit :=
  { head := 0, tail := 0, fetch := none, queue := [], hold := false }

/-- R152. -/
def TickerUnit.reset : TickerUnit :=
  { state := .hidden, prior := none, band := [], withdrawals := [], shown := 0 }

/-- R189. -/
def ReportUnit.reset : ReportUnit :=
  { mode := .pass, pendingMode := none,
    outcomes := List.replicate 6 { latest := .none, previous := .none }, snapshot := none,
    held := none, refreshCount := 0, ring := List.replicate 32 .zero, produce := 0, consume := 0,
    raised := [], draws := 0 }

/-- Every block after a reset whose deassertion found the straps at `tbase` and GATE_RUN at `gate`, and
that dropped what `stale` names (R176, R189). -/
def State.resetWith (tbase : BitVec 8) (gate : Bool) (stale : List Stale) (pending : List Instr) :
    State :=
  { pending := pending, gateRun := gate, path := .reset tbase stale, comp := .reset, rot := .reset,
    clock := .reset, score := .reset, replay := .reset, msg := .reset, ticker := .reset,
    report := .reset }

/-- The part right after reset: the straps at 0 and GATE_RUN low (log 3), the queue empty. -/
def State.reset : State := .resetWith 0 false [] []

end Sys2Proof.Machine
end

