-- ==== Sys2Proof/Machine/Ops.lean ====
section
/-! DEFINITION. The operations every block uses: sparse tables and the shadow's bytes, little-endian
fields and byte layouts, free order, house-time comparison, the response order of the ports, raising
an occurrence and making a status refresh due. -/

namespace Sys2Proof.Machine

/-! ### Sparse tables in canonical form -/

/-- What a sparse table holds at a key; `d` where the key is not listed. -/
def lookup {α : Type} (d : α) : List (Nat × α) → Nat → α
  | [], _ => d
  | (k, v) :: m, a => if a = k then v else lookup d m a

/-- Put a value into a sparse table, keeping it canonical: keys strictly rising, `d` never listed. -/
def put {α : Type} [DecidableEq α] (d : α) : List (Nat × α) → Nat → α → List (Nat × α)
  | [], a, v => if v = d then [] else [(a, v)]
  | (k, x) :: m, a, v =>
    if a < k then (if v = d then (k, x) :: m else (a, v) :: (k, x) :: m)
    else if a = k then (if v = d then m else (a, v) :: m)
    else (k, x) :: put d m a v

/-- Every key is at least `lo`, the keys rise strictly, `d` is not listed. -/
def canonicalFrom {α : Type} [DecidableEq α] (d : α) : Nat → List (Nat × α) → Bool
  | _, [] => true
  | lo, (k, v) :: m => decide (lo ≤ k) && decide (v ≠ d) && canonicalFrom d (k + 1) m

/-- The canonical form of the shadow. -/
def Memory.wf (m : Memory) : Bool := canonicalFrom (0 : Byte) 0 m

/-- The shadow byte at a table region offset (R169). -/
def readByte (m : Memory) (off : Nat) : Byte := lookup 0 m off

/-- The shadow with one byte written. -/
def writeByte (m : Memory) (off : Nat) (v : Byte) : Memory := put 0 m off v

/-- The shadow with these bytes merged, in order (R170). -/
def writeAll (m : Memory) (bytes : List (Nat × Byte)) : Memory :=
  bytes.foldl (fun m b => writeByte m b.1 b.2) m

/-! ### Little-endian fields -/

/-- The little-endian number in the `n` shadow bytes at `off` (R190). -/
def readLE (m : Memory) (off : Nat) : Nat → Nat
  | 0 => 0
  | n + 1 => (readByte m off).toNat + 256 * readLE m (off + 1) n

/-- Bit `i` of the shadow byte at `off` (R190). -/
def readFlag (m : Memory) (off i : Nat) : Bool := (readByte m off).toNat.testBit i

/-- The two's complement reading of a 16-bit field (R190). -/
def signed16 (v : Nat) : Int := if v < 32768 then (v : Int) else (v : Int) - 65536

/-- The two's complement reading of a 32-bit field (R190). -/
def signed32 (v : Nat) : Int := if v < 2147483648 then (v : Int) else (v : Int) - 4294967296

/-- The little-endian number in a list of bytes. -/
def leNat : List Byte → Nat
  | [] => 0
  | b :: bs => b.toNat + 256 * leNat bs

/-- The `n` little-endian bytes of a number. -/
def leBytes : Nat → Nat → List Byte
  | 0, _ => []
  | n + 1, v => BitVec.ofNat 8 v :: leBytes n (v / 256)

/-- The byte that the first of these fields to cover offset `i` places there, 0 where none does. -/
def layoutByte (fields : List (Nat × List Byte)) (i : Nat) : Byte :=
  match fields with
  | [] => 0
  | (off, bs) :: rest =>
    if off ≤ i ∧ i < off + bs.length then bs.getD (i - off) 0 else layoutByte rest i

/-- A record of `n` bytes with these fields at their offsets, every other byte 0 (R191). -/
def layout (n : Nat) (fields : List (Nat × List Byte)) : List Byte :=
  (List.range n).map (layoutByte fields)

/-- The byte of a flag. -/
def flagByte (b : Bool) : Byte := if b then 1 else 0

/-- `v` held to `lo` .. `hi`. -/
def clampNat (lo hi v : Nat) : Nat := max lo (min hi v)

/-- `v` held to `lo` .. `hi`. -/
def clampInt (lo hi v : Int) : Int := max lo (min hi v)

/-! ### House time -/

/-- House time `t` has been reached at `now` (R60). -/
def reached (now t : HouseTime) : Bool := decide ((now - t).toNat < 2147483648)

/-! ### Free order (log 1) -/

def insertByRank {α : Type} (rank : α → Nat) (x : α) : List α → List α
  | [] => [x]
  | y :: ys => if rank x ≤ rank y then x :: y :: ys else y :: insertByRank rank x ys

/-- The list in rising rank, equal ranks in their order. -/
def sortByRank {α : Type} (rank : α → Nat) : List α → List α
  | [] => []
  | x :: xs => insertByRank rank x (sortByRank rank xs)

/-- The list in the free order of this draw. -/
def freeOrder {α : Type} (draw : Nat) (key : α → Nat) (l : List α) : List α :=
  sortByRank (fun x => Config.freeRank draw (key x)) l

/-! ### The status refresh and the occurrences -/

/-- Hand one report to the report unit; it is taken when the command has done its work (log 1). -/
def raiseReport (s : State) (r : Report) : State :=
  { s with report := { s.report with raised := s.report.raised ++ [r] } }

/-- Raise an occurrence (R186) with these detail fields (ch. 12.6). -/
def raise (s : State) (kind : NoticeKind) (detail : List (Nat × List Byte)) : State :=
  raiseReport s (.occurrence kind (layout 16 detail))

/-- Raise several occurrences of one kind in an order the manual leaves open (log 1). -/
def raiseAll {α : Type} (s : State) (kind : NoticeKind) (key : α → Nat)
    (detail : α → List (Nat × List Byte)) (l : List α) : State :=
  if l.length < 2 then l.foldl (fun s x => raise s kind (detail x)) s
  else
    (freeOrder s.report.draws key l).foldl (fun s x => raise s kind (detail x))
      { s with report := { s.report with draws := s.report.draws + 1 } }

/-- The cause a due refresh leaves when one is already held: CLOCK_STOP if any due came from a stop
(R184). -/
def mergeCause (old : Option RefreshCause) (new : RefreshCause) : RefreshCause :=
  match old with
  | some .clockStop => .clockStop
  | _ => new

/-- What is held after a refresh became due: `begun` says that there has been a FRAME_START since reset,
before which no refresh is made (R81, R184, R189; DESIGN CHOICE, log 31, on a stop before it). -/
def heldAfter (begun : Bool) (old : Option RefreshCause) (cause : RefreshCause) :
    Option RefreshCause := if begun then some (mergeCause old cause) else old

/-- A status refresh becomes due: it is held, or merges into the held one (R184). An IDLE report unit
starts it when the command has done its work (log 10). -/
def refreshDue (s : State) (cause : RefreshCause) : State :=
  { s with report := { s.report with
      held := heldAfter s.comp.plan.isSome s.report.held cause } }

/-! ### The two ports -/

/-- Issue a transaction on the memory-side port. -/
def issue (s : State) (d : DownTxn) : State :=
  { s with path := { s.path with issued := s.path.issued ++ [d] } }

/-- The ID of the part's own transactions (R168). -/
def ownId : BitVec 8 := 0xF0

/-- The table region's first byte address (R169). -/
def tableBase (s : State) : Nat := s.path.tbase.toNat * 4294967296

/-- An entry's tag and direction: the queue it keeps its order in (R167). -/
def Entry.lane (e : Entry) : Dir × Nat := (e.dir, masterTag e.id)

/-- Split the transactions in flight into those that stay and the responses that may go back: an
answered transaction goes back once no earlier one of its tag and direction waits (R167). `waiting`
are the lanes in which an earlier one waits. -/
def drain : List (Dir × Nat) → List Entry → List Entry × List UpResp
  | _, [] => ([], [])
  | waiting, e :: es =>
    match e.answer with
    | none =>
      let (stay, back) := drain (e.lane :: waiting) es
      (e :: stay, back)
    | some r =>
      if waiting.contains e.lane then
        let (stay, back) := drain waiting es
        (e :: stay, back)
      else
        let (stay, back) := drain waiting es
        (stay, r :: back)

/-- Return every response that may go back. -/
def returnResponses (s : State) : State :=
  let (stay, back) := drain [] s.path.order
  { s with path := { s.path with order := stay, returned := s.path.returned ++ back } }

/-- A transaction takes its place at the end of the response order. -/
def enterOrder (s : State) (id : BitVec 8) (dir : Dir) (kind : EntryKind) (bytes beats : Nat)
    (answer : Option UpResp) : State :=
  { s with path := { s.path with
      order := s.path.order ++
        [{ key := s.path.nextKey, id := id, dir := dir, kind := kind, bytes := bytes,
           beats := beats, answer := answer }],
      nextKey := s.path.nextKey + 1 } }

/-- Change the transaction in flight with this key. -/
def modifyEntry (s : State) (key : Nat) (f : Entry → Entry) : State :=
  { s with path := { s.path with
      order := s.path.order.map fun e => if e.key = key then f e else e } }

/-- Give the transaction with this key its answer, then return what may go back. -/
def giveAnswer (s : State) (key : Nat) (r : UpResp) : State :=
  returnResponses (modifyEntry s key fun e => { e with answer := some r })

/-- The transaction with this key is the oldest in flight of its lane: nothing of its tag and direction
waits before it (R167). -/
def atHead (s : State) (lane : Dir × Nat) (key : Nat) : Bool :=
  (s.path.order.find? fun e => e.lane == lane).any fun e => e.key == key

/-- A response to a transaction that a reset dropped is discarded (R176). -/
def discard (s : State) (x : Stale) : State :=
  { s with path := { s.path with stale := s.path.stale.erase x } }

/-- The response that has come belongs to a transaction that a reset dropped: those of one ID come in
the order of their issue (R168). -/
def isStale (s : State) (x : Stale) : Bool := s.path.stale.contains x

/-- The oldest unanswered transaction in flight that satisfies `p`. -/
def oldestWaiting (s : State) (p : Entry → Bool) : Option Entry :=
  s.path.order.find? fun e => e.answer.isNone && p e

/-- A response with an error code on every beat and zero data. -/
def errorResponse (id : BitVec 8) (dir : Dir) (bytes beats : Nat) : UpResp :=
  { id := id, dir := dir, data := List.replicate bytes 0, status := List.replicate beats .slverr }

/-- An error code (R166). -/
def respIsError : Resp → Bool
  | .okay => false
  | .exokay => false
  | .slverr => true
  | .decerr => true

end Sys2Proof.Machine
end

