-- ==== Sys2Proof/Machine/Operands.lean ====
section
/-! DEFINITION. Every field of the captured areas, read from the shadow with its width, its sign and
its clamp (ch. 12.2 to 12.5; R2, R33, R38, R78, R82, R84, R90, R91, R144, R153, R190), and the bytes
these records are written as in the part-owned areas (R191). -/

namespace Sys2Proof.Machine

/-! ### Descriptors -/

/-- A creative descriptor whose dwell is not read; address bits 0 to 3 read 0 (R190). -/
def readPlainDescriptor (m : Memory) (off : Nat) : Descriptor :=
  { addr := readLE m off 5 / 16 * 16, stride := readLE m (off + 6) 2,
    width := readLE m (off + 8) 2, height := readLE m (off + 10) 2, dwell := 0 }

/-- A sponsor creative's descriptor (R33). -/
def readCreative (m : Memory) (off : Nat) : Descriptor :=
  { readPlainDescriptor m off with dwell := readLE m (off + 12) 2 }

/-- The creative descriptor ranges (R5). -/
def Descriptor.inRange (d : Descriptor) : Bool :=
  decide (1 ≤ d.width) && decide (d.width ≤ 4096) && decide (1 ≤ d.height) &&
  decide (d.height ≤ 4096) && decide (d.stride % 16 = 0) && decide (d.width * 4 ≤ d.stride)

/-- An atlas and its advance table (R90). -/
def readAtlas (m : Memory) (off : Nat) : Atlas :=
  { addr := readLE m off 5 / 16 * 16, stride := readLE m (off + 6) 2,
    cw := clampNat 1 64 (readByte m (off + 8)).toNat,
    ch := clampNat 1 64 (readByte m (off + 9)).toNat,
    advances := (List.range 128).map fun g => (readByte m (off + 128 + g)).toNat }

def bugAtlas (m : Memory) : Atlas := readAtlas m 0x400
def tickerAtlas (m : Memory) : Atlas := readAtlas m 0x500

/-- An atlas is usable when its stride is a multiple of 16 and at least 64 × cw (R90). -/
def Atlas.usable (a : Atlas) : Bool :=
  decide (a.stride % 16 = 0) && decide (64 * a.cw ≤ a.stride)

/-- A glyph's advance: the entry 0 reads cw, an entry above cw reads cw (R90). -/
def Atlas.advance (a : Atlas) (g : Nat) : Nat :=
  let e := a.advances.getD g 0
  if e = 0 then a.cw else min e a.cw

/-- A glyph that draws: neither code 0 nor a glyph whose entry is 0, of a usable atlas (R90, R96). -/
def Atlas.draws (a : Atlas) (g : Nat) : Bool :=
  a.usable && decide (g ≠ 0) && decide (a.advances.getD g 0 ≠ 0)

/-- The address of pixel (gx, gy) of glyph g (R90). -/
def Atlas.pixelAddr (a : Atlas) (g gx gy : Nat) : Nat :=
  a.addr + (g / 16 * a.ch + gy) * a.stride + (g % 16 * a.cw + gx) * 4

/-- The width of a text: the sum of its advances (R96, R160). -/
def Atlas.textWidth (a : Atlas) (codes : List Nat) : Nat := (codes.map a.advance).sum

/-! ### Layer records and placements -/

/-- Where layer record `l` stands in the show table (ch. 12.3). -/
def layerOffset (l : Nat) : Nat := 0x40 + l * 64

def layerEnable (m : Memory) (l : Nat) : Bool := readFlag m (layerOffset l) 0
def layerRank (m : Memory) (l : Nat) : Nat := clampNat 1 8 (readByte m (layerOffset l + 1)).toNat
def layerOpacity (m : Memory) (l : Nat) : Nat := (readByte m (layerOffset l + 2)).toNat
def layerX (m : Memory) (l : Nat) : Int :=
  clampInt (-4096) 8191 (signed16 (readLE m (layerOffset l + 4) 2))
def layerY (m : Memory) (l : Nat) : Int :=
  clampInt (-4096) 8191 (signed16 (readLE m (layerOffset l + 6) 2))
def layerW (m : Memory) (l : Nat) : Nat := clampNat 1 4096 (readLE m (layerOffset l + 8) 2)
def layerH (m : Memory) (l : Nat) : Nat := clampNat 1 4096 (readLE m (layerOffset l + 10) 2)

/-- A placement's fields (R38). -/
def readPlacement (m : Memory) (p : Nat) : PlacementFields :=
  let off := layerOffset p
  let fallback := readCreative m (off + 32)
  { members := BitVec.ofNat 32 (readLE m (off + 12) 4), held := readFlag m (off + 16) 0,
    separate := readFlag m (off + 17) 0, bound := readFlag m (off + 17) 1,
    grade := clampNat 1 16 (readByte m (off + 18)).toNat,
    fallback := { fallback with dwell := max 1 fallback.dwell } }

/-- Sponsor `s` is a member (R38). -/
def PlacementFields.member (f : PlacementFields) (s : Nat) : Bool := f.members.getLsbD s

/-! ### Sponsor entries -/

/-- Where sponsor entry `s` stands (ch. 12.1). -/
def sponsorOffset (s : Nat) : Nat := 0x3000 + s * 256

def sponsorSuspended (m : Memory) (s : Nat) : Bool := readFlag m (sponsorOffset s) 0
def sponsorCapping (m : Memory) (s : Nat) : Bool := readFlag m (sponsorOffset s) 1
def sponsorTarget (m : Memory) (s : Nat) : Nat := readLE m (sponsorOffset s + 8) 6
def sponsorCreative (m : Memory) (s i : Nat) : Descriptor :=
  readCreative m (sponsorOffset s + 16 + i * 16)

/-- The sponsor has no creative in use (R34). -/
def sponsorUnused (m : Memory) (s : Nat) : Bool :=
  (List.range 8).all fun i => decide ((sponsorCreative m s i).dwell = 0)

/-- A creative is usable on placement `p` (R33). -/
def usableOn (m : Memory) (p : Nat) (d : Descriptor) : Bool :=
  decide (d.dwell ≠ 0) && decide (d.width ≤ layerW m p) && decide (d.height ≤ layerH m p)

/-! ### Configuration blocks -/

/-- The clock configuration the shadow holds (R78). -/
def readClockConfig (m : Memory) : ClockConfig :=
  { mode := if readFlag m 0x240 0 then .up else .down,
    startValue := clampNat 1 5999999 (readLE m 0x244 4),
    setPoint := clampNat 1 5999999 (readLE m 0x248 4),
    shotReset := clampNat 1000 99999 (readLE m 0x24C 4),
    hornLength := clampNat 100 5000 (readLE m 0x250 2),
    shotAtClear := readFlag m 0x252 0, upHorn := readFlag m 0x252 1,
    gateOverride := readFlag m 0x252 2,
    timeouts := min 9 (readByte m 0x253).toNat }

def flashEnable (m : Memory) : Bool := readFlag m 0x260 0
def cutOnScore (m : Memory) : Bool := readFlag m 0x260 1
def flashFrames (m : Memory) : Nat := clampNat 1 600 (readLE m 0x262 2)
def flashCreative (m : Memory) : Team → Descriptor
  | .home => readPlainDescriptor m 0x270
  | .away => readPlainDescriptor m 0x280

def periodSpotEnable (m : Memory) : Bool := readFlag m 0x290 0
def periodSpotSponsor (m : Memory) : Nat := (readByte m 0x291).toNat
def periodSpotPlacement (m : Memory) : Nat := (readByte m 0x292).toNat
def periodSpotDwell (m : Memory) : Nat := readLE m 0x294 2

def plateColour (m : Memory) : Pixel :=
  { r := readByte m 0x2A0, g := readByte m 0x2A1, b := readByte m 0x2A2, k := readByte m 0x2A3 }
def glyphRow (m : Memory) : Nat := min 4095 (readLE m 0x2A4 2)
def bandSpeed (m : Memory) : Nat := clampNat 1 16 (readByte m 0x2A6).toNat
def startLevel (m : Memory) : Nat := clampNat 1 32 (readByte m 0x2A7).toNat
def bandGap (m : Memory) : Nat := min 1024 (readLE m 0x2A8 2)
def startDelay (m : Memory) : Nat := min 60 (readByte m 0x2AA).toNat
def hideOnReplay (m : Memory) : Bool := readFlag m 0x2AB 0

/-- The high mark (R144). -/
def highMark (m : Memory) : Nat := clampNat 1 32 (readByte m 0x2AC).toNat

/-- The low mark, held below the high mark (R144). DESIGN CHOICE (log 34): it is read from the captured
byte each time, so that an Lm lowered under a low Hm rises again with Hm. -/
def lowMark (m : Memory) : Nat := min (highMark m - 1) (readByte m 0x2AD).toNat

def bumperDescriptor (m : Memory) (j : Nat) : Descriptor := readPlainDescriptor m (0x2C0 + j * 16)
def bugPlate (m : Memory) : Descriptor := readPlainDescriptor m 0x300

/-- What a bug field shows (R91). -/
inductive FieldSource where
  | none
  | score (t : Team)
  | abbr (t : Team)
  | timeouts (t : Team)
  | fouls (t : Team)
  | period
  | clock
  | shot
  | replayClock
  deriving DecidableEq, Repr

/-- The source of bug field `f`; a code above 12 reads NONE (R91, R190). -/
def fieldSource (m : Memory) (f : Nat) : FieldSource :=
  match (readByte m (0x310 + f * 8)).toNat with
  | 1 => .score .home
  | 2 => .score .away
  | 3 => .abbr .home
  | 4 => .abbr .away
  | 5 => .timeouts .home
  | 6 => .timeouts .away
  | 7 => .fouls .home
  | 8 => .fouls .away
  | 9 => .period
  | 10 => .clock
  | 11 => .shot
  | 12 => .replayClock
  | _ => .none

def fieldCells (m : Memory) (f : Nat) : Nat := clampNat 1 8 (readByte m (0x310 + f * 8 + 1)).toNat
def fieldX (m : Memory) (f : Nat) : Nat := min 4095 (readLE m (0x310 + f * 8 + 2) 2)
def fieldY (m : Memory) (f : Nat) : Nat := min 4095 (readLE m (0x310 + f * 8 + 4) 2)
def fieldRight (m : Memory) (f : Nat) : Bool := readFlag m (0x310 + f * 8 + 6) 0

/-! ### Team records -/

/-- Where a team record stands (ch. 12.1). -/
def teamOffset : Team → Nat
  | .home => 0x2000
  | .away => 0x2020

def teamScore (m : Memory) (t : Team) : Nat := min 999 (readLE m (teamOffset t) 2)
def teamFouls (m : Memory) (t : Team) : Nat := min 99 (readByte m (teamOffset t + 2)).toNat
def teamTimeouts (m : Memory) (t : Team) : Nat := min 9 (readByte m (teamOffset t + 3)).toNat

/-- The three abbreviation codes, each the low 7 bits of its byte (R82, R89). -/
def teamAbbr (m : Memory) (t : Team) : List Nat :=
  [(readByte m (teamOffset t + 4)).toNat % 128, (readByte m (teamOffset t + 5)).toNat % 128,
   (readByte m (teamOffset t + 6)).toNat % 128]

/-! ### Geometry -/

/-- Where a geometry field stands in the geometry block, with its width in bytes (ch. 12.3). -/
structure GeometryField where
  off : Nat
  width : Nat
  deriving DecidableEq, Repr

def canvasBaseField : GeometryField := { off := 0x00, width := 5 }
def canvasWidthField : GeometryField := { off := 0x08, width := 2 }
def canvasHeightField : GeometryField := { off := 0x0A, width := 2 }
def canvasStrideField : GeometryField := { off := 0x0C, width := 4 }
def scanTagField : GeometryField := { off := 0x10, width := 1 }
def ingestTagField : GeometryField := { off := 0x11, width := 1 }
def windowBaseField : GeometryField := { off := 0x18, width := 5 }
def poolBaseField : GeometryField := { off := 0x20, width := 5 }
def slotCountField : GeometryField := { off := 0x28, width := 2 }
def assetBaseField : GeometryField := { off := 0x30, width := 5 }
def sectorSizeField : GeometryField := { off := 0x38, width := 4 }

def geometryFields : List GeometryField :=
  [canvasBaseField, canvasWidthField, canvasHeightField, canvasStrideField, scanTagField,
   ingestTagField, windowBaseField, poolBaseField, slotCountField, assetBaseField, sectorSizeField]

def GeometryField.read (m : Memory) (f : GeometryField) : Nat := readLE m f.off f.width

/-- The geometry the shadow holds; a tag is bits 0 to 3 of its byte (R190). -/
def readGeometry (m : Memory) : Geometry :=
  { canvasBase := canvasBaseField.read m, width := canvasWidthField.read m,
    height := canvasHeightField.read m, stride := canvasStrideField.read m,
    scanTag := scanTagField.read m % 16, ingestTag := ingestTagField.read m % 16,
    windowBase := windowBaseField.read m, poolBase := poolBaseField.read m,
    slotCount := slotCountField.read m, assetBase := assetBaseField.read m,
    sectorSize := sectorSizeField.read m }

/-! ### Records as bytes (R191) -/

/-- A creative descriptor in its layout. -/
def descriptorBytes (d : Descriptor) : List Byte :=
  layout 16 [(0, leBytes 5 d.addr), (6, leBytes 2 d.stride), (8, leBytes 2 d.width),
    (10, leBytes 2 d.height), (12, leBytes 2 d.dwell)]

/-- The taken geometry in the geometry block layout. -/
def geometryBytes (g : Geometry) : List Byte :=
  layout 64 [(0x00, leBytes 5 g.canvasBase), (0x08, leBytes 2 g.width), (0x0A, leBytes 2 g.height),
    (0x0C, leBytes 4 g.stride), (0x10, leBytes 1 g.scanTag), (0x11, leBytes 1 g.ingestTag),
    (0x18, leBytes 5 g.windowBase), (0x20, leBytes 5 g.poolBase), (0x28, leBytes 2 g.slotCount),
    (0x30, leBytes 5 g.assetBase), (0x38, leBytes 4 g.sectorSize)]

/-- A clock configuration in its block layout. -/
def clockConfigBytes (c : ClockConfig) : List Byte :=
  layout 32 [(0x00, [flagByte (c.mode == .up)]), (0x04, leBytes 4 c.startValue),
    (0x08, leBytes 4 c.setPoint), (0x0C, leBytes 4 c.shotReset), (0x10, leBytes 2 c.hornLength),
    (0x12, leBytes 1 ((if c.shotAtClear then 1 else 0) + (if c.upHorn then 2 else 0) +
      (if c.gateOverride then 4 else 0))),
    (0x13, leBytes 1 c.timeouts)]

/-- A team record in its layout, as the part holds it. -/
def teamBytes (m : Memory) (t : Team) : List Byte :=
  layout 32 [(0x00, leBytes 2 (teamScore m t)), (0x02, leBytes 1 (teamFouls m t)),
    (0x03, leBytes 1 (teamTimeouts m t)), (0x04, (teamAbbr m t).map (BitVec.ofNat 8))]

end Sys2Proof.Machine
end

