-- ==== Sys2Proof/Machine/Flags.lean ====
section
/-! DEFINITION. The states and lines that follow from other state: the sponsor and shot clock states,
IRQ and the horn lines, the replay's program source, the held slots, what is outstanding in the
intake ring, the codes the status page and the notices write (R34, R69, R72, R109, R110, R118, R135,
R187, R191). -/

namespace Sys2Proof.Machine

/-! ### Lines -/

/-- IRQ is high while P differs from C (R187). -/
def irq (s : State) : Bool := decide (s.report.produce ≠ s.report.consume)

/-- HORN_GAME is high while the horn sounds (R72). -/
def hornGameLine (s : State) : Bool := s.clock.hornGame.isSome

/-- HORN_SHOT is high while the horn sounds (R72). -/
def hornShotLine (s : State) : Bool := s.clock.hornShot.isSome

/-- MSGHOLD (R145). -/
def msgHoldLine (s : State) : Bool := s.msg.hold

/-! ### Clocks -/

/-- The shot clock's state (R69). -/
def shotState (c : ClockUnit) : ShotState :=
  if c.shotOn = false then .off
  else if c.shotValue = 0 then .expired
  else if c.state = .running then .running
  else .held

/-- The run condition's parts other than the state (R64). -/
def runWanted (s : State) : Bool := s.clock.soft && (s.gateRun || s.clock.config.gateOverride)

/-! ### Sponsors -/

/-- The record of sponsor `i`. -/
def sponsorAt (s : State) (i : Nat) : Sponsor :=
  s.rot.sponsors.getD i { pointer := 0, acc := 0, capped := false }

/-- The sponsor's state (R34). -/
def sponsorState (s : State) (i : Nat) : SponsorState :=
  if sponsorSuspended s.path.shadow i then .suspended
  else if (sponsorAt s i).capped then .capped
  else if sponsorUnused s.path.shadow i then .empty
  else .ready

/-- Placement `p`. -/
def placementAt (s : State) (p : Nat) : Placement := s.rot.placements.getD p .reset

/-- The sponsor is an entry of this stack. -/
def inStack (stack : List StackEntry) (i : Nat) : Bool := stack.any fun e => e.sponsor == some i

/-- The top entry of a stack. -/
def topEntry (stack : List StackEntry) : Option StackEntry := stack.getLast?

/-! ### Replay -/

/-- Slot `k`. -/
def slotAt (s : State) (k : Nat) : Slot := s.replay.slots.getD k .emptied

/-- Clip `c`. -/
def clipAt (s : State) (c : Nat) : Clip := s.replay.clips.getD c .emptied

/-- A sequence is present when a FILLED slot holds it (R109). -/
def present (s : State) (q : Nat) : Bool :=
  s.replay.slots.any fun x => x.state == .filled && x.seq == q

/-- The sequences of the FILLED slots. -/
def filledSeqs (s : State) : List Nat :=
  (s.replay.slots.filter fun x => x.state == .filled).map Slot.seq

/-- The newest present sequence, 0 when no slot is FILLED (R109). -/
def newestSeq (s : State) : Nat := (filledSeqs s).foldl max 0

/-- The oldest present sequence, 0 when no slot is FILLED (R109). -/
def oldestSeq (s : State) : Nat :=
  match filledSeqs s with
  | [] => 0
  | q :: qs => qs.foldl min q

/-- The FILLED slot that holds a sequence. -/
def slotOf (s : State) (q : Nat) : Option Nat :=
  s.replay.slots.findIdx? fun x => x.state == .filled && x.seq == q

/-- The newest slot (R109). -/
def newestSlot (s : State) : Option Nat :=
  if (filledSeqs s).isEmpty then none else slotOf s (newestSeq s)

/-- The lowest `m` such that every sequence from `m` to `q` is present, looking back at most `fuel`
sequences (R109). -/
def runStartFrom (s : State) : Nat → Nat → Nat
  | 0, q => q
  | fuel + 1, q => if 1 < q ∧ present s (q - 1) = true then runStartFrom s fuel (q - 1) else q

/-- The run start of a present sequence (R109). -/
def runStart (s : State) (q : Nat) : Nat := runStartFrom s s.replay.slots.length q

/-- The clip is ARMED or PLAYING and its range holds this sequence. -/
def Clip.holds (c : Clip) (q : Nat) : Bool :=
  c.state != .empty && decide (c.inPoint ≤ q) && decide (q ≤ c.outPoint)

/-- A slot is held by these clips (R110). -/
def heldBy (clips : List Clip) (x : Slot) : Bool :=
  x.state == .filled && clips.any fun c => c.holds x.seq

/-- Slot `k` is held (R110). -/
def slotHeld (s : State) (k : Nat) : Bool := heldBy s.replay.clips (slotAt s k)

/-- The program source the replay unit reports (R118). -/
def programSource (s : State) : Source :=
  match s.replay.playback with
  | .live => .liveCanvas
  | .entering => .liveCanvas
  | .onAir | .frozen | .leaving =>
    match slotOf s s.replay.position with
    | some k => .slot k
    | none => .liveCanvas

/-- The program source is a slot. -/
def Source.isSlot : Source → Bool
  | .liveCanvas => false
  | .slot _ => true

/-- The bumper the replay unit reports: index, length and creative (R118). -/
def runningBumper (s : State) : Option (Nat × Nat × Descriptor) :=
  match s.replay.bumper, s.replay.clip with
  | some (i, b), some c => some (i, b, (clipAt s c).bumper.getD .zero)
  | _, _ => none

/-! ### Messages -/

/-- The records written and not yet taken (R135). -/
def outstanding (s : State) : Nat := (s.msg.tail - s.msg.head).toNat

/-- A message with this id is on the band (R140). -/
def onBand (s : State) (id : BitVec 32) : Bool := s.ticker.band.any fun e => e.id == id

/-- A message with this id is in the crowd queue. -/
def inQueue (s : State) (id : BitVec 32) : Bool := s.msg.queue.any fun m => m.id == id

/-- Fetching is paused on a full queue (R137). -/
def fetchPaused (s : State) : Bool :=
  s.msg.fetch.isNone && decide (0 < outstanding s) && decide (32 ≤ s.msg.queue.length)

/-! ### Codes (R191) -/

def Mode.code : Mode → Nat
  | .pass => 0
  | .live => 1

def ClockMode.code : ClockMode → Nat
  | .down => 0
  | .up => 1

def GameState.code : GameState → Nat
  | .stopped => 0
  | .running => 1
  | .expired => 2

def ShotState.code : ShotState → Nat
  | .off => 0
  | .expired => 1
  | .running => 2
  | .held => 3

def TimeSource.code : TimeSource → Nat
  | .external => 0
  | .internal => 1

def ClockCause.code : ClockCause → Nat
  | .gate => 0
  | .soft => 1
  | .expiry => 2
  | .limit => 3
  | .adjust => 4

def Team.code : Team → Nat
  | .home => 0
  | .away => 1

def SponsorState.code : SponsorState → Nat
  | .suspended => 0
  | .capped => 1
  | .empty => 2
  | .ready => 3

def EntryClass.code : EntryClass → Nat
  | .rotation => 0
  | .replay => 1
  | .fallback => 2
  | .spot => 3

def SlotState.code : SlotState → Nat
  | .empty => 0
  | .filling => 1
  | .filled => 2

def ClipState.code : ClipState → Nat
  | .empty => 0
  | .armed => 1
  | .playing => 2

def EndAction.code : EndAction → Nat
  | .holdLast => 0
  | .returnLive => 1

def Playback.code : Playback → Nat
  | .live => 0
  | .entering => 1
  | .onAir => 2
  | .frozen => 3
  | .leaving => 4

def EndCause.code : EndCause → Nat
  | .ended => 0
  | .takeLive => 1
  | .cut => 2

def BandState.code : BandState → Nat
  | .hidden => 0
  | .running => 1
  | .paused => 2
  | .suppressed => 3

/-- The class codes of an intake record (ch. 12.5). -/
def MsgClass.code : MsgClass → Nat
  | .general => 1
  | .greeting => 2
  | .announce => 3

def ReqWord.code : ReqWord → Nat
  | .showWord => 0
  | .clockWord => 1
  | .sponsorWord => 2
  | .replayWord => 3
  | .tickerWord => 4
  | .spareWord => 5

def ReqOutcome.code : ReqOutcome → Nat
  | .accepted => 1
  | .clamped => 2
  | .superseded => 3
  | .duplicate => 4
  | .unknown => 5
  | .badParam => 6
  | .wrongMode => 7
  | .running => 8
  | .notMember => 9
  | .suspended => 10
  | .inService => 11
  | .notAllowed => 12
  | .notArmed => 13
  | .inUse => 14
  | .gone => 15
  | .notYet => 16
  | .noRoom => 17
  | .badRange => 18
  | .notOnAir => 19
  | .badGeometry => 20
  | .overlap => 21

/-- The outcomes that are refusals: all but the first four (section 11.3). -/
def ReqOutcome.refused : ReqOutcome → Bool
  | .accepted => false
  | .clamped => false
  | .superseded => false
  | .duplicate => false
  | _ => true

def NoticeKind.code : NoticeKind → Nat
  | .modeChanged => 1
  | .requestRefused => 2
  | .tableIgnored => 3
  | .writeBlocked => 4
  | .assetError => 5
  | .fallbackShown => 6
  | .exposureTarget => 7
  | .spotDropped => 8
  | .periodEnd => 9
  | .shotExpired => 10
  | .clockStopped => 11
  | .clockLimit => 12
  | .timebaseLost => 13
  | .timebaseRestored => 14
  | .scoreChange => 15
  | .replayStarted => 16
  | .replayEnded => 17
  | .ingestAbandoned => 18
  | .intakeOverrun => 19
  | .intakeBad => 20
  | .msgExpired => 21
  | .withdrawLate => 22

/-- The key under which a report is ordered among those raised with it (log 1): its kind's code, 0 for
a consume capture. -/
def Report.key : Report → Nat
  | .occurrence kind _ => kind.code
  | .consume _ => 0

def RefreshCause.code : RefreshCause → Nat
  | .frameStart => 0
  | .clockStop => 1

end Sys2Proof.Machine
end

