-- ==== Sys2Proof/Machine/Outcomes.lean ====
section
/-! DEFINITION. The request outcome table: recording a request's outcome, superseding and clearing a
waiting mark, REQUEST_REFUSED (R183). -/

namespace Sys2Proof.Machine

/-- What an owner answers to a request: the outcome, whether it now waits for a FRAME_START, and the
value and byte offset REQUEST_REFUSED reports (ch. 12.6). -/
structure Verdict where
  outcome : ReqOutcome
  waits : Bool
  value : Nat
  offset : Nat
  deriving DecidableEq, Repr

/-- An outcome without a parameter to report. -/
def verdict (o : ReqOutcome) : Verdict := { outcome := o, waits := false, value := 0, offset := 0 }

/-- BAD_PARAM naming the offending parameter's value and byte offset. -/
def badParam (value offset : Nat) : Verdict :=
  { outcome := .badParam, waits := false, value := value, offset := offset }

/-- A request accepted to wait for the next FRAME_START. -/
def acceptedWaiting : Verdict := { outcome := .accepted, waits := true, value := 0, offset := 0 }

def emptyRow : OutcomeRow := { latest := .none, previous := .none }

/-- The outcome table's row of a word. -/
def outcomeRow (s : State) (w : ReqWord) : OutcomeRow := s.report.outcomes.getD w.code emptyRow

def setOutcomeRow (s : State) (w : ReqWord) (f : OutcomeRow → OutcomeRow) : State :=
  { s with report := { s.report with outcomes := s.report.outcomes.modify w.code f } }

/-- Latest moves to previous, the new request takes latest (R183). -/
def pushPlace (p : Place) (r : OutcomeRow) : OutcomeRow := { latest := p, previous := r.latest }

/-- A request is taken on a word: its outcome is recorded, a refusal raises REQUEST_REFUSED (R183). -/
def recordOutcome (s : State) (w : ReqWord) (tag : Byte) (code : Nat) (v : Verdict) : State :=
  let s := setOutcomeRow s w
    (pushPlace { tag := tag, outcome := some v.outcome, mark := v.waits })
  if v.outcome.refused then
    raise s .requestRefused
      [(0, leBytes 1 w.code), (1, [tag]), (2, leBytes 1 code), (3, leBytes 1 v.outcome.code),
       (4, leBytes 4 v.value), (8, leBytes 1 v.offset)]
  else s

/-- The place that holds a waiting mark takes this outcome and the mark clears. -/
def Place.drop (o : ReqOutcome) (p : Place) : Place :=
  if p.mark then { p with outcome := some o, mark := false } else p

/-- The waiting mark clears, the outcome stands. -/
def Place.unmark (p : Place) : Place := { p with mark := false }

/-- A waiting request is superseded, dropped or refused: its outcome changes in the place that still
holds its mark (R183). -/
def dropMarked (s : State) (w : ReqWord) (o : ReqOutcome) : State :=
  setOutcomeRow s w fun r => { latest := r.latest.drop o, previous := r.previous.drop o }

/-- A waiting request is carried out: it loses its mark and keeps its outcome (R183). -/
def clearMarks (s : State) (w : ReqWord) : State :=
  setOutcomeRow s w fun r => { latest := r.latest.unmark, previous := r.previous.unmark }

/-- The tag of the place that holds the word's waiting mark. -/
def markedTag (s : State) (w : ReqWord) : Option Byte :=
  let r := outcomeRow s w
  if r.latest.mark then some r.latest.tag
  else if r.previous.mark then some r.previous.tag
  else none

end Sys2Proof.Machine
end

