-- ==== Sys2Proof/Machine/Rotation.lean ====
section
/-! DEFINITION. The rotation unit: accumulators and caps, selection and the creative pointer, the
in-service stacks, spots, the SPONSOR requests and the handling of FRAME_START (ch. 3; R28, R29). -/

namespace Sys2Proof.Machine

def modifyPlacement (s : State) (p : Nat) (f : Placement → Placement) : State :=
  { s with rot := { s.rot with placements := s.rot.placements.modify p f } }

def modifySponsor (s : State) (i : Nat) (f : Sponsor → Sponsor) : State :=
  { s with rot := { s.rot with sponsors := s.rot.sponsors.modify i f } }

/-! ### Exposure (R28, R29) -/

/-- What the compositor hands over for one sponsor layer (R17). -/
structure Handover where
  weight : Nat
  area : Nat
  named : Named
  drawn : Bool
  deriving DecidableEq, Repr

/-- The exposure figure of a layer (R28). -/
def exposure (h : Handover) : Nat := if h.drawn then h.weight * 1000 / (255 * h.area) else 0

/-- What the layers that named sponsor `i` add to it: the sum of exposure times grade (R29). -/
def accrual (i : Nat) : List (Handover × Nat) → Nat
  | [] => 0
  | (h, g) :: rest => (if h.named = .sponsor i then exposure h * g else 0) + accrual i rest

/-- The 48-bit bound at which an accumulator stays (R29). -/
def accLimit : Nat := 281474976710655

def accrueSponsors (pairs : List (Handover × Nat)) : Nat → List Sponsor → List Sponsor
  | _, [] => []
  | i, x :: xs =>
    { x with acc := min accLimit (x.acc + accrual i pairs) } :: accrueSponsors pairs (i + 1) xs

/-- Step 1: the accrual, with the grades taken at the FRAME_START of the frame measured (R29, R30). -/
def rotAccrue (s : State) (hand : List Handover) : State :=
  let pairs := hand.zip (s.rot.placements.map fun p => p.fields.grade)
  { s with rot := { s.rot with sponsors := accrueSponsors pairs 0 s.rot.sponsors } }

/-- Sponsor `i` has met its target (R35). -/
def capDue (s : State) (i : Nat) : Bool :=
  !(sponsorAt s i).capped && sponsorCapping s.path.shadow i &&
  decide (sponsorTarget s.path.shadow i ≠ 0) &&
  decide (sponsorTarget s.path.shadow i ≤ (sponsorAt s i).acc)

/-- Step 2: the cap test (R35). -/
def rotCapTest (s : State) : State :=
  let due := (List.range 32).filter (capDue s)
  let t := due.foldl (fun t i => modifySponsor t i fun x => { x with capped := true }) s
  raiseAll t .exposureTarget (fun i => i)
    (fun i => [(0, leBytes 1 i), (2, leBytes 6 (sponsorAt s i).acc),
      (8, leBytes 6 (sponsorTarget s.path.shadow i))]) due

/-! ### Spots leaving a pending set (R48, R49, R58) -/

/-- The causes of SPOT_DROPPED (ch. 12.6). -/
inductive DropCause where
  | suspended
  | notMember
  | noCreative
  | placementOff
  | replayBound
  deriving DecidableEq, Repr

def DropCause.code : DropCause → Nat
  | .suspended => 0
  | .notMember => 1
  | .noCreative => 2
  | .placementOff => 3
  | .replayBound => 4

def spotDroppedDetail (p : Nat) (x : Spot × DropCause) : List (Nat × List Byte) :=
  [(0, leBytes 1 x.1.sponsor), (1, leBytes 1 p), (2, leBytes 1 x.2.code)]

/-- SPOT_DROPPED for each of these spots of placement `p`, in free order among themselves (log 1). -/
def raiseDrops (s : State) (p : Nat) (drops : List (Spot × DropCause)) : State :=
  raiseAll s .spotDropped (fun x => x.1.sponsor) (spotDroppedDetail p) drops

/-! ### Step 3: emptying (R58) -/

/-- The placement's binding differs from the one last handled (R58). -/
def bindingChanged (s : State) (p : Nat) : Bool :=
  (readPlacement s.path.shadow p).bound != (placementAt s p).fields.bound

/-- The stack and the pending set of `p` are emptied without rotation. -/
def emptyPlacement (s : State) (p : Nat) : State :=
  modifyPlacement s p fun x => { x with stack := [], spots := [] }

/-- The fields of `p` are taken from the shadow (R38). -/
def takeFields (s : State) (p : Nat) : State :=
  modifyPlacement s p fun x => { x with fields := readPlacement s.path.shadow p }

/-- Step 3 for placement `p` in a LIVE frame. DESIGN CHOICE (log 29): where the layer is disabled and the
binding changed at one FRAME_START, the spots are dropped with cause PLACEMENT_OFF. -/
def rotEmptyOne (s : State) (p : Nat) : State :=
  let spots := (placementAt s p).spots
  let t :=
    if !layerEnable s.path.shadow p then
      raiseDrops (emptyPlacement s p) p (spots.map fun x => (x, .placementOff))
    else if bindingChanged s p then
      raiseDrops (emptyPlacement s p) p (spots.map fun x => (x, .replayBound))
    else s
  takeFields t p

/-- The placements, in order. -/
def placementList : List Nat := [0, 1, 2, 3]

/-- Step 3 in a PASS frame: every stack and pending set is emptied, without notice. -/
def rotEmptyAll (s : State) : State :=
  placementList.foldl (fun t p => takeFields (emptyPlacement t p) p) s

/-- Step 3 in a LIVE frame. DESIGN CHOICE (log 37): the SPOT_DROPPED of several placements are raised in
placement order. -/
def rotEmpty (s : State) : State := placementList.foldl rotEmptyOne s

/-- Steps 4 to 7 are made for placement `p`: its layer is enabled and its binding did not change (R44;
on a changed binding R44 and R58 disagree, log 2). `before` is the state step 3 found. -/
def rotActive (before : State) (p : Nat) : Bool :=
  layerEnable before.path.shadow p && (!bindingChanged before p || Config.bindingChangeRefills)

/-! ### Steps 4 and 5 -/

/-- The entry's sponsor is SUSPENDED. -/
def entrySuspended (s : State) (e : StackEntry) : Bool :=
  match e.sponsor with
  | some i => sponsorSuspended s.path.shadow i
  | none => false

/-- Step 4 for placement `p`: entries of SUSPENDED sponsors leave the stack (R44). -/
def rotSuspend (s : State) (p : Nat) : State :=
  modifyPlacement s p fun x => { x with stack := x.stack.filter fun e => !entrySuspended s e }

/-- Why a pending spot of placement `p` can no longer run (R48). DESIGN CHOICE (log 29): a spot whose
sponsor is both SUSPENDED and no member any more is dropped with cause SUSPENDED. -/
def spotCannotRun (s : State) (p : Nat) (x : Spot) : Option DropCause :=
  if sponsorSuspended s.path.shadow x.sponsor then some .suspended
  else if (placementAt s p).fields.member x.sponsor then none
  else some .notMember

/-- Step 5 for placement `p` (R48). -/
def rotDropSpots (s : State) (p : Nat) : State :=
  let spots := (placementAt s p).spots
  raiseDrops
    (modifyPlacement s p fun x =>
      { x with spots := spots.filter fun y => (spotCannotRun s p y).isNone })
    p (spots.filterMap fun y => (spotCannotRun s p y).map fun c => (y, c))

/-! ### Step 6: ends (R45, R56) -/

/-- The entry on top of `p` before step 4 stays on top through step 4. -/
def topStayed (before : State) (p : Nat) : Bool :=
  match topEntry (placementAt before p).stack with
  | some e => !entrySuspended before e
  | none => false

/-- The stack without its top entry. -/
def popTop (stack : List StackEntry) : List StackEntry := stack.dropLast

/-- Rotate-on-end: the ended ROTATION or REPLAY entry's sponsor becomes the lowest (R40). -/
def rotatedLowest (e : StackEntry) (lowest : Nat) : Nat :=
  match e.kind, e.sponsor with
  | .rotation, some i => i
  | .replay, some i => i
  | _, _ => lowest

/-- The top entry, whose frame has been counted when `counts`, ends at this FRAME_START (R45). -/
def topEnds (counts : Bool) (e : StackEntry) : Bool :=
  match e.kind with
  | .replay => false
  | _ => e.endMark || (counts && decide (e.dwell.getD 2 ≤ 1))

/-- The top entry loses a frame. -/
def loseFrame (stack : List StackEntry) : List StackEntry :=
  match stack with
  | [] => []
  | [e] => [{ e with dwell := e.dwell.map (· - 1) }]
  | e :: e' :: es => e :: loseFrame (e' :: es)

/-- R45 for one placement's stack. -/
def endTop (counts : Bool) (x : Placement) : Placement :=
  match topEntry x.stack with
  | none => x
  | some e =>
    if topEnds counts e then
      { x with stack := popTop x.stack, lowest := rotatedLowest e x.lowest }
    else if counts then { x with stack := loseFrame x.stack }
    else x

/-- R56: a bound placement's entry ends at the return of the program to the live canvas. -/
def endBound (x : Placement) : Placement :=
  match topEntry x.stack with
  | none => x
  | some e => { x with stack := [], lowest := rotatedLowest e x.lowest }

/-- Step 6 for placement `p`; `returned` says that the program returns to the live canvas at this
FRAME_START, `before` is the state step 4 found. -/
def rotEnd (before : State) (returned : Bool) (s : State) (p : Nat) : State :=
  modifyPlacement s p fun x =>
    if returned && x.fields.bound then endBound x else endTop (topStayed before p) x

/-! ### Selection (R39, R41, R42) -/

/-- The priority order whose lowest mark is `l` (R39). -/
def priorityOrder (l : Nat) : List Nat := (List.range 32).map fun k => (l + 1 + k) % 32

/-- The creative the pointer rule chooses for sponsor `i` on placement `p` (R42). -/
def nextCreative (s : State) (p i : Nat) : Option Nat :=
  ((List.range 8).map fun k => ((sponsorAt s i).pointer + k) % 8).find? fun c =>
    usableOn s.path.shadow p (sponsorCreative s.path.shadow i c)

/-- Sponsor `i` is eligible on placement `p` (R41). -/
def eligible (s : State) (p i : Nat) : Bool :=
  (placementAt s p).fields.member i && (sponsorState s i == .ready) && (nextCreative s p i).isSome &&
  !inStack (placementAt s p).stack i

/-- Sponsor `i` is the top entry of another placement's stack (R41). -/
def onOtherTop (s : State) (p i : Nat) : Bool :=
  placementList.any fun q =>
    q != p && (topEntry (placementAt s q).stack).any fun e => e.sponsor == some i

/-- The sponsor selection takes on placement `p` (R41). -/
def selectSponsor (s : State) (p : Nat) : Option Nat :=
  let order := priorityOrder (placementAt s p).lowest
  let plain := order.find? (eligible s p)
  if (placementAt s p).fields.separate then
    (order.find? fun i => eligible s p i && !onOtherTop s p i).or plain
  else plain

/-- The pointer moves past the creative chosen (R42). -/
def movePointer (s : State) (i c : Nat) : State :=
  modifySponsor s i fun x => { x with pointer := (c + 1) % 8 }

/-- The ROTATION or REPLAY entry a selection starts (R41). -/
def selectedEntry (s : State) (p i c : Nat) : StackEntry :=
  let f := (placementAt s p).fields
  let d := sponsorCreative s.path.shadow i c
  { kind := if f.bound then .replay else .rotation, sponsor := some i, creative := d,
    dwell := if f.bound || f.held then none else some d.dwell, endMark := false }

/-- The FALLBACK entry of placement `p` (R47). -/
def fallbackEntry (s : State) (p : Nat) : StackEntry :=
  let f := (placementAt s p).fields
  { kind := .fallback, sponsor := none, creative := f.fallback,
    dwell := if f.bound then none else some f.fallback.dwell, endMark := false }

/-- Put an entry at the bottom of `p`'s stack. -/
def putBottom (s : State) (p : Nat) (e : StackEntry) : State :=
  modifyPlacement s p fun x => { x with stack := e :: x.stack }

/-- Selection on placement `p`, or its fallback (R41, R47). -/
def selectOn (s : State) (p : Nat) : State :=
  match selectSponsor s p with
  | some i =>
    match nextCreative s p i with
    | some c => movePointer (putBottom s p (selectedEntry s p i c)) i c
    | none => s
  | none => raise (putBottom s p (fallbackEntry s p)) .fallbackShown [(0, leBytes 1 p)]

/-! ### Step 7: refill and push (R46, R49, R55) -/

/-- The stack has a bottom entry (R46). -/
def hasBottom (stack : List StackEntry) : Bool :=
  match stack with
  | [] => false
  | e :: _ => e.kind != .spot

/-- The creative a pending spot resolves to: the pointer rule for index 15, else the named one if it
is usable (R49). -/
def spotCreative (s : State) (p : Nat) (x : Spot) : Option Nat :=
  if x.creative = 15 then nextCreative s p x.sponsor
  else if usableOn s.path.shadow p (sponsorCreative s.path.shadow x.sponsor x.creative) then
    some x.creative
  else none

/-- The spot leaves the pending set. -/
def removeSpot (s : State) (p i : Nat) : State :=
  modifyPlacement s p fun x => { x with spots := x.spots.filter fun y => y.sponsor != i }

/-- The spot is pushed with this creative (R49). -/
def pushSpot (s : State) (p : Nat) (x : Spot) (c : Nat) : State :=
  let e : StackEntry :=
    { kind := .spot, sponsor := some x.sponsor,
      creative := sponsorCreative s.path.shadow x.sponsor c, dwell := some x.dwell,
      endMark := false }
  let t := modifyPlacement (removeSpot s p x.sponsor) p fun y => { y with stack := y.stack ++ [e] }
  if x.creative = 15 then movePointer t x.sponsor c else t

/-- Walk these sponsors, push the first pending spot that resolves, drop those that do not (R49). -/
def pushWalk (p : Nat) : List Nat → State → State
  | [], s => s
  | i :: is, s =>
    match (placementAt s p).spots.find? fun x => x.sponsor == i with
    | none => pushWalk p is s
    | some x =>
      if inStack (placementAt s p).stack i then pushWalk p is s
      else
        match spotCreative s p x with
        | some c => pushSpot s p x c
        | none => pushWalk p is (raiseDrops (removeSpot s p i) p [(x, .noCreative)])

/-- The push of placement `p` (R49). -/
def pushOn (s : State) (p : Nat) : State :=
  if (placementAt s p).stack.length < 3 then
    pushWalk p (priorityOrder (placementAt s p).lowest) s
  else s

/-- Step 7 for placement `p`. -/
def rotRefill (s : State) (p : Nat) : State :=
  let x := placementAt s p
  if x.fields.bound then
    if (programSource s).isSlot && x.stack.isEmpty then selectOn s p else s
  else pushOn (if hasBottom x.stack then s else selectOn s p) p

/-! ### Handling of FRAME_START (R44) -/

/-- The placements that steps 4 to 7 handle. -/
def activeList (before : State) : List Nat := placementList.filter (rotActive before)

/-- Steps 1 and 2. -/
def rotOpen (s : State) (hand : List Handover) : State := rotCapTest (rotAccrue s hand)

/-- Steps 3 to 5 in a LIVE frame: the state step 4 finds, and the state step 6 finds. DESIGN CHOICE (log
37): at step 5 the SPOT_DROPPED of several placements are raised in placement order, as at step 3. -/
def rotBeforeEnds (s : State) : State × State :=
  let t := rotEmpty s
  let act := activeList s
  (t, act.foldl rotDropSpots (act.foldl rotSuspend t))

/-- The rotation unit's handling of FRAME_START; `returned` says that the program returns to the live
canvas at it. -/
def rotFrame (s : State) (hand : List Handover) (returned : Bool) : State :=
  let t := rotOpen s hand
  match t.report.mode with
  | .pass => rotEmptyAll t
  | .live =>
    let (before, u) := rotBeforeEnds t
    let act := activeList t
    act.foldl rotRefill (act.foldl (rotEnd before returned) u)

/-- Some stack's top entry ends at step 6 by its dwell or its END mark. -/
def rotSomeEnd (s : State) (hand : List Handover) : Bool :=
  let t := rotOpen s hand
  match t.report.mode with
  | .pass => false
  | .live =>
    let (before, u) := rotBeforeEnds t
    (activeList t).any fun p =>
      (topEntry (placementAt u p).stack).any (topEnds (topStayed before p))

/-! ### Captures and CLEAR_EXPOSURE (R36, R37) -/

/-- A capture into sponsor entry `i`: the cap latch clears when the sponsor can no longer be capped at
its accumulator (R36). -/
def sponsorCaptured (s : State) (i : Nat) : State :=
  if sponsorCapping s.path.shadow i && decide (sponsorTarget s.path.shadow i ≠ 0) &&
      decide (sponsorTarget s.path.shadow i ≤ (sponsorAt s i).acc)
  then s
  else modifySponsor s i fun x => { x with capped := false }

/-- CLEAR_EXPOSURE (R37). -/
def clearExposureRequest (s : State) : State × Verdict :=
  ({ s with rot := { s.rot with
      sponsors := s.rot.sponsors.map fun x => { x with acc := 0, capped := false } } },
   verdict .accepted)

/-! ### SPONSOR requests (section 3.9) -/

/-- Where a SPOT's parameters stand, for BAD_PARAM: in the SPONSOR word, or in the period-end spot
block (ch. 12.6). -/
structure SpotOffsets where
  sponsor : Nat
  placement : Nat
  dwell : Nat
  creative : Nat
  deriving DecidableEq, Repr

def spotWordOffsets : SpotOffsets := { sponsor := 1, placement := 2, dwell := 4, creative := 8 }
def periodSpotOffsets : SpotOffsets := { sponsor := 1, placement := 2, dwell := 4, creative := 0 }

/-- SPOT (R51). -/
def spotRequest (s : State) (o : SpotOffsets) (i p dwell c : Nat) : State × Verdict :=
  if 31 < i then (s, badParam i o.sponsor)
  else if 3 < p then (s, badParam p o.placement)
  else if dwell = 0 ∨ 65535 < dwell then (s, badParam dwell o.dwell)
  else if 7 < c ∧ c ≠ 15 then (s, badParam c o.creative)
  else if s.report.mode = .pass then (s, verdict .wrongMode)
  else if (placementAt s p).fields.bound then (s, verdict .notAllowed)
  else if !(placementAt s p).fields.member i then (s, verdict .notMember)
  else if sponsorSuspended s.path.shadow i then (s, verdict .suspended)
  else if inStack (placementAt s p).stack i then (s, verdict .inService)
  else if (placementAt s p).spots.any fun x => x.sponsor == i then (s, verdict .duplicate)
  else
    (modifyPlacement s p fun x =>
      { x with spots := x.spots ++ [{ sponsor := i, creative := c, dwell := dwell }] },
     verdict .accepted)

/-- SET_LOWEST (R52). -/
def setLowestRequest (s : State) (i p : Nat) : State × Verdict :=
  if 31 < i then (s, badParam i 1)
  else if 3 < p then (s, badParam p 2)
  else (modifyPlacement s p fun x => { x with lowest := i }, verdict .accepted)

/-- The stack with the END mark on its top entry. -/
def markTop (stack : List StackEntry) : List StackEntry :=
  match stack with
  | [] => []
  | [e] => [{ e with endMark := true }]
  | e :: e' :: es => e :: markTop (e' :: es)

/-- END (R53). -/
def endRequest (s : State) (p : Nat) : State × Verdict :=
  if 3 < p then (s, badParam p 2)
  else
    match topEntry (placementAt s p).stack with
    | none => (s, verdict .notOnAir)
    | some e =>
      if e.kind = .replay then (s, verdict .notAllowed)
      else if e.endMark then (s, verdict .duplicate)
      else (modifyPlacement s p fun x => { x with stack := markTop x.stack }, verdict .accepted)

/-- Write the suspended flag of sponsor `i` in the shadow, keeping the byte's other bits (R54). -/
def writeSuspended (s : State) (i : Nat) (on : Bool) : State :=
  let b := readByte s.path.shadow (sponsorOffset i)
  { s with path := { s.path with
      shadow := writeByte s.path.shadow (sponsorOffset i)
        (if on then b ||| 1#8 else b &&& 254#8) } }

/-- SUSPEND and RESUME (R54). -/
def suspendRequest (s : State) (i : Nat) (on : Bool) : State × Verdict :=
  if 31 < i then (s, badParam i 1)
  else if sponsorSuspended s.path.shadow i = on then (s, verdict .duplicate)
  else (writeSuspended s i on, verdict .accepted)

/-- The SPONSOR request code of SPOT (ch. 12.4). -/
def spotCode : Nat := 1

/-- The period-end spot: an expiry takes SPOT with the configured fields, under tag 0 (R57). -/
def periodEndSpot (s : State) : State :=
  if periodSpotEnable s.path.shadow then
    let (t, v) := spotRequest s periodSpotOffsets (periodSpotSponsor s.path.shadow)
      (periodSpotPlacement s.path.shadow) (periodSpotDwell s.path.shadow) 15
    recordOutcome t .sponsorWord 0 spotCode v
  else s

end Sys2Proof.Machine
end

