-- ==== Sys2Proof/Machine/Clock.lean ====
section
/-! DEFINITION. The clock unit: ticks, the run condition, expiry and limits, the shot clock, horns, the
timebase, the clock configuration and the CLOCK requests (ch. 4). -/

namespace Sys2Proof.Machine

def setClock (s : State) (f : ClockUnit → ClockUnit) : State := { s with clock := f s.clock }

/-- The largest game clock value (R67, R68). -/
def clockLimit : Nat := 5999999

/-! ### Records, horns (R65, R66, R72) -/

/-- A start or stop record of this moment (R66). -/
def clockRecord (s : State) (cause : ClockCause) : ClockRecord :=
  { house := s.clock.house, frame := s.comp.frame, value := s.clock.value, cause := cause }

/-- The house time `ms` milliseconds from now. -/
def hornEndAt (s : State) (ms : Nat) : HouseTime := s.clock.house + BitVec.ofNat 32 ms

/-- HORN_GAME starts, or starts again, for `ms` (R72). -/
def startHornGame (s : State) (ms : Nat) : State :=
  setClock s fun c => { c with hornGame := some (hornEndAt s ms) }

/-- HORN_SHOT starts, or starts again, for `ms` (R72). -/
def startHornShot (s : State) (ms : Nat) : State :=
  setClock s fun c => { c with hornShot := some (hornEndAt s ms) }

/-- A horn's end is cleared once house time has reached it (R72). -/
def silence (now : HouseTime) (h : Option HouseTime) : Option HouseTime :=
  match h with
  | some t => if reached now t then none else some t
  | none => none

/-! ### The run condition (R64) -/

/-- The transition into RUNNING: the start record and a fresh watch mark (R62, R66). -/
def startClock (s : State) (cause : ClockCause) : State :=
  setClock s fun c =>
    { c with state := .running, watch := some c.house, startRec := clockRecord s cause }

/-- A STOPPED clock whose run condition holds starts; a DOWN clock at 0 becomes EXPIRED (R64). -/
def tryStart (s : State) (cause : ClockCause) : State :=
  if s.clock.state = .stopped ∧ runWanted s = true then
    if s.clock.config.mode = .down ∧ s.clock.value = 0 then
      setClock s fun c => { c with state := .expired }
    else startClock s cause
  else s

/-- The added-time flag that follows from the value and a configuration (R75, R78). -/
def addedFor (cfg : ClockConfig) (value : Nat) : Bool :=
  cfg.mode == .up && decide (cfg.setPoint ≤ value)

/-- The configuration in force and the flag after taking `new` (R68, R78). -/
def adoptConfig (new : ClockConfig) (c : ClockUnit) : ClockUnit :=
  { c with
    config := new, configPending := false,
    added := if new.mode ≠ c.config.mode ∨ new.setPoint ≠ c.config.setPoint
      then addedFor new c.value else c.added,
    state := if new.mode ≠ c.config.mode ∧ new.mode = .up ∧ c.state = .expired
      then .stopped else c.state }

/-- The configuration in force is taken from the shadow; a change of gate override, or of mode to UP
that leaves EXPIRED, re-evaluates the run condition (R78). -/
def takeConfig (s : State) : State :=
  let new := readClockConfig s.path.shadow
  let old := s.clock.config
  let t := setClock s (adoptConfig new)
  if new.gateOverride ≠ old.gateOverride ∨
      (new.mode ≠ old.mode ∧ new.mode = .up ∧ s.clock.state = .expired)
  then tryStart t .soft
  else t

/-- The transition out of RUNNING into `target`: the stop record, CLOCK_STOPPED, a refresh due, a pending
configuration taken (R66). -/
def stopClock (s : State) (target : GameState) (cause : ClockCause) : State :=
  let t := setClock s fun c => { c with state := target, stopRec := clockRecord s cause }
  let t := raise t .clockStopped
    [(0, leBytes 1 cause.code), (1, leBytes 1 s.clock.period), (4, leBytes 4 s.clock.value)]
  let t := refreshDue t .clockStop
  if t.clock.configPending then takeConfig t else t

/-- The run condition is evaluated after one of its parts changed (R64). -/
def reevaluate (s : State) (cause : ClockCause) : State :=
  if s.clock.state = .running then
    if runWanted s then s else stopClock s .stopped cause
  else tryStart s cause

/-! ### Ticks (R67, R68, R70) -/

/-- The game clock value after a tick. -/
def tickValue (c : ClockUnit) : Nat :=
  match c.config.mode with
  | .down => c.value - 1
  | .up => if clockLimit ≤ c.value then c.value else c.value + 1

/-- A tick on this clock ends RUNNING: a DOWN expiry or the UP limit. -/
def tickEnds (c : ClockUnit) : Bool :=
  match c.config.mode with
  | .down => decide (tickValue c = 0)
  | .up => decide (clockLimit ≤ tickValue c)

/-- The shot clock is RUNNING (R69). -/
def shotCounts (c : ClockUnit) : Bool := shotState c == .running

/-- The shot value after a tick (R70). -/
def tickShot (c : ClockUnit) : Nat := if shotCounts c then c.shotValue - 1 else c.shotValue

/-- A tick on this clock is a shot expiry (R70). -/
def tickShotExpires (c : ClockUnit) : Bool := shotCounts c && decide (tickShot c = 0)

/-- A tick on this clock reaches the UP set-point (R68). -/
def tickReachesSetPoint (c : ClockUnit) : Bool :=
  c.config.mode == .up && decide (c.value < clockLimit) &&
  decide (tickValue c = c.config.setPoint)

/-- PERIOD_END (ch. 12.6). -/
def raisePeriodEnd (s : State) (mode : ClockMode) : State :=
  raise s .periodEnd
    [(0, leBytes 1 s.clock.period), (1, leBytes 1 mode.code), (2, leBytes 1 mode.code),
     (4, leBytes 4 s.clock.house.toNat)]

/-- The shot expiry: HORN_SHOT and SHOT_EXPIRED (R70). -/
def shotExpire (s : State) : State :=
  raise (startHornShot s s.clock.config.hornLength) .shotExpired
    [(0, leBytes 1 s.clock.period), (4, leBytes 4 s.clock.value)]

/-- The expiry of a DOWN clock (R67): the horn of the configuration then in force, the stop, PERIOD_END
and the period-end spot. -/
def expireClock (s : State) : State :=
  let t := startHornGame s s.clock.config.hornLength
  periodEndSpot (raisePeriodEnd (stopClock t .expired .expiry) .down)

/-- The UP set-point is reached (R68). -/
def reachSetPoint (s : State) : State :=
  let t := raisePeriodEnd (setClock s fun c => { c with added := true }) .up
  if s.clock.config.upHorn then startHornGame t s.clock.config.hornLength else t

/-- The UP limit: the soft enable goes off, the clock stops with cause LIMIT, CLOCK_LIMIT (R68). -/
def reachLimit (s : State) : State :=
  raise (stopClock (setClock s fun c => { c with soft := false }) .stopped .limit) .clockLimit
    [(1, leBytes 1 s.clock.period), (4, leBytes 4 s.clock.value)]

/-- The two values after a tick. -/
def tickValues (s : State) : State :=
  setClock s fun c => { c with value := tickValue c, shotValue := tickShot c }

/-- One tick of a RUNNING game clock (R67, R68, R70). -/
def tick (s : State) : State :=
  let c := s.clock
  let t := tickValues s
  let t := if tickShotExpires c then shotExpire t else t
  match c.config.mode with
  | .down => if tickEnds c then expireClock t else t
  | .up =>
    let t := if tickReachesSetPoint c then reachSetPoint t else t
    if tickEnds c then reachLimit t else t

/-- Up to `n` ticks at once; the rest are not counted once one ends RUNNING (R62). -/
def creditTicks : Nat → State → State
  | 0, s => s
  | n + 1, s => if tickEnds s.clock then tick s else creditTicks n (tick s)

/-! ### The timebase (R61, R62, R63) -/

def raiseTimebase (s : State) (kind : NoticeKind) : State :=
  raise s kind [(4, leBytes 4 s.clock.value), (8, leBytes 4 s.clock.house.toNat)]

/-- The timebase is lost (R62). -/
def loseTimebase (s : State) : State :=
  let t := creditTicks 3 (setClock s fun c => { c with source := .internal })
  setClock (raiseTimebase t .timebaseLost) fun c => { c with returns := 0 }

/-- House time has reached the watch mark + 3 on a clock RUNNING on EXTERNAL (R62). -/
def watchExpired (c : ClockUnit) : Bool :=
  c.state == .running && c.source == .external &&
  match c.watch with
  | some m => reached c.house (m + 3)
  | none => false

/-- The clock unit's part of an advance of house time (R60): horns, the watch, a tick on INTERNAL. -/
def advanceClock (s : State) : State :=
  let t := setClock s fun c => { c with house := c.house + 1 }
  let t := setClock t fun c =>
    { c with hornGame := silence c.house c.hornGame, hornShot := silence c.house c.hornShot }
  if watchExpired t.clock then loseTimebase t
  else if t.clock.state = .running ∧ t.clock.source = .internal then tick t
  else t

/-- The return count after one more TB_IN edge (R63). -/
def nextReturns (c : ClockUnit) : Nat :=
  if c.returns = 0 ∨ 3 < (c.house - c.lastReturn).toNat then 1 else c.returns + 1

/-- A TB_IN edge on an INTERNAL timebase is counted toward return; the eighth restores EXTERNAL
(R63). -/
def countReturn (s : State) : State :=
  let n := nextReturns s.clock
  let t := setClock s fun c => { c with returns := n, lastReturn := c.house }
  if n = 8 then
    let t := setClock t fun c =>
      { c with source := .external, returns := 0,
               watch := if c.state = .running then some c.house else c.watch }
    raiseTimebase t .timebaseRestored
  else t

/-- A TB_IN rising edge (R61). -/
def timebaseEdge (s : State) : State :=
  match s.clock.source with
  | .external =>
    if s.clock.state = .running then tick (setClock s fun c => { c with watch := some c.house })
    else s
  | .internal => countReturn s

/-! ### Lines (R65, R71) -/

/-- A GATE_RUN edge to the level opposite the one the line has (R65). -/
def gateEdge (s : State) : State :=
  let t := { s with gateRun := !s.gateRun }
  let t := setClock t fun c =>
    { c with gateRec :=
      { house := c.house, frame := s.comp.frame, value := c.value, rising := !s.gateRun } }
  reevaluate t .gate

/-- The shot value becomes the shot reset value (R71). -/
def loadShotReset (s : State) : State :=
  setClock s fun c => { c with shotValue := c.config.shotReset }

/-! ### Captures (R78) -/

/-- A capture into the clock configuration area (R78). -/
def clockConfigCaptured (s : State) : State :=
  if s.clock.state = .running then setClock s fun c => { c with configPending := true }
  else takeConfig s

/-! ### CLOCK requests (section 4.6) -/

/-- RUN_ENABLE and RUN_DISABLE (R73). -/
def softRequest (s : State) (on : Bool) : State × Verdict :=
  if s.clock.soft = on then (s, verdict .duplicate)
  else (reevaluate (setClock s fun c => { c with soft := on }) .soft, verdict .accepted)

/-- SET (R74). -/
def setRequest (s : State) (v : Nat) : State × Verdict :=
  if s.clock.state = .running then (s, verdict .running)
  else if v = 0 ∨ clockLimit < v then (s, badParam v 1)
  else
    (tryStart (setClock s fun c => { c with value := v, state := .stopped, added := false }) .soft,
     verdict .accepted)

/-- The value an ADJUST gives, clamped (R75). -/
def adjustedValue (old : Nat) (delta : Int) : Nat :=
  (clampInt 0 (clockLimit : Int) ((old : Int) + delta)).toNat

/-- The clamp changed an ADJUST's result (R75). -/
def adjustClamps (old : Nat) (delta : Int) : Bool :=
  decide ((old : Int) + delta < 0) || decide ((clockLimit : Int) < (old : Int) + delta)

/-- The state after an ADJUST has placed its value (R75). -/
def adjustState (s : State) : State :=
  match s.clock.config.mode with
  | .up => setClock s fun c => { c with added := addedFor c.config c.value }
  | .down =>
    if s.clock.value = 0 then
      if s.clock.state = .running then stopClock s .expired .adjust
      else setClock s fun c => { c with state := .expired }
    else if s.clock.state = .expired then
      tryStart (setClock s fun c => { c with state := .stopped }) .soft
    else s

/-- ADJUST (R75). -/
def adjustRequest (s : State) (delta : Int) : State × Verdict :=
  (adjustState (setClock s fun c => { c with value := adjustedValue c.value delta }),
   verdict (if adjustClamps s.clock.value delta then .clamped else .accepted))

/-- A RUNNING clock stops with cause SOFT, its soft enable going off (R76 step 1, R80 step 1). -/
def stopForGame (s : State) : State :=
  if s.clock.state = .running then
    stopClock (setClock s fun c => { c with soft := false }) .stopped .soft
  else s

/-- The value a period starts with (R76, R80). -/
def periodStart (cfg : ClockConfig) : Nat :=
  match cfg.mode with
  | .down => cfg.startValue
  | .up => 0

/-- PERIOD_NEXT (R76). -/
def periodNextRequest (s : State) : State × Verdict :=
  let t := stopForGame s
  (setClock t fun c =>
    { c with period := min 9 (c.period + 1), value := periodStart c.config, state := .stopped,
             soft := false, added := false, shotValue := c.config.shotReset },
   verdict (if 9 ≤ s.clock.period then .clamped else .accepted))

/-- SHOT_RESET (R71). -/
def shotResetRequest (s : State) : State × Verdict := (loadShotReset s, verdict .accepted)

/-- SHOT_SET (R77). -/
def shotSetRequest (s : State) (v : Nat) : State × Verdict :=
  if 99999 < v then (s, badParam v 1)
  else (setClock s fun c => { c with shotValue := v }, verdict .accepted)

/-- SHOT_ENABLE and SHOT_DISABLE (R77). -/
def shotSwitchRequest (s : State) (on : Bool) : State × Verdict :=
  if s.clock.shotOn = on then (s, verdict .duplicate)
  else (setClock s fun c => { c with shotOn := on }, verdict .accepted)

/-- HORN (R72). -/
def hornRequest (s : State) (ms : Nat) : State × Verdict :=
  if ms < 100 ∨ 5000 < ms then (s, badParam ms 1)
  else (startHornGame s ms, verdict .accepted)

/-- CLEAR_GAME, clock side (R80). -/
def clearClock (s : State) : State :=
  setClock (stopForGame s) fun c =>
    { c with value := periodStart c.config, period := 1, state := .stopped, soft := false,
             added := false, shotValue := c.config.shotReset, shotOn := c.config.shotAtClear,
             hornGame := none, hornShot := none }

end Sys2Proof.Machine
end

