-- ==== Sys2Proof/Machine/Score.lean ====
section
/-! DEFINITION. The score unit: score rises, the flash, the rendering of the bug's fields and the
display formats of the clocks (ch. 5). -/

namespace Sys2Proof.Machine

/-! ### Score events (R83, R85, R87) -/

/-- A score rise asks for a flash in LIVE with the flash enabled (R85). -/
def askFlash (s : State) (t : Team) : State :=
  if s.report.mode = .live ∧ flashEnable s.path.shadow = true then
    { s with score := { s.score with flashAsk := some t } }
  else s

/-- A score rise sends a cut in LIVE with cut-on-score on while a replay is entered, on air or left
(R87). -/
def sendCut (s : State) : State :=
  if s.report.mode = .live ∧ cutOnScore s.path.shadow = true ∧ s.replay.playback ≠ .live then
    { s with replay := { s.replay with cutPending := true } }
  else s

/-- A score rise (R83). -/
def scoreRise (s : State) (t : Team) (old new : Nat) : State :=
  sendCut (askFlash
    (raise s .scoreChange [(0, leBytes 1 t.code), (2, leBytes 2 old), (4, leBytes 2 new)]) t)

/-- A capture into a team record, whose score stood at `old` before it, is judged (R83). -/
def teamCaptured (s : State) (t : Team) (old : Nat) : State :=
  if old < teamScore s.path.shadow t then scoreRise s t old (teamScore s.path.shadow t) else s

/-! ### Display formats (R92, R94, R95) -/

/-- A number in decimal without leading zeros, as glyph codes: digit d is code d + 1 (R89, R92). -/
def decimalFrom : Nat → Nat → List Nat
  | 0, _ => []
  | fuel + 1, n => if n < 10 then [n + 1] else decimalFrom fuel (n / 10) ++ [n % 10 + 1]

/-- A number in decimal: more steps than it has digits. -/
def decimal (n : Nat) : List Nat := decimalFrom (n + 1) n

/-- Exactly two digits. -/
def twoDigits (n : Nat) : List Nat := [n / 10 % 10 + 1, n % 10 + 1]

def colonCode : Nat := 11
def periodCode : Nat := 12

/-- Minutes, a colon, two digits of seconds. -/
def minutesText (sec : Nat) : List Nat := decimal (sec / 60) ++ [colonCode] ++ twoDigits (sec % 60)

/-- Seconds, a period, one digit of tenths. -/
def tenthsText (v : Nat) : List Nat := decimal (v / 1000) ++ [periodCode, v % 1000 / 100 + 1]

/-- The clock format (R94). -/
def clockText (mode : ClockMode) (v : Nat) : List Nat :=
  match mode with
  | .down => if 60000 ≤ v then minutesText ((v + 999) / 1000) else tenthsText v
  | .up => minutesText (v / 1000)

/-- The shot format (R95). -/
def shotText (v : Nat) : List Nat :=
  if 5000 ≤ v then decimal ((v + 999) / 1000) else tenthsText v

/-! ### Rendering (R92, R93) -/

/-- The SHOT field is blank: the shot clock OFF, or in DOWN above the game clock (R93). -/
def shotBlank (s : State) : Bool :=
  (shotState s.clock == .off) ||
  (s.clock.config.mode == .down && decide (s.clock.value < s.clock.shotValue))

/-- The text of a bug field before it is cut (R91, R93). -/
def fieldText (s : State) : FieldSource → List Nat
  | .none => []
  | .score t => decimal (teamScore s.path.shadow t)
  | .abbr t => teamAbbr s.path.shadow t
  | .timeouts t => decimal (teamTimeouts s.path.shadow t)
  | .fouls t => decimal (teamFouls s.path.shadow t)
  | .period => decimal s.clock.period
  | .clock => clockText s.clock.config.mode s.clock.value
  | .shot => if shotBlank s then [] else shotText s.clock.shotValue
  | .replayClock =>
    match programSource s with
    | .slot k => clockText (slotAt s k).stampMode (slotAt s k).stampValue
    | .liveCanvas => []

/-- The text cut to its cells: an abbreviation keeps its leftmost glyphs, all else its rightmost
(R92). -/
def cutText (src : FieldSource) (cells : Nat) (codes : List Nat) : List Nat :=
  match src with
  | .abbr _ => codes.take cells
  | _ => codes.drop (codes.length - cells)

/-- Bug field `f` rendered (R92). -/
def renderField (s : State) (f : Nat) : RenderedField :=
  let m := s.path.shadow
  { codes := cutText (fieldSource m f) (fieldCells m f) (fieldText s (fieldSource m f)),
    x := fieldX m f, y := fieldY m f, cells := fieldCells m f, right := fieldRight m f }

/-- Step 4: the bug fields are rendered (R86, R92). -/
def renderFields (s : State) : State :=
  { s with score := { s.score with fields := (List.range 12).map (renderField s) } }

/-! ### Handling of FRAME_START (R86) -/

/-- Step 2: the countdown. -/
def flashCountdown : Option Flash → Option Flash
  | none => none
  | some f => if f.remaining ≤ 1 then none else some { f with remaining := f.remaining - 1 }

/-- Step 3: a pending start. -/
def flashStart (m : Memory) (ask : Option Team) (flash : Option Flash) : Option Flash :=
  match ask with
  | some t => some { team := t, creative := flashCreative m t, remaining := flashFrames m }
  | none => flash

/-- Steps 1 to 3. -/
def flashFrame (s : State) : State :=
  match s.report.mode with
  | .pass => { s with score := { s.score with flash := none, flashAsk := none } }
  | .live =>
    { s with score := { s.score with
        flash := flashStart s.path.shadow s.score.flashAsk (flashCountdown s.score.flash),
        flashAsk := none } }

/-- The score unit's handling of FRAME_START. -/
def scoreFrame (s : State) : State := renderFields (flashFrame s)

/-! ### CLEAR_GAME, score side (R88) -/

/-- The bytes CLEAR_GAME writes into a team record of the shadow. -/
def clearTeamBytes (t : Team) (timeouts : Nat) : List (Nat × Byte) :=
  [(teamOffset t, 0), (teamOffset t + 1, 0), (teamOffset t + 2, 0),
   (teamOffset t + 3, BitVec.ofNat 8 timeouts)]

def clearScore (s : State) : State :=
  { s with
    path := { s.path with
      shadow := writeAll s.path.shadow
        (clearTeamBytes .home s.clock.config.timeouts ++
         clearTeamBytes .away s.clock.config.timeouts) },
    score := { s.score with flash := none, flashAsk := none } }

/-- CLEAR_GAME (R80, R88, R182). DESIGN CHOICE (log 32): the clock side first, so that the timeouts come
from a configuration that the stop of a RUNNING clock has just taken. -/
def clearGameRequest (s : State) : State × Verdict := (clearScore (clearClock s), verdict .accepted)

end Sys2Proof.Machine
end

