-- ==== Sys2Proof/Machine/Replay.lean ====
section
/-! DEFINITION. The replay unit: filling slots, clips, playback at FRAME_START, the REPLAY requests
(ch. 6 and 7). -/

namespace Sys2Proof.Machine

def setReplay (s : State) (f : ReplayUnit → ReplayUnit) : State := { s with replay := f s.replay }

def modifySlot (s : State) (k : Nat) (f : Slot → Slot) : State :=
  setReplay s fun r => { r with slots := r.slots.modify k f }

def modifyClip (s : State) (c : Nat) (f : Clip → Clip) : State :=
  setReplay s fun r => { r with clips := r.clips.modify c f }

/-! ### The ring (R101 to R108) -/

/-- The causes of INGEST_ABANDONED (ch. 12.6). -/
inductive AbandonCause where
  | firstBytes
  | writeError
  | sequenceLimit
  deriving DecidableEq, Repr

def AbandonCause.code : AbandonCause → Nat
  | .firstBytes => 0
  | .writeError => 1
  | .sequenceLimit => 2

/-- Where the search for a fill slot starts: after the newest slot, or at slot 0 (R102). -/
def searchStart (s : State) : Nat :=
  match newestSlot s with
  | some k => k + 1
  | none => 0

/-- The slots in the order of the search (R102). -/
def searchOrder (s : State) : List Nat :=
  (List.range s.replay.slots.length).map fun i => (searchStart s + i) % s.replay.slots.length

/-- The slot the next frame opens into: the first one that is not held (R102, R110). -/
def nextFill (s : State) : Option Nat := (searchOrder s).find? fun k => !slotHeld s k

/-- A frame opens into slot `k` (R102). -/
def openInto (s : State) (k : Nat) : State :=
  setReplay (modifySlot s k fun _ => { Slot.emptied with state := .filling })
    fun r => { r with fill := some k }

/-- The fill slot `k` becomes EMPTY and no slot is FILLING; its write error is kept until its next
open (R101, R106). -/
def emptyFill (s : State) (k : Nat) : State :=
  setReplay (modifySlot s k fun x => { Slot.emptied with writeError := x.writeError })
    fun r => { r with fill := none }

/-- The open frame of slot `k` is abandoned with notice (R104, R105, R106). -/
def abandonFrame (s : State) (k : Nat) (cause : AbandonCause) : State :=
  raise (emptyFill s k) .ingestAbandoned [(0, leBytes 1 cause.code), (2, leBytes 2 k)]

/-- The capture sequence at which a commit abandons (R104). -/
def sequenceLimit : Nat := 4294967295

/-- The frame of slot `k` becomes FILLED with the next sequence (R103 step 3). -/
def fillSlot (s : State) (k : Nat) : State :=
  setReplay
    (modifySlot s k fun x =>
      { x with state := .filled, seq := s.replay.captureSeq, commitFrame := s.comp.frame,
               stampValue := s.clock.value, stampMode := s.clock.config.mode,
               stampPeriod := s.clock.period })
    fun r => { r with fill := none, captureSeq := r.captureSeq + 1 }

/-- The commit of the frame of slot `k` (R103). -/
def commitFrame (s : State) (k : Nat) : State :=
  if (slotAt s k).writeError then abandonFrame s k .writeError
  else if s.replay.captureSeq = sequenceLimit then abandonFrame s k .sequenceLimit
  else fillSlot s k

/-- The fill slot of an ingest write and the state after any open or reopen it makes; none when every
slot is held (R102, R103, R105). -/
def openFor (s : State) (touchesFirst : Bool) : Option (Nat × State) :=
  match s.replay.fill with
  | none => (nextFill s).map fun k => (k, openInto s k)
  | some k =>
    if touchesFirst then some (k, openInto (abandonFrame s k .firstBytes) k) else some (k, s)

/-- Every slot EMPTY, every clip EMPTY, the capture sequence 1 (R108, R116). -/
def emptyRing (s : State) : State :=
  setReplay s fun r =>
    { r with slots := List.replicate s.path.geom.slotCount .emptied, fill := none, captureSeq := 1,
             clips := List.replicate 16 .emptied }

/-- An error response to a write the part issued into slot `k` (R106). -/
def markWriteError (s : State) (k : Nat) : State :=
  modifySlot s k fun x => { x with writeError := true }

/-! ### Return to live (R124, R133) -/

/-- The clip after its replay: ARMED, or EMPTY under auto-disarm (R124). -/
def Clip.released (c : Clip) : Clip := if c.autoDisarm then .emptied else { c with state := .armed }

/-- Steps 1 and 2 of R124. -/
def returnLive (s : State) : State :=
  let t := match s.replay.clip with
    | some c => modifyClip s c Clip.released
    | none => s
  setReplay t fun r =>
    { r with playback := .live, clip := none, position := 0, counter := 0, bumper := none,
             lastShown := 0 }

/-- The return actions (R124). -/
def endReplay (s : State) (cause : EndCause) : State :=
  raise (returnLive s) .replayEnded
    [(0, leBytes 1 (s.replay.clip.getD 0)), (1, leBytes 1 cause.code),
     (4, leBytes 4 s.replay.lastShown)]

/-! ### Going to air (R121, R125, R128) -/

/-- ON_AIR at the in-point of clip `c`. -/
def putOnAir (s : State) (c : Nat) : State :=
  setReplay s fun r =>
    { r with playback := .onAir, clip := some c, position := (clipAt s c).inPoint, counter := 0,
             bumper := none }

/-- REPLAY_STARTED for clip `c` (R125). -/
def raiseStarted (s : State) (c : Nat) : State :=
  raise s .replayStarted
    [(0, leBytes 1 c), (2, leBytes 2 ((slotOf s (clipAt s c).inPoint).getD 0)),
     (4, leBytes 4 (clipAt s c).inPoint), (8, leBytes 4 (clipAt s c).outPoint)]

/-- The replay of clip `c` begins from the live canvas (R125). -/
def startReplay (s : State) (c : Nat) : State := raiseStarted (putOnAir s c) c

/-- ENTERING clip `c` under its bumper of `b` frames (R128). DESIGN CHOICE (log 33): the position stands
at 0 until the clip goes to air. -/
def enterClip (s : State) (c b : Nat) : State :=
  setReplay s fun r =>
    { r with playback := .entering, clip := some c, position := 0, counter := 0,
             bumper := some (0, b) }

/-- LEAVING over the slot of the current position (R122, R131). DESIGN CHOICE (log 38): the repeat counter
stays as it stood, and the status page shows it so, until the return to the live canvas. -/
def leaveReplay (s : State) (b : Nat) (cause : EndCause) : State :=
  setReplay s fun r =>
    { r with playback := .leaving, bumper := some (0, b), leaveCause := cause }

/-! ### Carrying out at FRAME_START (R120 to R123, R128, R131 to R133) -/

/-- The clip on air, or its absence. -/
def playingClip (s : State) : Clip := clipAt s (s.replay.clip.getD 16)

/-- The end action (R122). -/
def endAction (s : State) : State :=
  let c := playingClip s
  match c.endAction with
  | .holdLast => setReplay s fun r => { r with playback := .frozen, counter := 0 }
  | .returnLive =>
    if 0 < c.bumperFrames then leaveReplay s c.bumperFrames .ended else endReplay s .ended

/-- The current position has had its frames at this FRAME_START (R122). -/
def positionDone (s : State) : Bool := decide ((playingClip s).rate ≤ s.replay.counter + 1)

/-- The bumper's frames are done at this FRAME_START (R121, R123). -/
def bumperDone (s : State) : Bool :=
  match s.replay.bumper with
  | some (i, b) => decide (b ≤ i + 1)
  | none => true

/-- The bumper index rises by one. -/
def nextBumper (s : State) : State :=
  setReplay s fun r => { r with bumper := r.bumper.map fun x => (x.1 + 1, x.2) }

/-- The advance of the state found (R120 step 4). -/
def advanceReplay (s : State) : State :=
  match s.replay.playback with
  | .live => s
  | .frozen => s
  | .entering => if bumperDone s then startReplay s (s.replay.clip.getD 16) else nextBumper s
  | .leaving => if bumperDone s then endReplay s s.replay.leaveCause else nextBumper s
  | .onAir =>
    if !positionDone s then setReplay s fun r => { r with counter := r.counter + 1 }
    else if s.replay.position < (playingClip s).outPoint then
      setReplay s fun r => { r with position := r.position + 1, counter := 0 }
    else endAction s

/-- The REPLAY request code of PLAY (ch. 12.4). -/
def playCode : Nat := 4

/-- The waiting request is dropped; its outcome changes where its mark stands (R183). -/
def supersedeWaiting (s : State) : State :=
  match s.replay.waiting with
  | none => s
  | some _ => setReplay (dropMarked s .replayWord .superseded) fun r => { r with waiting := none }

/-- The waiting request is over and its outcome stands (R183). -/
def fulfilWaiting (s : State) : State :=
  setReplay (clearMarks s .replayWord) fun r => { r with waiting := none }

/-- A waiting PLAY whose clip is no longer ARMED is dropped (R128). -/
def refusePlay (s : State) : State :=
  let t := setReplay (dropMarked s .replayWord .notArmed) fun r => { r with waiting := none }
  match markedTag s .replayWord with
  | some tag =>
    raise t .requestRefused
      [(0, leBytes 1 ReqWord.replayWord.code), (1, [tag]), (2, leBytes 1 playCode),
       (3, leBytes 1 ReqOutcome.notArmed.code)]
  | none => t

/-- A clip that was PLAYING becomes ARMED, whatever its auto-disarm flag (R128 step 1). -/
def Clip.stopped (c : Clip) : Clip := if c.state = .playing then { c with state := .armed } else c

/-- Clip `c` becomes PLAYING, a clip that was PLAYING becomes ARMED (R128 step 1). -/
def swapPlaying (s : State) (c : Nat) : State :=
  modifyClip (setReplay s fun r => { r with clips := r.clips.map Clip.stopped }) c
    fun x => { x with state := .playing }

/-- Step 2 of R128. -/
def cutToClip (s : State) (found : Playback) (c : Nat) : State :=
  let b := (clipAt s c).bumperFrames
  match found with
  | .live | .entering => if 0 < b then enterClip s c b else startReplay s c
  | .onAir | .frozen | .leaving => putOnAir s c

/-- A waiting PLAY(c) is carried out (R128). -/
def carryPlay (s : State) (c : Nat) : State :=
  if (clipAt s c).state = .armed then cutToClip (swapPlaying (fulfilWaiting s) c) s.replay.playback c
  else refusePlay s

/-- A waiting TAKE_LIVE is carried out (R131). -/
def carryTakeLive (s : State) : State :=
  let t := fulfilWaiting s
  match s.replay.playback with
  | .onAir | .frozen =>
    if 0 < (playingClip s).bumperFrames then leaveReplay t (playingClip s).bumperFrames .takeLive
    else endReplay t .takeLive
  | .entering => endReplay t .takeLive
  | .live => t
  | .leaving => t

/-- A waiting PLAY is superseded, a waiting TAKE_LIVE is fulfilled (R132, R133). -/
def dropWaiting (s : State) : State :=
  match s.replay.waiting with
  | some (.play _) => supersedeWaiting s
  | some .takeLive => fulfilWaiting s
  | none => s

/-- A pending cut is carried out (R132). -/
def carryCut (s : State) : State :=
  let t := setReplay s fun r => { r with cutPending := false }
  match s.replay.playback with
  | .live => t
  | _ => dropWaiting (endReplay t .cut)

/-- The FILLING slot is abandoned without notice (R107). -/
def abandonFilling (s : State) : State :=
  match s.replay.fill with
  | some k => emptyFill s k
  | none => s

/-- The handling in a PASS frame (R107, R133). -/
def replayPass (s : State) : State :=
  let t := dropWaiting (setReplay s fun r => { r with cutPending := false })
  abandonFilling (match t.replay.playback with
    | .live => t
    | _ => returnLive t)

/-- The last shown sequence of a frame whose program is a slot (R122). -/
def markShown (s : State) : State :=
  if (programSource s).isSlot then setReplay s fun r => { r with lastShown := r.position } else s

/-- Steps 2 to 4 of R120. -/
def replayLive (s : State) : State :=
  if s.replay.cutPending then carryCut s
  else
    match s.replay.waiting with
    | some (.play c) => carryPlay s c
    | some .takeLive => carryTakeLive s
    | none => advanceReplay s

/-- The replay unit's handling of FRAME_START (R120). -/
def replayFrame (s : State) : State :=
  markShown (match s.report.mode with
    | .pass => replayPass s
    | .live => replayLive s)

/-- This FRAME_START advances the playback state in LIVE mode (R120 step 4). -/
def replayAdvances (s : State) : Bool :=
  s.report.mode == .live && !s.replay.cutPending && s.replay.waiting.isNone

/-! ### Requests on the ring (R113 to R116) -/

/-- An ARM's parameters (ch. 12.4). -/
structure ArmParams where
  clip : Nat
  rate : Nat
  flags : Nat
  inPoint : Nat
  outPoint : Nat
  bumperFrames : Nat
  bumperIndex : Nat
  deriving DecidableEq, Repr

/-- The end-action bits. -/
def ArmParams.endBits (a : ArmParams) : Nat := a.flags % 4

/-- The first parameter out of range, with its byte offset (R113). -/
def armBadParam (a : ArmParams) : Option Verdict :=
  if 15 < a.clip then some (badParam a.clip 1)
  else if a.inPoint = 0 then some (badParam a.inPoint 4)
  else if a.outPoint = 0 then some (badParam a.outPoint 8)
  else if a.rate = 0 ∨ 8 < a.rate then some (badParam a.rate 2)
  else if 1 < a.endBits then some (badParam a.endBits 3)
  else if 120 < a.bumperFrames then some (badParam a.bumperFrames 12)
  else if 3 < a.bumperIndex then some (badParam a.bumperIndex 13)
  else none

/-- The in-point after the clamp to the run start of out (R113). -/
def armIn (s : State) (a : ArmParams) : Nat := max a.inPoint (runStart s a.outPoint)

/-- The clip an ARM makes (R114). -/
def armedClip (s : State) (a : ArmParams) : Clip :=
  { state := .armed, inPoint := armIn s a, outPoint := a.outPoint, rate := a.rate,
    endAction := if a.endBits = 1 then .returnLive else .holdLast,
    bumperFrames := a.bumperFrames,
    bumper := if a.bumperFrames = 0 then none
      else some (bumperDescriptor s.path.shadow a.bumperIndex),
    autoDisarm := a.flags.testBit 7 }

/-- How many slots these clips leave unheld (R113). -/
def unheldCount (s : State) (clips : List Clip) : Nat :=
  (s.replay.slots.filter fun x => !heldBy clips x).length

/-- ARM (R113, R114). -/
def armRequest (s : State) (a : ArmParams) : State × Verdict :=
  match armBadParam a with
  | some v => (s, v)
  | none =>
    let t := modifyClip s a.clip fun _ => armedClip s a
    if (clipAt s a.clip).state = .playing then (s, verdict .inUse)
    else if a.outPoint < a.inPoint then (s, verdict .badRange)
    else if a.outPoint ≤ newestSeq s ∧ present s a.outPoint = false then (s, verdict .gone)
    else if newestSeq s < a.outPoint then (s, verdict .notYet)
    else if unheldCount s t.replay.clips < 3 then (s, verdict .noRoom)
    else (t, verdict (if a.inPoint < runStart s a.outPoint then .clamped else .accepted))

/-- DISARM (R115). -/
def disarmRequest (s : State) (c : Nat) : State × Verdict :=
  if 15 < c then (s, badParam c 1)
  else
    match (clipAt s c).state with
    | .playing => (s, verdict .inUse)
    | .empty => (s, verdict .duplicate)
    | .armed => (modifyClip s c fun _ => .emptied, verdict .accepted)

/-- RESET_RING (R116). -/
def resetRingRequest (s : State) : State × Verdict :=
  if s.replay.clips.any fun c => c.state == .playing then (s, verdict .inUse)
  else (emptyRing s, verdict .accepted)

/-! ### Playback requests (R126 to R131) -/

/-- `w` becomes the waiting request; an earlier one is superseded (R126). -/
def waitFor (s : State) (w : Waiting) : State × Verdict :=
  (setReplay (supersedeWaiting s) fun r => { r with waiting := some w }, acceptedWaiting)

/-- PLAY (R127). -/
def playRequest (s : State) (c : Nat) : State × Verdict :=
  if 15 < c then (s, badParam c 1)
  else if s.report.mode = .pass then (s, verdict .wrongMode)
  else if (clipAt s c).state ≠ .armed then (s, verdict .notArmed)
  else if s.replay.waiting = some (.play c) then (s, verdict .duplicate)
  else waitFor s (.play c)

/-- FREEZE (R129). -/
def freezeRequest (s : State) : State × Verdict :=
  match s.replay.playback with
  | .onAir => (setReplay s fun r => { r with playback := .frozen, counter := 0 }, verdict .accepted)
  | .frozen => (s, verdict .duplicate)
  | .live | .entering | .leaving => (s, verdict .notOnAir)

/-- RESUME on the REPLAY word (R129). -/
def replayResumeRequest (s : State) : State × Verdict :=
  match s.replay.playback with
  | .frozen =>
    (setReplay s fun r => { r with playback := .onAir, counter := (playingClip s).rate - 1 },
     verdict .accepted)
  | .onAir => (s, verdict .duplicate)
  | .live | .entering | .leaving => (s, verdict .notOnAir)

/-- STEP (R130); the direction byte is 01h for +1, FFh for −1 (ch. 12.4). -/
def stepRequest (s : State) (d : Nat) : State × Verdict :=
  if d ≠ 1 ∧ d ≠ 255 then (s, badParam d 1)
  else
    match s.replay.playback with
    | .live | .entering | .leaving => (s, verdict .notOnAir)
    | .onAir => (s, verdict .running)
    | .frozen =>
      if d = 1 then
        if (playingClip s).outPoint ≤ s.replay.position then (s, verdict .clamped)
        else (setReplay s fun r => { r with position := r.position + 1 }, verdict .accepted)
      else if s.replay.position ≤ (playingClip s).inPoint then (s, verdict .clamped)
      else (setReplay s fun r => { r with position := r.position - 1 }, verdict .accepted)

/-- TAKE_LIVE (R131). -/
def takeLiveRequest (s : State) : State × Verdict :=
  if s.replay.waiting = some .takeLive then (s, verdict .duplicate)
  else
    match s.replay.playback with
    | .leaving => (s, verdict .duplicate)
    | .live => if s.replay.waiting.isSome then waitFor s .takeLive else (s, verdict .notOnAir)
    | .entering | .onAir | .frozen => waitFor s .takeLive

end Sys2Proof.Machine
end

