-- ==== Sys2Proof/Machine/Message.lean ====
section
/-! DEFINITION. The message unit: tail captures, the overrun and fetch start tests, validation, the
crowd queue, MSGHOLD, expiry, withdrawal, PURGE (ch. 8). -/

namespace Sys2Proof.Machine

def setMsg (s : State) (f : MessageUnit → MessageUnit) : State := { s with msg := f s.msg }

/-! ### Tests (R136, R137, R145) -/

/-- The overrun test (R136). -/
def overrunTest (s : State) : State :=
  if 64 < outstanding s then
    raise (setMsg s fun m => { m with head := m.tail - 64 }) .intakeOverrun
      [(0, leBytes 2 (outstanding s - 64)), (2, leBytes 2 (s.msg.tail - 64).toNat),
       (4, leBytes 2 s.msg.tail.toNat)]
  else s

/-- The address of record number `r` (R135). -/
def recordAddr (s : State) (r : BitVec 16) : Nat := tableBase s + 0x8000 + r.toNat % 64 * 256

/-- The fetch of record number `r`: one burst of 16 beats (R137, R168). -/
def recordFetch (s : State) (r : BitVec 16) : ReadReq :=
  { id := ownId, addr := recordAddr s r, burst := .incr, size := 4, beats := 16 }

/-- The conditions of the fetch start test (R137). -/
def canFetch (s : State) : Bool :=
  s.msg.fetch.isNone && decide (0 < outstanding s) && decide (s.msg.queue.length < 32)

/-- The fetch start test (R137). -/
def fetchStart (s : State) : State :=
  if canFetch s then
    issue (setMsg s fun m => { m with fetch := some m.head }) (.burst (.read (recordFetch s s.msg.head)))
  else s

/-- The MSGHOLD assertion test after a queuing (R145). -/
def assertTest (s : State) : State :=
  if highMark s.path.shadow ≤ s.msg.queue.length then setMsg s fun m => { m with hold := true } else s

/-- The MSGHOLD release test after a departure (R145). -/
def releaseTest (s : State) : State :=
  if s.msg.queue.length ≤ lowMark s.path.shadow then setMsg s fun m => { m with hold := false } else s

/-- What a departure from the queue brings (R137, R145). -/
def departed (s : State) : State := fetchStart (releaseTest s)

/-- A tail capture (R135). -/
def tailCaptured (s : State) : State :=
  let t := setMsg s fun m => { m with tail := BitVec.ofNat 16 (readLE s.path.shadow 0x1070 2) }
  if s.msg.fetch.isSome then t else fetchStart (overrunTest t)

/-! ### Records (R139, R140) -/

/-- The causes of INTAKE_BAD (ch. 12.6). -/
inductive BadCause where
  | fetchError
  | badKind
  | badId
  | badClass
  | badLength
  | duplicate
  deriving DecidableEq, Repr

def BadCause.code : BadCause → Nat
  | .fetchError => 0
  | .badKind => 1
  | .badId => 2
  | .badClass => 3
  | .badLength => 4
  | .duplicate => 5

/-- What a fetched record asks. -/
inductive Record where
  | bad (cause : BadCause) (id : BitVec 32)
  | message (m : Message)
  | withdraw (id : BitVec 32)
  deriving DecidableEq, Repr

/-- The byte of a fetched record. -/
def recordByte (data : List Byte) (i : Nat) : Nat := (data.getD i 0).toNat

/-- The id of a fetched record (ch. 12.5). -/
def recordId (data : List Byte) : BitVec 32 := BitVec.ofNat 32 (leNat ((data.drop 4).take 4))

/-- The class of a fetched record (ch. 12.5). -/
def recordClass (data : List Byte) : Option MsgClass :=
  match recordByte data 1 with
  | 1 => some .general
  | 2 => some .greeting
  | 3 => some .announce
  | _ => none

/-- The wait limit in seconds (R139). -/
def recordWait (data : List Byte) : Nat := clampNat 1 600 (leNat ((data.drop 2).take 2))

/-- The text: the first glyph-count bytes, each its low 7 bits (R139). -/
def recordText (data : List Byte) : List Nat :=
  ((data.drop 16).take (recordByte data 8)).map fun b => b.toNat % 128

/-- The message a record queues now (R142). -/
def recordMessage (s : State) (cls : MsgClass) (data : List Byte) : Message :=
  { id := recordId data, cls := cls, text := recordText data, queued := s.clock.house,
    deadline := s.clock.house + BitVec.ofNat 32 (recordWait data * 1000) }

/-- The checks of a MESSAGE of class `cls` (R140). -/
def judgeMessage (s : State) (cls : MsgClass) (data : List Byte) : Record :=
  if recordByte data 8 = 0 ∨ 120 < recordByte data 8 then .bad .badLength (recordId data)
  else if inQueue s (recordId data) || onBand s (recordId data) then .bad .duplicate (recordId data)
  else .message (recordMessage s cls data)

/-- The checks of a fetched record, in their order (R140). -/
def judgeRecord (s : State) (data : List Byte) : Record :=
  if recordByte data 0 ≠ 1 ∧ recordByte data 0 ≠ 2 then .bad .badKind (recordId data)
  else if recordId data = 0 then .bad .badId 0
  else if recordByte data 0 = 2 then .withdraw (recordId data)
  else
    match recordClass data with
    | none => .bad .badClass (recordId data)
    | some cls => judgeMessage s cls data

/-! ### The queue (R142, R146, R147) -/

/-- The messages of a queue behind its last ANNOUNCE. -/
def behindAnnounces (q : List Message) : List Message :=
  (q.reverse.takeWhile fun x => x.cls != .announce).reverse

/-- The queue with a message in its place: an ANNOUNCE behind the last ANNOUNCE, another at the tail
(R142). -/
def insertMessage (q : List Message) (m : Message) : List Message :=
  match m.cls with
  | .announce => q.take (q.length - (behindAnnounces q).length) ++ m :: behindAnnounces q
  | .general => q ++ [m]
  | .greeting => q ++ [m]

/-- A queuing (R142). -/
def queueMessage (s : State) (x : Message) : State :=
  assertTest (setMsg s fun m => { m with queue := insertMessage m.queue x })

/-- The queue without the message of this id. -/
def removeQueued (s : State) (id : BitVec 32) : State :=
  setMsg s fun m => { m with queue := m.queue.filter fun x => x.id != id }

/-- An id is handed to the ticker unit, once (R147, R152). DESIGN CHOICE (log 39): the list keeps the order of
hand-over. -/
def handWithdrawal (s : State) (id : BitVec 32) : State :=
  if s.ticker.withdrawals.contains id then s
  else { s with ticker := { s.ticker with withdrawals := s.ticker.withdrawals ++ [id] } }

/-- A valid WITHDRAW (R147). DESIGN CHOICE (log 12): its fetch start test is the completion's step 4. -/
def withdraw (s : State) (id : BitVec 32) : State :=
  if inQueue s id then releaseTest (removeQueued s id)
  else if onBand s id then handWithdrawal s id
  else raise s .withdrawLate [(4, leBytes 4 id.toNat)]

/-- INTAKE_BAD (R140). -/
def raiseBad (s : State) (cause : BadCause) (r : BitVec 16) (id : BitVec 32) : State :=
  raise s .intakeBad [(0, leBytes 1 cause.code), (2, leBytes 2 r.toNat), (4, leBytes 4 id.toNat)]

/-- Step 2 of the completion of the fetch of record `r` (R138). -/
def takeRecord (s : State) (r : BitVec 16) (error : Bool) (data : List Byte) : State :=
  if error then raiseBad s .fetchError r 0
  else
    match judgeRecord s data with
    | .bad cause id => raiseBad s cause r id
    | .message m => queueMessage s m
    | .withdraw id => withdraw s id

/-- The completion of the fetch of record `r` (R138). DESIGN CHOICE (log 12): a withdrawal from the queue makes no
fetch start test of its own before the overrun test. -/
def completeFetch (s : State) (r : BitVec 16) (error : Bool) (data : List Byte) : State :=
  let t := setMsg s fun m => { m with head := m.head + 1, fetch := none }
  fetchStart (overrunTest (takeRecord t r error data))

/-- Expiry at an advance of house time (R146). -/
def expireMessages (s : State) : State :=
  let due := s.msg.queue.filter fun m => reached s.clock.house m.deadline
  if due.isEmpty then s
  else
    departed (raiseAll
      (setMsg s fun m => { m with queue := m.queue.filter fun x => !reached s.clock.house x.deadline })
      .msgExpired (fun m => m.id.toNat) (fun m => [(4, leBytes 4 m.id.toNat)]) due)

/-- PURGE (R149). -/
def purgeRequest (s : State) : State × Verdict :=
  if s.msg.queue.isEmpty then (s, verdict .duplicate)
  else (departed (setMsg s fun m => { m with queue := [] }), verdict .accepted)

end Sys2Proof.Machine
end

