-- ==== Sys2Proof/Machine/Ticker.lean ====
section
/-! DEFINITION. The ticker unit: suppression, scrolling, withdrawals, start and entries at FRAME_START,
PAUSE and RESUME (ch. 9). -/

namespace Sys2Proof.Machine

def setTicker (s : State) (f : TickerUnit → TickerUnit) : State := { s with ticker := f s.ticker }

/-! ### Handling of FRAME_START (R154) -/

/-- The band empties (R155). -/
def bandEmpty (s : State) : State :=
  setTicker s fun t =>
    { state := .hidden, prior := none, band := [], withdrawals := [],
      shown := t.shown + BitVec.ofNat 32 t.band.length }

/-- Step 2: suppression (R156). -/
def bandSuppress (s : State) : State :=
  let hide := (programSource s).isSlot && hideOnReplay s.path.shadow
  match s.ticker.state with
  | .suppressed =>
    if hide then s
    else setTicker s fun t => { t with state := t.prior.getD .hidden, prior := none }
  | x => if hide then setTicker s fun t => { t with state := .suppressed, prior := some x } else s

/-- A band entry moved left by the speed (R158). -/
def BandEntry.moved (speed : Nat) (e : BandEntry) : BandEntry := { e with x := e.x - (speed : Int) }

/-- The entry's last column has passed the left edge (R158). -/
def BandEntry.gone (e : BandEntry) : Bool := decide (e.x + (e.width : Int) ≤ 0)

/-- Step 3: scrolling (R158). -/
def bandScroll (s : State) : State :=
  if s.ticker.state = .running then
    let moved := s.ticker.band.map (BandEntry.moved (bandSpeed s.path.shadow))
    setTicker s fun t =>
      { t with band := moved.filter fun e => !e.gone,
               shown := t.shown + BitVec.ofNat 32 (moved.filter BandEntry.gone).length }
  else s

/-- Step 4: withdrawals (R159). -/
def bandWithdraw (s : State) : State :=
  setTicker s fun t =>
    { t with band := t.band.filter fun e => !t.withdrawals.contains e.id, withdrawals := [] }

/-- A queued message has waited at least the start delay (R157). -/
def waitedEnough (s : State) : Bool :=
  s.msg.queue.any fun m =>
    decide (startDelay s.path.shadow * 1000 ≤ (s.clock.house - m.queued).toNat)

/-- Step 5: the start test (R157). -/
def bandStart (s : State) : State :=
  if s.ticker.state = .hidden ∧
      (startLevel s.path.shadow ≤ s.msg.queue.length ∨ waitedEnough s = true) then
    setTicker s fun t => { t with state := .running }
  else s

/-- The TICKER layer (section 1.2). -/
def tickerLayer : Nat := 5

/-- The band width: the width of the TICKER layer (R153). -/
def bandWidth (s : State) : Nat := layerW s.path.shadow tickerLayer

/-- Where the right end of the band list stands with its gap. -/
def bandRight (s : State) : Option Int :=
  s.ticker.band.getLast?.map fun e => e.x + (e.width : Int) + (bandGap s.path.shadow : Int)

/-- The queue head may enter (R160). -/
def mayEnter (s : State) : Bool :=
  decide (s.ticker.band.length < 8) &&
  match bandRight s with
  | none => true
  | some r => decide (r ≤ (bandWidth s : Int))

/-- The entry a message becomes (R160). -/
def bandEntry (s : State) (m : Message) : BandEntry :=
  { id := m.id, text := m.text, width := (tickerAtlas s.path.shadow).textWidth m.text,
    x := max (bandWidth s : Int) ((bandRight s).getD (bandWidth s : Int)) }

/-- The head enters the band; its departure makes the release and fetch start tests (R143, R160). -/
def enterHead (s : State) (m : Message) (rest : List Message) : State :=
  let t := setTicker s fun t => { t with band := t.band ++ [bandEntry s m] }
  departed (setMsg t fun q => { q with queue := rest })

/-- Step 6: entries, then the end (R160). -/
def bandEnter (s : State) : State :=
  if s.ticker.state = .running then
    let t := match s.msg.queue with
      | [] => s
      | m :: rest => if mayEnter s then enterHead s m rest else s
    if t.ticker.band.isEmpty && t.msg.queue.isEmpty then
      setTicker t fun x => { x with state := .hidden }
    else t
  else s

/-- The ticker unit's handling of FRAME_START (R154). -/
def tickerFrame (s : State) : State :=
  match s.report.mode with
  | .pass => bandEmpty s
  | .live => bandEnter (bandStart (bandWithdraw (bandScroll (bandSuppress s))))

/-- The TICKER layer may be drawn (R5). -/
def bandDrawn (s : State) : Bool := s.ticker.state == .running || s.ticker.state == .paused

/-! ### PAUSE and RESUME (R161) -/

/-- The state PAUSE and RESUME act on (R161). -/
def bandActedOn (s : State) : BandState :=
  match s.ticker.state with
  | .suppressed => s.ticker.prior.getD .hidden
  | x => x

/-- The state acted on becomes `b` (R161). -/
def setActedOn (s : State) (b : BandState) : State :=
  match s.ticker.state with
  | .suppressed => setTicker s fun t => { t with prior := some b }
  | _ => setTicker s fun t => { t with state := b }

/-- PAUSE (R161). -/
def pauseRequest (s : State) : State × Verdict :=
  match bandActedOn s with
  | .running => (setActedOn s .paused, verdict .accepted)
  | .paused => (s, verdict .duplicate)
  | .hidden | .suppressed => (s, verdict .notOnAir)

/-- RESUME on the TICKER word (R161). -/
def tickerResumeRequest (s : State) : State × Verdict :=
  match bandActedOn s with
  | .paused => (setActedOn s .running, verdict .accepted)
  | .running => (s, verdict .duplicate)
  | .hidden | .suppressed => (s, verdict .notOnAir)

end Sys2Proof.Machine
end

