-- ==== Sys2Proof/Machine/Compose.lean ====
section
/-! DEFINITION. The pixels of a composited read: stacking order, line limit, layer pixels, blend,
visible weight, bumper fade (R3, R10 to R13, R23 to R27, R32, R96, R97, R162, R163). -/

namespace Sys2Proof.Machine

/-! ### The six formulas (ch. 2) -/

/-- Effective alpha of key `k` under opacity `o` (R24). -/
def effAlpha (k o : Nat) : Nat := (k * o + 127) / 255

/-- One blend step: layer channel `c` with alpha `a` over the running value `b` (R25). -/
def blendStep (a c b : Nat) : Nat := (a * c + (255 - a) * b + 127) / 255

/-- The visible weight of a layer with alpha `a` under transmission `t` (R26). -/
def visible (a t : Nat) : Nat := (a * t + 127) / 255

/-- The transmission below a layer with alpha `a` (R26). -/
def transmit (a t : Nat) : Nat := (t * (255 - a) + 127) / 255

/-- The bumper fade of frame `i` of `b` (R32). -/
def bumperFade (i b : Nat) : Nat := min 255 (510 * min (i + 1) (b - i) / b)

/-! ### Regions and source addresses (R10, R98, R99, R100) -/

/-- The bytes of the canvas, of the ingest window and of one slot: stride × height (R98). -/
def canvasSize (g : Geometry) : Nat := g.stride * g.height

/-- The byte lies in the canvas (R9). -/
def inCanvas (g : Geometry) (a : Nat) : Bool :=
  decide (g.canvasBase ≤ a) && decide (a < g.canvasBase + canvasSize g)

/-- The byte lies in the ingest window (R98). -/
def inWindow (g : Geometry) (a : Nat) : Bool :=
  decide (g.windowBase ≤ a) && decide (a < g.windowBase + canvasSize g)

/-- The address of offset `o` of slot `k` (R10, R99). -/
def slotAddr (g : Geometry) (k o : Nat) : Nat := g.poolBase + k * canvasSize g + o

/-- The program address of a canvas byte (R10). -/
def programAddr (g : Geometry) (src : Source) (a : Nat) : Nat :=
  match src with
  | .liveCanvas => a
  | .slot k => slotAddr g k (a - g.canvasBase)

/-- The line of a canvas byte (R10). -/
def lineOf (g : Geometry) (a : Nat) : Nat := (a - g.canvasBase) / g.stride

/-- The column byte of a canvas byte (R10). -/
def columnByte (g : Geometry) (a : Nat) : Nat := (a - g.canvasBase) % g.stride

/-- The byte belongs to a pixel: in the canvas and not stride padding (R11). -/
def isPixelByte (g : Geometry) (a : Nat) : Bool :=
  inCanvas g a && decide (columnByte g a < g.width * 4)

/-- The pixel of a pixel byte: column and line (R11). -/
def pixelOf (g : Geometry) (a : Nat) : Nat × Nat := (columnByte g a / 4, lineOf g a)

/-! ### Layers on a line (R3, R13) -/

/-- The key of the stacking order: rank, then layer number (R3). -/
def stackKey (x : Nat × PlanLayer) : Nat := x.2.rank * 8 + x.1

/-- The plan's layers with their numbers. -/
def numberedLayers (p : Plan) : List (Nat × PlanLayer) := (List.range p.layers.length).zip p.layers

/-- The rectangle's rows include line `y` (R2). -/
def PlanLayer.onRow (l : PlanLayer) (y : Nat) : Bool :=
  decide (l.y ≤ (y : Int)) && decide ((y : Int) < l.y + (l.h : Int))

/-- The rectangle's columns overlap the canvas (R13). -/
def PlanLayer.onCanvas (l : PlanLayer) (width : Nat) : Bool :=
  decide (l.x < (width : Int)) && decide (0 < l.x + (l.w : Int))

/-- The rectangle covers the pixel (R2). -/
def PlanLayer.covers (l : PlanLayer) (x y : Nat) : Bool :=
  l.onRow y && decide (l.x ≤ (x : Int)) && decide ((x : Int) < l.x + (l.w : Int))

/-- The layers drawn on line `y`, lowest in stacking order first: at most the six highest of the
candidates, none of `without` (R13, R14). -/
def lineLayers (p : Plan) (width : Nat) (without : List Nat) (y : Nat) : List (Nat × PlanLayer) :=
  let c := sortByRank stackKey ((numberedLayers p).filter fun x =>
    x.2.drawn && !without.contains x.1 && x.2.onRow y && x.2.onCanvas width)
  c.drop (c.length - 6)

/-- The layers that cover a pixel, lowest first (R11, R13). -/
def covering (p : Plan) (width : Nat) (without : List Nat) (x y : Nat) : List (Nat × PlanLayer) :=
  (lineLayers p width without y).filter fun l => l.2.covers x y

/-! ### Layer pixels (R23, R96, R97, R162, R163) -/

/-- The address of creative pixel (cx, cy), if the creative has it (R12, R23). -/
def creativeAddr (d : Descriptor) (cx cy : Nat) : Option Nat :=
  if cx < d.width ∧ cy < d.height then some (d.addr + cy * d.stride + cx * 4) else none

/-- The atlas pixel that these glyphs, the first with its pen at `pen`, place on layer column `lx` in
glyph row `gy` (R96, R162). -/
def walkGlyphs (a : Atlas) (gy : Nat) (lx : Int) : List Nat → Int → Option Nat
  | [], _ => none
  | g :: gs, pen =>
    if pen ≤ lx ∧ lx < pen + (a.advance g : Int) then
      if a.draws g then some (a.pixelAddr g (lx - pen).toNat gy) else none
    else walkGlyphs a gy lx gs (pen + (a.advance g : Int))

/-- The first pen of a bug field's text, from the left edge of the layer (R96). -/
def fieldPen (a : Atlas) (f : RenderedField) : Int :=
  if f.right then (f.x : Int) + ((f.cells * a.cw : Nat) : Int) - (a.textWidth f.codes : Int)
  else (f.x : Int)

/-- The atlas pixel a bug field places on layer pixel (bx, by') (R96). -/
def fieldGlyph (a : Atlas) (f : RenderedField) (bx row : Nat) : Option Nat :=
  if f.y ≤ row ∧ row < f.y + a.ch then walkGlyphs a (row - f.y) (bx : Int) f.codes (fieldPen a f)
  else none

/-- The glyph pixel of the bug there: the highest-numbered field's (R96). -/
def bugGlyph (a : Atlas) (fields : List RenderedField) (bx row : Nat) : Option Nat :=
  fields.reverse.findSome? fun f => fieldGlyph a f bx row

/-- The glyph pixel of the band there: the rightmost message's (R162). -/
def bandGlyph (a : Atlas) (glyphRowOffset : Nat) (band : List PlanMessage) (lx row : Nat) : Option Nat :=
  if glyphRowOffset ≤ row ∧ row < glyphRowOffset + a.ch then
    band.reverse.findSome? fun m => walkGlyphs a (row - glyphRowOffset) (lx : Int) m.codes m.x
  else none

/-- The plate pixel and the glyph pixel a layer needs fetched at its pixel (lx, row) (R12). -/
def sourceAddrs (c : Content) (lx row : Nat) : Option Nat × Option Nat :=
  match c with
  | .nothing => (none, none)
  | .creative d => (creativeAddr d lx row, none)
  | .bug plate a fields => (creativeAddr plate lx row, bugGlyph a fields lx row)
  | .ticker _ off a band => (none, bandGlyph a off band lx row)

/-- A transparent pixel (R6). -/
def clearPixel : Pixel := { r := 0, g := 0, b := 0, k := 0 }

/-- Glyph over plate, one channel (R97, R163). -/
def glyphChannel (g c p : Byte) : Byte := BitVec.ofNat 8 (blendStep g.toNat c.toNat p.toNat)

/-- Glyph over plate (R97, R163). -/
def glyphOver (g p : Pixel) : Pixel :=
  { r := glyphChannel g.k g.r p.r, g := glyphChannel g.k g.g p.g, b := glyphChannel g.k g.b p.b,
    k := if p.k.toNat ≤ g.k.toNat then g.k else p.k }

/-- The pixel under a layer's glyphs: the fetched plate or creative pixel, the band's plate colour,
else transparent (R23, R97, R163). -/
def platePixel (c : Content) (plate : Option Pixel) : Pixel :=
  match c with
  | .ticker colour _ _ _ => colour
  | _ => plate.getD clearPixel

/-- The layer pixel of a layer at a canvas pixel it covers; `src` gives the pixel at an address
(R23). -/
def layerPixel (src : Nat → Pixel) (l : PlanLayer) (x y : Nat) : Pixel :=
  let (plate, glyph) := sourceAddrs l.content ((x : Int) - l.x).toNat ((y : Int) - l.y).toNat
  let p := platePixel l.content (plate.map src)
  match glyph with
  | some g => glyphOver (src g) p
  | none => p

/-- The overlay byte fetched for a layer at an address, 0 where none was. -/
def overlayByte (bytes : List OverlayByte) (layer addr : Nat) : Byte :=
  match bytes.find? fun b => b.layer == layer && b.addr == addr with
  | some b => b.byte
  | none => 0

/-- The overlay pixel fetched for a layer at an address. -/
def overlayPixel (bytes : List OverlayByte) (layer addr : Nat) : Pixel :=
  { r := overlayByte bytes layer addr, g := overlayByte bytes layer (addr + 1),
    b := overlayByte bytes layer (addr + 2), k := overlayByte bytes layer (addr + 3) }

/-- A covering layer at a pixel: its number, its pixel, its effective alpha (R24). -/
structure Covered where
  layer : Nat
  pixel : Pixel
  alpha : Nat
  deriving DecidableEq, Repr

/-- The covering layers of a pixel with their pixels, lowest first (R23, R24). -/
def coveredAt (p : Plan) (width : Nat) (without : List Nat) (bytes : List OverlayByte) (x y : Nat) :
    List Covered :=
  (covering p width without x y).map fun l =>
    let px := layerPixel (overlayPixel bytes l.1) l.2 x y
    { layer := l.1, pixel := px, alpha := effAlpha px.k.toNat l.2.opacity }

/-! ### Blend and weight (R25, R26) -/

/-- A channel blended over the program's value, lowest layer first (R25). -/
def blendChannel (channel : Pixel → Byte) (program : Nat) (cs : List Covered) : Nat :=
  cs.foldl (fun b c => blendStep c.alpha (channel c.pixel).toNat b) program

/-- The returned byte number `i` of a pixel whose program byte is `p` (R11, R25). -/
def pixelByte (i : Nat) (p : Byte) (cs : List Covered) : Byte :=
  match cs with
  | [] => p
  | _ =>
    match i with
    | 0 => BitVec.ofNat 8 (blendChannel Pixel.r p.toNat cs)
    | 1 => BitVec.ofNat 8 (blendChannel Pixel.g p.toNat cs)
    | 2 => BitVec.ofNat 8 (blendChannel Pixel.b p.toNat cs)
    | _ => 255

/-- The visible weights at a pixel, highest layer first, under transmission `t` (R26). -/
def weightWalk : List Covered → Nat → List (Nat × Nat)
  | [], _ => []
  | c :: cs, t => (c.layer, visible c.alpha t) :: weightWalk cs (transmit c.alpha t)

/-- The visible weights of the layers at a pixel (R26). -/
def weightsAt (cs : List Covered) : List (Nat × Nat) := weightWalk cs.reverse 255

/-- What layer `p` gathers at a pixel (R27). -/
def weightOf (p : Nat) (ws : List (Nat × Nat)) : Nat :=
  ((ws.filter fun w => w.1 == p).map Prod.snd).sum

end Sys2Proof.Machine
end

