-- ==== Sys2Proof/Machine/Plan.lean ====
section
/-! DEFINITION. The frame plan, the lock set and the hand-over at FRAME_START (R5 to R8, R17, R18,
R21). -/

namespace Sys2Proof.Machine

/-! ### Layers of the plan (R5, R6) -/

/-- What an owner hands over for a layer that is to be drawn (R6). -/
structure Handed where
  content : Content
  opacity : Nat
  sponsor : Named
  deriving DecidableEq, Repr

/-- The source creative, if it has one, is within the descriptor ranges (R5). -/
def Content.inRange : Content → Bool
  | .nothing => true
  | .creative d => d.inRange
  | .bug plate _ _ => plate.inRange
  | .ticker _ _ _ _ => true

/-- Placement `p`'s layer: the top entry, on a bound placement only over a slot (R5, R6). -/
def handSponsor (s : State) (p : Nat) : Option Handed :=
  match topEntry (placementAt s p).stack with
  | none => none
  | some e =>
    if (placementAt s p).fields.bound && !(programSource s).isSlot then none
    else some
      { content := .creative e.creative, opacity := layerOpacity s.path.shadow p,
        sponsor := match e.sponsor with
          | some i => .sponsor i
          | none => .fallback }

/-- The BUG layer (R6). -/
def handBug (s : State) : Option Handed :=
  some { content := .bug (bugPlate s.path.shadow) (bugAtlas s.path.shadow) s.score.fields,
         opacity := layerOpacity s.path.shadow 4, sponsor := .nobody }

/-- The TICKER layer (R6, R162). -/
def handTicker (s : State) : Option Handed :=
  if bandDrawn s then
    some
      { content := .ticker (plateColour s.path.shadow) (glyphRow s.path.shadow)
          (tickerAtlas s.path.shadow) (s.ticker.band.map fun e => { codes := e.text, x := e.x }),
        opacity := layerOpacity s.path.shadow tickerLayer, sponsor := .nobody }
  else none

/-- The FLASH layer (R6, R7). -/
def handFlash (s : State) : Option Handed :=
  s.score.flash.map fun f =>
    { content := .creative f.creative, opacity := layerOpacity s.path.shadow 6, sponsor := .nobody }

/-- The TRANSITION layer (R6, R8). -/
def handBumper (s : State) : Option Handed :=
  (runningBumper s).map fun x =>
    { content := .creative x.2.2, opacity := bumperFade x.1 x.2.1, sponsor := .nobody }

/-- What layer `l`'s owner hands over (R6). -/
def handed (s : State) (l : Nat) : Option Handed :=
  match l with
  | 4 => handBug s
  | 5 => handTicker s
  | 6 => handFlash s
  | 7 => handBumper s
  | p => handSponsor s p

/-- The opacity of an entry that is not drawn: the record's, which for TRANSITION does not enter the plan
(R8). DESIGN CHOICE (log 40): that entry then holds 0. -/
def idleOpacity (m : Memory) (l : Nat) : Nat := if l = 7 then 0 else layerOpacity m l

/-- A layer of the plan (R5). -/
def planLayer (s : State) (l : Nat) : PlanLayer :=
  let m := s.path.shadow
  let off : PlanLayer :=
    { drawn := false, rank := layerRank m l, x := layerX m l, y := layerY m l, w := layerW m l,
      h := layerH m l, content := .nothing, opacity := idleOpacity m l, sponsor := .nobody }
  if s.report.mode = .live ∧ layerEnable m l = true then
    match handed s l with
    | some x =>
      if x.content.inRange then
        { off with drawn := true, content := x.content, opacity := x.opacity, sponsor := x.sponsor }
      else off
    | none => off
  else off

/-- The plan for the frame whose FRAME_START every owner has handled (R4, R5). -/
def buildPlan (s : State) : Plan :=
  { frame := s.comp.frame, mode := s.report.mode, source := programSource s,
    layers := (List.range 8).map (planLayer s), erred := [] }

/-! ### Lock set (R18) -/

/-- A range of bytes: the first address and the one past the last. -/
structure Span where
  first : Nat
  stop : Nat
  deriving DecidableEq, Repr

/-- The bytes a creative occupies (R18). -/
def creativeSpan (addr stride w h : Nat) : Span :=
  { first := addr, stop := addr + stride * (h - 1) + w * 4 }

/-- The bytes an atlas occupies (R18, R90). -/
def atlasSpan (a : Atlas) : Span := creativeSpan a.addr a.stride (16 * a.cw) (8 * a.ch)

/-- The bytes the source creative of a layer occupies (R18). -/
def contentSpans : Content → List Span
  | .nothing => []
  | .creative d => [creativeSpan d.addr d.stride d.width d.height]
  | .bug plate _ _ => [creativeSpan plate.addr plate.stride plate.width plate.height]
  | .ticker _ _ _ _ => []

/-- The span has a byte in sector `j` (R18). -/
def Span.inSector (g : Geometry) (j : Nat) (x : Span) : Bool :=
  decide (x.first < g.assetBase + (j + 1) * g.sectorSize) &&
  decide (g.assetBase + j * g.sectorSize < x.stop) && decide (x.first < x.stop) &&
  decide (0 < g.sectorSize)

/-- The spans that lock sectors in a plan (R18). -/
def lockingSpans (m : Memory) (p : Plan) : List Span :=
  (p.layers.filter fun l => l.drawn).flatMap (fun l => contentSpans l.content) ++
  match p.mode with
  | .live => ([bugAtlas m, tickerAtlas m].filter fun a => a.usable).map atlasSpan
  | .pass => []

/-- The lock set of a plan (R18). -/
def lockSet (m : Memory) (g : Geometry) (p : Plan) : List Nat :=
  (List.range 16).filter fun j =>
    (p.mode == .live && j == 0) || (lockingSpans m p).any (Span.inSector g j)

/-! ### Hand-over and the frame boundary (R4, R17) -/

/-- The figures of the frame just ended; none before the first plan (R17). -/
def handover (s : State) : List Handover :=
  match s.comp.plan with
  | none => []
  | some p =>
    (s.comp.weights.zip p.layers).map fun x =>
      { weight := x.1, area := x.2.w * x.2.h, named := x.2.sponsor, drawn := x.2.drawn }

/-- The frame counter advances, marks and sums are cleared (R4, R16, R17). -/
def openFrame (s : State) : State :=
  { s with comp := { s.comp with
      frame := s.comp.frame + 1, marks := [], weights := [0, 0, 0, 0] } }

/-- The new plan and its lock set (R4, R18). -/
def setPlan (s : State) : State :=
  { s with comp := { s.comp with
      plan := some (buildPlan s), lock := lockSet s.path.shadow s.path.geom (buildPlan s) } }

end Sys2Proof.Machine
end

