-- ==== Sys2Proof/Machine/Page.lean ====
section
/-! DEFINITION. The bytes of the status page and of a notice record (R185, R191; log 4 on the places the
layouts leave to their order, log 21 on the values that no layout has). -/

namespace Sys2Proof.Machine

/-- The list cut or filled with zeros to `n` bytes. -/
def padTo (n : Nat) (l : List Byte) : List Byte := l.take n ++ List.replicate (n - l.length) 0

def byteOf (n : Nat) : List Byte := leBytes 1 n
def flagOf (b : Bool) : List Byte := [flagByte b]
def houseOf (t : HouseTime) : List Byte := leBytes 4 t.toNat

/-- The header, leading and trailing. -/
def headerBytes (s : State) (cause : RefreshCause) : List Byte :=
  layout 16 [(0, leBytes 4 s.report.refreshCount.toNat), (4, leBytes 2 0x7140), (6, byteOf 1),
    (7, byteOf cause.code), (8, leBytes 4 s.comp.frame.toNat), (12, houseOf s.clock.house)]

/-- The pending mode's code: 0 none, 1 LIVE, 2 PASS. -/
def pendingCode : Option (Mode × Byte) → Nat
  | none => 0
  | some (.live, _) => 1
  | some (.pass, _) => 2

def pendingTag : Option (Mode × Byte) → Byte
  | none => 0
  | some (_, t) => t

/-- The number whose bit j is flag j. -/
def bitsOf : List Bool → Nat
  | [] => 0
  | b :: bs => (if b then 1 else 0) + 2 * bitsOf bs

def modeBytes (s : State) : List Byte :=
  layout 16 [(0, byteOf s.report.mode.code), (1, byteOf (pendingCode s.report.pendingMode)),
    (2, [pendingTag s.report.pendingMode]), (3, [s.path.tbase]),
    (4, leBytes 2 (bitsOf ((List.range 16).map s.comp.lock.contains)))]

/-- A place: its tag, its outcome with bit 7 as the waiting mark. -/
def placeBytes (p : Place) : List Byte :=
  [p.tag] ++ byteOf ((match p.outcome with | none => 0 | some o => o.code) + (if p.mark then 128 else 0))

/-- A row of the outcome table: latest, then previous. -/
def rowBytes (r : OutcomeRow) : List Byte := placeBytes r.latest ++ placeBytes r.previous

def outcomeBytes (s : State) : List Byte :=
  layout 32 [(0, [ReqWord.showWord, .clockWord, .sponsorWord, .replayWord, .tickerWord, .spareWord].flatMap
      fun w => rowBytes (outcomeRow s w)),
    (0x18, leBytes 2 s.report.produce.toNat), (0x1A, leBytes 2 s.report.consume.toNat)]

def recordFields (r : ClockRecord) : List Byte :=
  layout 16 [(0, houseOf r.house), (4, leBytes 4 r.frame.toNat), (8, leBytes 4 r.value),
    (12, byteOf r.cause.code)]

/-- The last gate edge stamp; its cause is GATE. -/
def gateFields (g : GateStamp) : List Byte :=
  layout 16 [(0, houseOf g.house), (4, leBytes 4 g.frame.toNat), (8, leBytes 4 g.value),
    (13, flagOf g.rising)]

def clockBytes (c : ClockUnit) : List Byte :=
  layout 256 [(0x00, leBytes 4 c.value), (0x04, byteOf c.state.code), (0x05, byteOf c.config.mode.code),
    (0x06, byteOf c.period), (0x07, flagOf c.soft), (0x08, flagOf c.added), (0x09, byteOf c.source.code),
    (0x0A, byteOf c.returns), (0x0B, flagOf c.configPending), (0x0C, houseOf (c.watch.getD 0)),
    (0x10, houseOf c.lastReturn), (0x14, leBytes 4 c.shotValue), (0x18, byteOf (shotState c).code),
    (0x19, byteOf ((if c.hornGame.isSome then 1 else 0) + (if c.hornShot.isSome then 2 else 0))),
    (0x1C, houseOf (c.hornGame.getD 0)), (0x20, houseOf (c.hornShot.getD 0)),
    (0x30, recordFields c.startRec), (0x40, recordFields c.stopRec), (0x50, gateFields c.gateRec),
    (0x60, clockConfigBytes c.config)]

/-- The flash: its state, and its team and frames remaining where it is RUNNING. -/
def flashBytes : Option Flash → List Byte
  | none => List.replicate 4 0
  | some f => byteOf 1 ++ byteOf f.team.code ++ leBytes 2 f.remaining

def scoreBytes (s : State) : List Byte :=
  layout 128 [(0x00, teamBytes s.path.shadow .home), (0x20, teamBytes s.path.shadow .away),
    (0x40, flashBytes s.score.flash)]

def entryBytes (e : StackEntry) : List Byte :=
  layout 32 [(0, byteOf e.kind.code), (1, byteOf (e.sponsor.getD 0)), (2, flagOf e.endMark),
    (3, leBytes 2 (e.dwell.getD 0)), (0x10, descriptorBytes e.creative)]

def spotBytes (x : Spot) : List Byte := byteOf x.sponsor ++ byteOf x.creative ++ leBytes 2 x.dwell

/-- A placement's pending spots in priority order. -/
def spotsInOrder (p : Placement) : List Spot :=
  (priorityOrder p.lowest).filterMap fun i => p.spots.find? fun x => x.sponsor == i

def placementBytes (p : Placement) : List Byte :=
  layout 256 [(0, byteOf p.lowest), (1, byteOf p.stack.length), (2, byteOf p.spots.length),
    (0x20, padTo 96 (p.stack.flatMap entryBytes)),
    (0x80, padTo 128 ((spotsInOrder p).flatMap spotBytes))]

def sponsorBytes (s : State) (i : Nat) : List Byte :=
  layout 32 [(0, byteOf (sponsorState s i).code), (1, byteOf (sponsorAt s i).pointer),
    (8, leBytes 6 (sponsorAt s i).acc)]

def waitingCode : Option Waiting → Nat
  | none => 0
  | some (.play _) => 1
  | some .takeLive => 2

def waitingClip : Option Waiting → Nat
  | some (.play c) => c
  | _ => 0

def playbackBytes (s : State) : List Byte :=
  let r := s.replay
  layout 64 [(0x00, byteOf r.playback.code), (0x01, byteOf (r.clip.getD 0)), (0x02, byteOf r.counter),
    (0x03, byteOf (r.bumper.getD (0, 0)).1), (0x04, leBytes 4 r.position),
    (0x08, byteOf (r.bumper.getD (0, 0)).2),
    (0x09, byteOf (waitingCode r.waiting) ++ byteOf (waitingClip r.waiting)),
    (0x0B, flagOf r.cutPending), (0x0C, leBytes 4 r.lastShown),
    (0x10, leBytes 2 (r.fill.getD 0)), (0x12, flagOf r.fill.isSome), (0x14, leBytes 4 r.captureSeq),
    (0x18, leBytes 4 (oldestSeq s)), (0x1C, leBytes 4 (newestSeq s))]

/-- A clip's bumper creative, zero where it has none. -/
def bumperBytes : Option Descriptor → List Byte
  | none => List.replicate 16 0
  | some d => descriptorBytes d

def clipBytes (c : Clip) : List Byte :=
  layout 32 [(0, byteOf c.state.code), (1, byteOf c.rate), (2, byteOf c.endAction.code),
    (3, flagOf c.autoDisarm), (4, leBytes 4 c.inPoint), (8, leBytes 4 c.outPoint),
    (12, byteOf c.bumperFrames), (0x10, bumperBytes c.bumper)]

def slotBytes (clips : List Clip) (x : Slot) : List Byte :=
  layout 32 [(0, byteOf x.state.code), (1, flagOf x.writeError), (2, flagOf (heldBy clips x)),
    (4, leBytes 4 x.seq), (8, leBytes 4 x.commitFrame.toNat), (12, leBytes 4 x.stampValue),
    (16, byteOf x.stampMode.code), (17, byteOf x.stampPeriod)]

def messageUnitBytes (s : State) : List Byte :=
  layout 256 [(0x00, leBytes 2 s.msg.head.toNat), (0x02, leBytes 2 s.msg.tail.toNat),
    (0x04, flagOf s.msg.fetch.isSome), (0x06, leBytes 2 (s.msg.fetch.getD 0).toNat),
    (0x08, flagOf (fetchPaused s)), (0x09, byteOf s.msg.queue.length),
    (0x0A, byteOf (highMark s.path.shadow)), (0x0B, byteOf (lowMark s.path.shadow)),
    (0x0C, flagOf s.msg.hold)]

/-- A queued message in the intake record layout, kind 1, with its deadline (log 4). -/
def messageBytes (m : Message) : List Byte :=
  layout 256 [(0, byteOf 1), (1, byteOf m.cls.code),
    (2, leBytes 2 ((m.deadline - m.queued).toNat / 1000)), (4, leBytes 4 m.id.toNat),
    (8, byteOf m.text.length), (12, houseOf m.deadline), (16, m.text.map (BitVec.ofNat 8))]

def tickerBytes (t : TickerUnit) : List Byte :=
  layout 256 [(0x00, byteOf t.state.code), (0x01, byteOf (t.prior.getD .hidden).code),
    (0x02, byteOf t.band.length), (0x03, byteOf t.withdrawals.length), (0x04, leBytes 4 t.shown.toNat),
    (0x20, t.withdrawals.flatMap fun i => leBytes 4 i.toNat)]

/-- The 32 bits of a signed number (R190). -/
def signedBytes (v : Int) : List Byte := leBytes 4 (BitVec.ofInt 32 v).toNat

def bandBytes (e : BandEntry) : List Byte :=
  layout 256 [(0, leBytes 4 e.id.toNat), (4, signedBytes e.x), (8, leBytes 2 e.width),
    (10, byteOf e.text.length), (16, e.text.map (BitVec.ofNat 8))]

/-- What R191 lays out between the two headers of the page. -/
def pageBody (s : State) : List Byte :=
  modeBytes s ++ geometryBytes s.path.geom ++ padTo 0xA0 (outcomeBytes s) ++
  clockBytes s.clock ++ padTo 0x200 (scoreBytes s) ++
  padTo 0x400 ((List.range 4).flatMap fun p => placementBytes (placementAt s p)) ++
  padTo 0x800 ((List.range 32).flatMap (sponsorBytes s)) ++
  padTo 0x100 (playbackBytes s) ++ padTo 0xF00 ((List.range 16).flatMap fun c => clipBytes (clipAt s c)) ++
  padTo 0x8000 ((s.replay.slots.take 1024).flatMap (slotBytes s.replay.clips)) ++
  padTo 0x1000 (messageUnitBytes s) ++ padTo 0x2000 ((s.msg.queue.take 32).flatMap messageBytes) ++
  tickerBytes s.ticker ++ padTo 0x2EF0 (padTo 0x800 (s.ticker.band.flatMap bandBytes))

/-- The 65,536 bytes of the status page (R185, R191): a byte that no layout assigns is 0 (log 21). -/
def statusPage (s : State) (cause : RefreshCause) : List Byte :=
  headerBytes s cause ++ pageBody s ++ headerBytes s cause

/-- The 32 bytes of a notice record (ch. 12.6). -/
def noticeBytes (r : NoticeRecord) : List Byte :=
  layout 32 [(0, leBytes 2 r.number.toNat), (2, byteOf (match r.kind with | none => 0 | some k => k.code)),
    (4, leBytes 2 r.count), (8, leBytes 4 r.frame.toNat), (12, houseOf r.house), (16, r.detail)]

end Sys2Proof.Machine
end

