-- ==== Sys2Proof/Machine/Report.lean ====
section
/-! DEFINITION. The report unit: the mode, the SHOW requests, the status refresh, the notice ring and
the settling of a command (ch. 11). -/

namespace Sys2Proof.Machine

def setReport (s : State) (f : ReportUnit → ReportUnit) : State := { s with report := f s.report }

/-! ### The mode (R179) -/

/-- The report unit's handling of FRAME_START: a pending mode takes effect (R179, R183). Frame 1 is a PASS
frame (R20, R31, R189), so one that is pending at the first FRAME_START after reset, when no plan is in
force, waits for the second (DESIGN CHOICE, log 30). -/
def modeFrame (s : State) : State :=
  match s.comp.plan, s.report.pendingMode with
  | none, _ => s
  | some _, none => s
  | some _, some (m, tag) =>
    raise (setReport (clearMarks s .showWord) fun r => { r with mode := m, pendingMode := none })
      .modeChanged [(0, leBytes 1 s.report.mode.code), (1, leBytes 1 m.code), (2, [tag])]

/-! ### GO_LIVE and GO_PASS (R180, R181) -/

/-- A region of the layout check: its first byte, its size, the geometry field that places it. -/
structure Region where
  first : Nat
  size : Nat
  field : Nat
  deriving DecidableEq, Repr

/-- The regions GO_LIVE compares, in the table's order (R180). -/
def regions (s : State) : List Region :=
  let g := s.path.geom
  [{ first := g.canvasBase, size := canvasSize g, field := 0x00 },
   { first := g.windowBase, size := canvasSize g, field := 0x18 },
   { first := g.poolBase, size := g.slotCount * canvasSize g, field := 0x20 },
   { first := g.assetBase, size := 16 * g.sectorSize, field := 0x30 },
   { first := tableBase s, size := 1048576, field := 0x00 }]

/-- The region ends beyond the last byte address (R180). -/
def Region.beyond (r : Region) : Bool := decide (1099511627776 < r.first + r.size)

/-- Two regions share a byte (R180). -/
def Region.meets (a b : Region) : Bool :=
  decide (a.first < b.first + b.size) && decide (b.first < a.first + a.size) &&
  decide (0 < a.size) && decide (0 < b.size)

/-- A power of two from 64 KiB to 64 MiB (R180). -/
def legalSector (n : Nat) : Bool := (List.range 11).any fun k => n == 65536 * 2 ^ k

/-- The offset of the first geometry field out of range (R180). -/
def badField (s : State) : Option Nat :=
  let g := s.path.geom
  if g.width < 640 ∨ 3840 < g.width ∨ g.width % 16 ≠ 0 then some 0x08
  else if g.height < 360 ∨ 2160 < g.height then some 0x0A
  else if g.stride % 256 ≠ 0 ∨ g.stride < g.width * 4 ∨ 32768 < g.stride then some 0x0C
  else if g.canvasBase % 256 ≠ 0 then some 0x00
  else if g.windowBase % 256 ≠ 0 then some 0x18
  else if g.poolBase % 256 ≠ 0 then some 0x20
  else if g.slotCount < 16 ∨ 1024 < g.slotCount then some 0x28
  else if !legalSector g.sectorSize then some 0x38
  else if g.assetBase % 65536 ≠ 0 then some 0x30
  else if g.scanTag = g.ingestTag then some 0x11
  else ((regions s).find? Region.beyond).map Region.field

/-- The pairs of regions in the table's order. -/
def regionPairs : List (Nat × Nat) :=
  [(0, 1), (0, 2), (0, 3), (0, 4), (1, 2), (1, 3), (1, 4), (2, 3), (2, 4), (3, 4)]

/-- The regions of this pair share a byte. -/
def pairMeets (rs : List Region) (p : Nat × Nat) : Bool :=
  match rs[p.1]?, rs[p.2]? with
  | some a, some b => a.meets b
  | _, _ => false

/-- The first pair of regions that share a byte (R180). -/
def badPair (s : State) : Option (Nat × Nat) := regionPairs.find? (pairMeets (regions s))

/-- The refusal of a GO_LIVE whose taken geometry fails a check (R180; the detail by ch. 12.6). -/
def geometryRefusal (s : State) : Option Verdict :=
  match badField s with
  | some off => some { outcome := .badGeometry, waits := false, value := off, offset := 0 }
  | none =>
    (badPair s).map fun p =>
      { outcome := .overlap, waits := false, value := p.1 + 256 * p.2, offset := 0 }

/-- An earlier waiting mode request is superseded (R181, R183). -/
def supersedeMode (s : State) : State :=
  match s.report.pendingMode with
  | none => s
  | some _ => dropMarked s .showWord .superseded

/-- The pending mode becomes `m`, set by `tag`, and the request waits (R181). -/
def pendMode (s : State) (m : Mode) (tag : Byte) : State × Verdict :=
  (setReport (supersedeMode s) fun r => { r with pendingMode := some (m, tag) }, acceptedWaiting)

/-- The pending mode becomes none (R181). -/
def unpendMode (s : State) : State × Verdict :=
  (setReport (supersedeMode s) fun r => { r with pendingMode := none }, verdict .accepted)

/-- GO_LIVE (R180, R181). -/
def goLiveRequest (s : State) (tag : Byte) : State × Verdict :=
  if s.report.mode = .live ∧ s.report.pendingMode = none then (s, verdict .duplicate)
  else
    match geometryRefusal s with
    | some v => (s, v)
    | none =>
      match s.report.mode with
      | .pass => pendMode s .live tag
      | .live => unpendMode s

/-- GO_PASS (R181). -/
def goPassRequest (s : State) (tag : Byte) : State × Verdict :=
  if s.report.mode = .pass ∧ s.report.pendingMode = none then (s, verdict .duplicate)
  else
    match s.report.mode with
    | .live => pendMode s .pass tag
    | .pass => unpendMode s

/-! ### The status refresh (R184) -/

/-- The first byte address of the status page. -/
def statusBase (s : State) : Nat := tableBase s + 0x80000

/-- The first byte address of the notice ring. -/
def noticeBase (s : State) : Nat := tableBase s + 0x90000

/-- The page's writes: `n` of them from `addr` on, 256 bytes each, in ascending order (R168, R184). -/
def pageWrites : Nat → Nat → List Byte → List DownTxn
  | 0, _, _ => []
  | n + 1, addr, page =>
    .own ownId addr (page.take 256) :: pageWrites n (addr + 256) (page.drop 256)

/-- A refresh with this cause starts: the count rises, the snapshot is taken, 256 writes are issued. -/
def startRefresh (s : State) (cause : RefreshCause) : State :=
  let t := setReport s fun r => { r with refreshCount := r.refreshCount + 1, held := none }
  let page := statusPage t cause
  { t with
    report := { t.report with snapshot := some page },
    path := { t.path with issued := t.path.issued ++ pageWrites 256 (statusBase t) page } }

/-- An IDLE report unit starts the refresh that is due (R184). -/
def refreshStart (s : State) : State :=
  match s.report.snapshot, s.report.held with
  | none, some cause => startRefresh s cause
  | _, _ => s

/-- The responses to a refresh's writes have returned (R184); those of a refresh that a reset dropped are
discarded (R176). -/
def refreshComplete (s : State) : State :=
  if isStale s .refresh then discard s .refresh
  else
    match s.report.snapshot with
    | none => s
    | some _ => setReport s fun r => { r with snapshot := none }

/-! ### The notice ring (R186, R187) -/

/-- The record with this number is unconsumed (R186). -/
def unconsumed (r : ReportUnit) (number : BitVec 16) : Bool :=
  decide ((number - r.consume).toNat < (r.produce - r.consume).toNat)

/-- The position of the unconsumed record of this kind (R186). -/
def recordOf (r : ReportUnit) (kind : NoticeKind) : Option Nat :=
  r.ring.findIdx? fun x => x.kind == some kind && unconsumed r x.number

/-- The record an occurrence creates (R186). -/
def freshRecord (s : State) (kind : NoticeKind) (detail : List Byte) : NoticeRecord :=
  { number := s.report.produce, kind := some kind, count := 1, frame := s.comp.frame,
    house := s.clock.house, detail := detail }

/-- The record an occurrence updates (R186). -/
def repeatRecord (s : State) (detail : List Byte) (x : NoticeRecord) : NoticeRecord :=
  { x with count := min 65535 (x.count + 1), frame := s.comp.frame, house := s.clock.house,
           detail := detail }

/-- The write of the record at position `i` (R168, R186). -/
def writeNotice (s : State) (i : Nat) : State :=
  issue s (.own ownId (noticeBase s + i * 32) (noticeBytes (s.report.ring.getD i .zero)))

/-- An occurrence is taken (R186). -/
def takeOccurrence (s : State) (kind : NoticeKind) (detail : List Byte) : State :=
  match recordOf s.report kind with
  | some i =>
    writeNotice (setReport s fun r => { r with ring := r.ring.modify i (repeatRecord s detail) }) i
  | none =>
    let i := s.report.produce.toNat % 32
    writeNotice
      (setReport s fun r =>
        { r with ring := r.ring.set i (freshRecord s kind detail), produce := r.produce + 1 }) i

/-- A consume capture with value `v` is taken (R187). -/
def takeConsume (s : State) (v : BitVec 16) : State :=
  setReport s fun r =>
    { r with consume :=
        if (v - r.consume).toNat ≤ (r.produce - r.consume).toNat then v else r.produce }

/-- One report is taken. -/
def takeReport (s : State) (r : Report) : State :=
  match r with
  | .occurrence kind detail => takeOccurrence s kind detail
  | .consume v => takeConsume s v

/-- The reports that settle together, in the order they are taken (R186; log 1). -/
def raisedOrder (r : ReportUnit) : List Report :=
  if r.raised.length < 2 then r.raised else freeOrder r.draws Report.key r.raised

/-- Every report raised so far is taken. -/
def takeRaised (s : State) : State :=
  (raisedOrder s.report).foldl takeReport
    (setReport s fun r =>
      { r with raised := [], draws := if r.raised.length < 2 then r.draws else r.draws + 1 })

/-- The end of a command, or of a request that another one of its capture follows (R172): what it raised is
taken, a due refresh starts (log 1, log 10). -/
def settle (s : State) : State := refreshStart (takeRaised s)

end Sys2Proof.Machine
end

