-- ==== Sys2Proof/Machine/Path.lean ====
section
/-! DEFINITION. The transaction path: classes of writes and reads, blocking, the shadow and its capture,
geometry, request words, ingest and window traffic, responses (ch. 10; R9, R99, R100, R106). -/

namespace Sys2Proof.Machine

/-! ### Classes of writes (R164) -/

/-- The byte lies in `first` .. `first + size − 1`. -/
def inRange (first size a : Nat) : Bool := decide (first ≤ a) && decide (a < first + size)

/-- The table region offset lies in a captured area (R169; ch. 12.1). -/
def capturedOffset (o : Nat) : Bool :=
  inRange 0 0x1000 o || inRange 0x1000 0x80 o || inRange 0x2000 0x40 o || inRange 0x3000 0x2000 o

/-- The byte lies in a captured area. -/
def inCaptured (s : State) (a : Nat) : Bool :=
  decide (tableBase s ≤ a) && capturedOffset (a - tableBase s)

/-- The byte lies in a part-owned area (R175). -/
def inPartOwned (s : State) (a : Nat) : Bool :=
  inRange (statusBase s) 0x10000 a || inRange (noticeBase s) 0x400 a

/-- The byte lies in sector `j` of the asset region (R18). -/
def inSector (g : Geometry) (j a : Nat) : Bool := inRange (g.assetBase + j * g.sectorSize) g.sectorSize a

/-- The lowest sector of the lock set in force that the write touches (R174). -/
def lockedSector (s : State) (bytes : List (Nat × Byte)) : Option Nat :=
  s.comp.lock.find? fun j => bytes.any fun b => inSector s.path.geom j b.1

/-- The classes of a write. -/
inductive WriteClass where
  | locked (sector : Nat)
  | partOwned
  | ingest
  | captured
  | forwarded
  deriving DecidableEq, Repr

/-- The class of a write; the first that applies is taken, LOCKED before PART_OWNED (R164, R175). -/
def classifyWrite (s : State) (w : WriteReq) : WriteClass :=
  let bytes := writeBytes w
  match lockedSector s bytes with
  | some j => .locked j
  | none =>
    if bytes.any fun b => inPartOwned s b.1 then .partOwned
    else if s.report.mode == .live && masterTag w.id == s.path.geom.ingestTag &&
        bytes.any (fun b => inWindow s.path.geom b.1) then .ingest
    else if bytes.any fun b => inCaptured s b.1 then .captured
    else .forwarded

/-! ### Blocked and forwarded writes (R167, R174, R175) -/

/-- A write is blocked: an error response in its tag's order, WRITE_BLOCKED (R174, R175). -/
def blockWrite (s : State) (w : WriteReq) (cause sector : Nat) : State :=
  let t := raise s .writeBlocked
    [(0, leBytes 1 (masterTag w.id)), (1, leBytes 1 cause), (2, leBytes 1 sector),
     (8, leBytes 5 w.addr)]
  returnResponses (enterOrder t w.id .write .blocked 0 1 (some (errorResponse w.id .write 0 1)))

/-- A write is issued as it is (R167). -/
def forwardWrite (s : State) (w : WriteReq) : State :=
  enterOrder (issue s (.burst (.write w))) w.id .write .forwarded 0 1 none

/-! ### Requests (R171, R172, R190) -/

/-- A request word as the merged shadow holds it. -/
structure RequestWord where
  bytes : List Byte
  deriving DecidableEq, Repr

/-- Where a request word stands (ch. 12.1). -/
def wordOffset (w : ReqWord) : Nat := 0x1000 + 16 * w.code

/-- The 16 shadow bytes of a request word (R171). -/
def readWord (s : State) (w : ReqWord) : RequestWord :=
  { bytes := (List.range 16).map fun i => readByte s.path.shadow (wordOffset w + i) }

/-- The little-endian number in `n` bytes of the word from byte `i` on. -/
def RequestWord.num (x : RequestWord) (i n : Nat) : Nat := leNat ((x.bytes.drop i).take n)

def RequestWord.code (x : RequestWord) : Nat := x.num 0 1
def RequestWord.tag (x : RequestWord) : Byte := x.bytes.getD 15 0

/-- A code the word's table does not list (R190). -/
def unknown (s : State) : State × Verdict := (s, verdict .unknown)

/-- SHOW requests (section 11.2). -/
def showRequest (s : State) (x : RequestWord) : State × Verdict :=
  match x.code with
  | 1 => goLiveRequest s x.tag
  | 2 => goPassRequest s x.tag
  | 3 => clearGameRequest s
  | 4 => clearExposureRequest s
  | _ => unknown s

/-- CLOCK requests (section 4.6). -/
def clockRequest (s : State) (x : RequestWord) : State × Verdict :=
  match x.code with
  | 1 => softRequest s true
  | 2 => softRequest s false
  | 3 => setRequest s (x.num 1 4)
  | 4 => adjustRequest s (signed32 (x.num 1 4))
  | 5 => periodNextRequest s
  | 6 => shotResetRequest s
  | 7 => shotSetRequest s (x.num 1 4)
  | 8 => shotSwitchRequest s true
  | 9 => shotSwitchRequest s false
  | 10 => hornRequest s (x.num 1 2)
  | _ => unknown s

/-- SPONSOR requests (R50). -/
def sponsorRequest (s : State) (x : RequestWord) : State × Verdict :=
  match x.code with
  | 1 => spotRequest s spotWordOffsets (x.num 1 1) (x.num 2 1) (x.num 4 2) (x.num 8 1)
  | 2 => setLowestRequest s (x.num 1 1) (x.num 2 1)
  | 3 => endRequest s (x.num 2 1)
  | 4 => suspendRequest s (x.num 1 1) true
  | 5 => suspendRequest s (x.num 1 1) false
  | _ => unknown s

/-- An ARM's parameters in the word (ch. 12.4). -/
def armParams (x : RequestWord) : ArmParams :=
  { clip := x.num 1 1, rate := x.num 2 1, flags := x.num 3 1, inPoint := x.num 4 4,
    outPoint := x.num 8 4, bumperFrames := x.num 12 1, bumperIndex := x.num 13 1 }

/-- REPLAY requests (R112). -/
def replayRequest (s : State) (x : RequestWord) : State × Verdict :=
  match x.code with
  | 1 => armRequest s (armParams x)
  | 2 => disarmRequest s (x.num 1 1)
  | 3 => resetRingRequest s
  | 4 => playRequest s (x.num 1 1)
  | 5 => freezeRequest s
  | 6 => replayResumeRequest s
  | 7 => stepRequest s (x.num 1 1)
  | 8 => takeLiveRequest s
  | _ => unknown s

/-- TICKER requests (R149, R161). -/
def tickerRequest (s : State) (x : RequestWord) : State × Verdict :=
  match x.code with
  | 1 => purgeRequest s
  | 2 => pauseRequest s
  | 3 => tickerResumeRequest s
  | _ => unknown s

/-- The owner of the word answers (R171, R182). -/
def answerRequest (s : State) (w : ReqWord) (x : RequestWord) : State × Verdict :=
  match w with
  | .showWord => showRequest s x
  | .clockWord => clockRequest s x
  | .sponsorWord => sponsorRequest s x
  | .replayWord => replayRequest s x
  | .tickerWord => tickerRequest s x
  | .spareWord => unknown s

/-- A request is taken from its word (R171, R183). -/
def takeRequest (s : State) (w : ReqWord) : State :=
  let x := readWord s w
  let (t, v) := answerRequest s w x
  recordOutcome t w x.tag x.code v

/-! ### Captures (R170, R173) -/

/-- The bytes a write captures: table region offset and value, in order. -/
def captureBytes (s : State) (w : WriteReq) : List (Nat × Byte) :=
  (writeBytes w).filterMap fun b =>
    if inCaptured s b.1 then some (b.1 - tableBase s, b.2) else none

/-- The capture reached one of these `n` offsets from `off` on. -/
def reaches (bytes : List (Nat × Byte)) (off n : Nat) : Bool := bytes.any fun b => inRange off n b.1

/-- A geometry field after a capture in PASS: the shadow value where the capture reached it (R173). -/
def takeField (bytes : List (Nat × Byte)) (f : GeometryField) (new old : Nat) : Nat :=
  if reaches bytes f.off f.width then new else old

/-- The geometry taken in PASS (R173). -/
def takenGeometry (bytes : List (Nat × Byte)) (new old : Geometry) : Geometry :=
  { canvasBase := takeField bytes canvasBaseField new.canvasBase old.canvasBase,
    width := takeField bytes canvasWidthField new.width old.width,
    height := takeField bytes canvasHeightField new.height old.height,
    stride := takeField bytes canvasStrideField new.stride old.stride,
    scanTag := takeField bytes scanTagField new.scanTag old.scanTag,
    ingestTag := takeField bytes ingestTagField new.ingestTag old.ingestTag,
    windowBase := takeField bytes windowBaseField new.windowBase old.windowBase,
    poolBase := takeField bytes poolBaseField new.poolBase old.poolBase,
    slotCount := takeField bytes slotCountField new.slotCount old.slotCount,
    assetBase := takeField bytes assetBaseField new.assetBase old.assetBase,
    sectorSize := takeField bytes sectorSizeField new.sectorSize old.sectorSize }

/-- The slot geometry differs (R108). -/
def slotGeometryDiffers (a b : Geometry) : Bool :=
  a.poolBase != b.poolBase || a.slotCount != b.slotCount || a.stride != b.stride ||
  a.height != b.height

/-- Geometry is taken from captures now: PASS with no GO_LIVE pending (R173). -/
def takesGeometry (s : State) : Bool :=
  s.report.mode == .pass &&
  match s.report.pendingMode with
  | some (.live, _) => false
  | _ => true

/-- The taken geometry becomes `g`; a changed slot geometry empties the ring (R108, R173). -/
def setGeometry (s : State) (g : Geometry) : State :=
  let t := { s with path := { s.path with geom := g } }
  if slotGeometryDiffers g s.path.geom then emptyRing t else t

/-- The table region offset of a write's first enabled byte there (R173). -/
def firstOffset (s : State) (w : WriteReq) : Nat :=
  match (writeBytes w).find? fun b => inRange (tableBase s) 0x100000 b.1 with
  | some b => b.1 - tableBase s
  | none => 0

/-- The capture reached a geometry field (R173). -/
def reachesGeometry (bytes : List (Nat × Byte)) : Bool :=
  geometryFields.any fun f => reaches bytes f.off f.width

/-- What follows a capture into geometry fields (R173). -/
def geometryCaptured (s : State) (w : WriteReq) (bytes : List (Nat × Byte)) : State :=
  if takesGeometry s then
    setGeometry s (takenGeometry bytes (readGeometry s.path.shadow) s.path.geom)
  else if readGeometry s.path.shadow = s.path.geom then s
  else
    raise s .tableIgnored [(0, leBytes 1 (masterTag w.id)), (4, leBytes 4 (firstOffset s w))]

/-- The bytes of one capture are merged into the shadow together (R170). -/
def mergeCapture (s : State) (bytes : List (Nat × Byte)) : State :=
  { s with path := { s.path with shadow := writeAll s.path.shadow bytes } }

/-- The sponsor entries a capture reached. -/
def reachedEntries (bytes : List (Nat × Byte)) : List Nat :=
  (List.range 32).filter fun i => reaches bytes (sponsorOffset i) 256

/-- The request words a capture completes, in ascending order (R171, R172). -/
def completedWords (bytes : List (Nat × Byte)) : List ReqWord :=
  [ReqWord.showWord, .clockWord, .sponsorWord, .replayWord, .tickerWord, .spareWord].filter fun w =>
    reaches bytes (wordOffset w + 15) 1

/-- `f` is made when the capture reached its area. -/
def reacting (reached : Bool) (f : State → State) (s : State) : State := if reached then f s else s

/-- The geometry and the clock configuration act on a merged capture (R78, R173). -/
def configReactions (s : State) (w : WriteReq) (bytes : List (Nat × Byte)) : State :=
  reacting (reaches bytes 0x240 32) clockConfigCaptured
    (reacting (reachesGeometry bytes) (fun t => geometryCaptured t w bytes) s)

/-- The score and rotation units act on a merged capture; the scores stood at `home` and `away` (R36,
R83). -/
def recordReactions (s : State) (bytes : List (Nat × Byte)) (home away : Nat) : State :=
  (reachedEntries bytes).foldl sponsorCaptured
    (reacting (reaches bytes 0x2020 32) (fun t => teamCaptured t .away away)
      (reacting (reaches bytes 0x2000 32) (fun t => teamCaptured t .home home) s))

/-- A consume capture (R187). -/
def consumeCaptured (s : State) : State :=
  raiseReport s (.consume (BitVec.ofNat 16 (readLE s.path.shadow 0x1060 2)))

/-- The report and message units act on a merged capture (R135, R187). -/
def wordReactions (s : State) (bytes : List (Nat × Byte)) : State :=
  reacting (reaches bytes 0x1070 2) tailCaptured (reacting (reaches bytes 0x1060 2) consumeCaptured s)

/-- The requests of a capture, one after another: what one has raised is taken, and a refresh that it made
due starts, before the next is taken (R172). -/
def takeRequests : List ReqWord → State → State
  | [], s => s
  | [w], s => takeRequest s w
  | w :: w' :: ws, s => takeRequests (w' :: ws) (settle (takeRequest s w))

/-- A capture: the merge, what each block does with it, the requests it completes (R170, R172). DESIGN
CHOICE (log 35): what the blocks do with the captured fields, a tail capture's tests among it, comes
before the first request. -/
def capture (s : State) (w : WriteReq) : State :=
  let bytes := captureBytes s w
  let t := mergeCapture s bytes
  let t := configReactions t w bytes
  let t := recordReactions t bytes (teamScore s.path.shadow .home) (teamScore s.path.shadow .away)
  takeRequests (completedWords bytes) (wordReactions t bytes)

/-! ### Pieces (R165) -/

/-- The downstream reads of one transaction: where each byte is fetched and for what; the pieces stand
in the order of their lowest system-side addresses. -/
def readPieces (id : BitVec 8) (dest : Nat → Purpose × Nat) (addrs : List Nat) : List DownTxn :=
  (sortByRank Prod.fst ([Purpose.program, .window, .outside].filterMap fun p =>
    match addrs.filter fun a => (dest a).1 == p with
    | [] => none
    | a :: as => some (as.foldl min a, DownTxn.fetch id p ((a :: as).map fun x => (dest x).2)))).map
      Prod.snd

/-- Issue several downstream transactions in order. -/
def issueAll (s : State) (l : List DownTxn) : State := l.foldl issue s

/-! ### Ingest writes (R99, R102, R103, R105, R165) -/

/-- The window bytes of an ingest write with their offsets in the window. -/
def windowBytes (g : Geometry) (w : WriteReq) : List (Nat × Byte) :=
  (writeBytes w).filterMap fun b => if inWindow g b.1 then some (b.1 - g.windowBase, b.2) else none

/-- The enabled bytes of an ingest write that lie outside the window. -/
def outsideBytes (g : Geometry) (w : WriteReq) : List (Nat × Byte) :=
  (writeBytes w).filter fun b => !inWindow g b.1

/-- The remapped write into slot `k` (R99). -/
def remappedWrite (g : Geometry) (w : WriteReq) (k : Nat) : DownTxn :=
  .store w.id (.ingest k) ((windowBytes g w).map fun b => (slotAddr g k b.1, b.2))

/-- The downstream writes of an ingest write into slot `k`, in address order (R99, R165). -/
def ingestPieces (g : Geometry) (w : WriteReq) (k : Nat) : List DownTxn :=
  match outsideBytes g w with
  | [] => [remappedWrite g w k]
  | b :: bs =>
    let outside : DownTxn := .store w.id .outside (b :: bs)
    if bs.foldl (fun m x => min m x.1) b.1 < g.windowBase then [outside, remappedWrite g w k]
    else [remappedWrite g w k, outside]

/-- An enabled byte lies in the first bytes of the window (R98). -/
def touchesFirst (g : Geometry) (w : WriteReq) : Bool :=
  (windowBytes g w).any fun b => decide (b.1 < 16)

/-- An enabled byte lies in the final bytes of the window (R98). -/
def touchesFinal (g : Geometry) (w : WriteReq) : Bool :=
  (windowBytes g w).any fun b => decide (canvasSize g ≤ b.1 + 16)

/-- The downstream write outside the window of an ingest write, as it is issued. -/
def outsidePiece (g : Geometry) (w : WriteReq) : Piece :=
  if (outsideBytes g w).isEmpty then .absent else .waiting

/-- An ingest write into its fill slot `k`, which is open: issue, order, commit, capture. -/
def fillWrite (s : State) (w : WriteReq) (k : Nat) : State :=
  let g := s.path.geom
  let t := issueAll s (ingestPieces g w k)
  let t := enterOrder t w.id .write (.ingest k .waiting (outsidePiece g w)) 0 1 none
  let t := if touchesFinal g w then commitFrame t k else t
  capture t w

/-- An ingest write; none when no slot can be opened (R102). -/
def ingestWrite (s : State) (w : WriteReq) : Option State :=
  (openFor s (touchesFirst s.path.geom w)).map fun x => fillWrite x.2 w x.1

/-! ### Arrivals -/

/-- A write arrives; none when it would open a frame and every slot is held (R164). -/
def arriveWrite (s : State) (w : WriteReq) : Option State :=
  match classifyWrite s w with
  | .locked j => some (blockWrite s w 0 j)
  | .partOwned => some (blockWrite s w 1 0)
  | .ingest => ingestWrite s w
  | .captured => some (capture (forwardWrite s w) w)
  | .forwarded => some (forwardWrite s w)

/-- The conditions of a composited read (R9). -/
def isComposited (s : State) (r : ReadReq) : Bool :=
  s.report.mode == .live && s.comp.plan.isSome && masterTag r.id == s.path.geom.scanTag &&
  (readBytes r).any fun b => inCanvas s.path.geom b.2

/-- A window read: in LIVE, with a byte in the window (R98, R164). -/
def isWindowRead (s : State) (r : ReadReq) : Bool :=
  s.report.mode == .live && (readBytes r).any fun b => inWindow s.path.geom b.2

/-- The slot a window byte is fetched from (R100). -/
def windowSlotNow (s : State) : Nat := (newestSlot s).getD 0

/-- Where a window byte is fetched in slot `k` (R100). -/
def windowAddr (g : Geometry) (k a : Nat) : Nat := slotAddr g k (a - g.windowBase)

/-- A read is issued as it is (R167). -/
def forwardRead (s : State) (r : ReadReq) : State :=
  enterOrder (issue s (.burst (.read r))) r.id .read .forwarded (readBytes r).length r.beats none

/-- A window read: its pieces (R100, R165). -/
def windowRead (s : State) (r : ReadReq) : State :=
  let g := s.path.geom
  let dest := fun a =>
    if inWindow g a then (Purpose.window, windowAddr g (windowSlotNow s) a) else (.outside, a)
  enterOrder (issueAll s (readPieces r.id dest ((readBytes r).map Prod.snd))) r.id .read .forwarded
    (readBytes r).length r.beats none

/-! ### Composited reads (R11 to R16) -/

/-- Where a byte of a composited read is fetched (R10, R165). -/
def compositedDest (c : CompRead) (a : Nat) : Purpose × Nat :=
  if inCanvas c.geom a then (.program, programAddr c.geom c.plan.source a)
  else if inWindow c.geom a then (.window, windowAddr c.geom c.windowSlot a)
  else (.outside, a)

/-- The pixels a read touches, each once (R11). -/
def readPixels (g : Geometry) (r : ReadReq) : List (Nat × Nat) :=
  (((readBytes r).map Prod.snd).filter (isPixelByte g)).map (pixelOf g) |>.eraseDups

/-- The byte addresses of overlay source pixels that layer `l` needs for a read (R12). -/
def neededFor (c : CompRead) (l : Nat) : List Nat :=
  ((readPixels c.geom c.req).flatMap fun xy =>
    ((covering c.plan c.geom.width c.without xy.1 xy.2).filter fun n => n.1 == l).flatMap fun n =>
      let (plate, glyph) :=
        sourceAddrs n.2.content ((xy.1 : Int) - n.2.x).toNat ((xy.2 : Int) - n.2.y).toNat
      (plate.toList ++ glyph.toList).flatMap fun a => [a, a + 1, a + 2, a + 3]) |>.eraseDups

/-- The overlay fetches of a read that it did not already need under `before`: one for each layer, layer 0
first (R12, R14; DESIGN CHOICE, log 41: R12 has them in any order). -/
def overlayFetches (before : Option CompRead) (c : CompRead) : List DownTxn :=
  (List.range 8).filterMap fun l =>
    let old := match before with
      | some b => neededFor b l
      | none => []
    match (neededFor c l).filter fun a => !old.contains a with
    | [] => none
    | a :: as => some (.fetch c.req.id (.overlay l) (a :: as))

/-- The record of a composited read that arrives under plan `p` (R11). -/
def compositedRecord (s : State) (r : ReadReq) (p : Plan) : CompRead :=
  { key := s.path.nextKey, req := r, plan := p, geom := s.path.geom, windowSlot := windowSlotNow s,
    without := p.erred, waits := true, fetched := none, failed := false }

/-- A composited read arrives: its fetches are issued (R10, R12). DESIGN CHOICE (log 41): the pieces of the
program, the window and the bytes beside it come first, then the overlay fetches; R12 has them in any order. -/
def compositedRead (s : State) (r : ReadReq) (p : Plan) : State :=
  let c := compositedRecord s r p
  let t := issueAll s
    (readPieces r.id (compositedDest c) ((readBytes r).map Prod.snd) ++ overlayFetches none c)
  let t := enterOrder t r.id .read .composited (readBytes r).length r.beats none
  { t with comp := { t.comp with reads := t.comp.reads ++ [c] } }

/-- A read arrives (R164). -/
def arriveRead (s : State) (r : ReadReq) : State :=
  match isComposited s r, s.comp.plan with
  | true, some p => compositedRead s r p
  | _, _ => if isWindowRead s r then windowRead s r else forwardRead s r

/-- The composited reads without the one of this key. -/
def dropRead (s : State) (key : Nat) : State :=
  { s with comp := { s.comp with reads := s.comp.reads.filter fun c => c.key != key } }

/-- Change the composited read of this key. -/
def modifyRead (s : State) (key : Nat) (f : CompRead → CompRead) : State :=
  { s with comp := { s.comp with
      reads := s.comp.reads.map fun c => if c.key = key then f c else c } }

/-- The covering layers of a pixel of a read (R11). -/
def readCovered (c : CompRead) (overlay : List OverlayByte) (xy : Nat × Nat) : List Covered :=
  coveredAt c.plan c.geom.width c.without overlay xy.1 xy.2

/-- The byte a composited read returns for a program byte (R11). -/
def answerByte (c : CompRead) (overlay : List OverlayByte) (a : Nat) (p : Byte) : Byte :=
  if isPixelByte c.geom a then
    pixelByte (columnByte c.geom a % 4) p (readCovered c overlay (pixelOf c.geom a))
  else p

/-- The bytes a composited read returns (R11). -/
def answerData (c : CompRead) (program : List Byte) (overlay : List OverlayByte) : List Byte :=
  (((readBytes c.req).map Prod.snd).zip program).map fun x => answerByte c overlay x.1 x.2

/-- The pixels whose R byte a read returns, each once (R16). -/
def rPixels (c : CompRead) : List (Nat × Nat) :=
  ((((readBytes c.req).map Prod.snd).filter fun a =>
    isPixelByte c.geom a && decide (columnByte c.geom a % 4 = 0)).map (pixelOf c.geom)).eraseDups

/-- The pixels of a read that count: at or beyond their line's mark (R16). -/
def countedPixels (marks : List (Nat × Nat)) (c : CompRead) : List (Nat × Nat) :=
  (rPixels c).filter fun xy => decide (lookup 0 marks xy.2 ≤ xy.1)

/-- The marks after a read (R16). -/
def movedMarks (marks : List (Nat × Nat)) (c : CompRead) : List (Nat × Nat) :=
  (rPixels c).foldl (fun m xy => put 0 m xy.2 (max (lookup 0 m xy.2) (xy.1 + 1))) marks

/-- What sponsor layer `p` gathers from a read (R17, R27). -/
def gathered (marks : List (Nat × Nat)) (c : CompRead) (overlay : List OverlayByte) (p : Nat) : Nat :=
  ((countedPixels marks c).map fun xy => weightOf p (weightsAt (readCovered c overlay xy))).sum

/-- The sums after a read (R17). -/
def addWeights (marks : List (Nat × Nat)) (c : CompRead) (overlay : List OverlayByte) :
    Nat → List Nat → List Nat
  | _, [] => []
  | p, w :: ws => (w + gathered marks c overlay p) :: addWeights marks c overlay (p + 1) ws

/-- A read is counted, if it was answered with the plan in force (R16, R17). -/
def countRead (s : State) (c : CompRead) (overlay : List OverlayByte) : State :=
  match s.comp.plan with
  | some p =>
    if p.frame = c.plan.frame then
      { s with comp := { s.comp with
          weights := addWeights s.comp.marks c overlay 0 s.comp.weights,
          marks := movedMarks s.comp.marks c } }
    else s
  | none => s

/-- The overlay bytes hold every byte the read needs. -/
def overlayComplete (c : CompRead) (overlay : List OverlayByte) : Bool :=
  (List.range 8).all fun l =>
    (neededFor c l).all fun a => overlay.any fun b => b.layer == l && b.addr == a

/-- What the read is formed from, once all its fetches have completed and no program fetch erred (R12,
R15). -/
def CompRead.ready (c : CompRead) : Option Fetched := if c.waits || c.failed then none else c.fetched

/-! ### Answers (R11, R12, R16) -/

/-- A composited read is answered: formed without the layers that are not drawn in its frame by now,
counted, returned in its place (R11, R14, R16; log 17). -/
def answerRead (s : State) (c : CompRead) (f : Fetched) : State :=
  giveAnswer (dropRead (countRead s c f.overlay) c.key) c.key
    { id := c.req.id, dir := .read, data := answerData c f.program f.overlay, status := f.status }

/-- A composited read that is answered now: its fetches have completed, and no earlier read of its tag
waits (R12, R167). -/
def readyRead (s : State) : Option (CompRead × Fetched) :=
  s.comp.reads.findSome? fun c =>
    if atHead s (.read, masterTag c.req.id) c.key then c.ready.map fun f => (c, f) else none

/-- Answer the composited reads that can be, one after another, at most `fuel` of them (R12). -/
def releaseReads : Nat → State → State
  | 0, s => s
  | fuel + 1, s =>
    match readyRead s with
    | some (c, f) => releaseReads fuel (answerRead s c f)
    | none => s

/-- Every composited read that can be answered is (R12; log 28). -/
def release (s : State) : State := releaseReads s.comp.reads.length s

/-- Give the transaction with this key its answer, then return and answer what may go. -/
def answerKey (s : State) (key : Nat) (r : UpResp) : State := release (giveAnswer s key r)

/-! ### Fetch errors and completions (R12, R14, R15) -/

/-- The composited read of this name, whose fetch a response answers (R168). -/
def servedRead (s : State) (x : ReadName) : Option CompRead :=
  (s.comp.reads.filter fun c => c.req.id == x.id)[x.nth]?

/-- A program fetch error answers the read with errors and zero data (R15). -/
def failRead (s : State) (c : CompRead) : State :=
  answerKey s c.key (errorResponse c.req.id .read (readBytes c.req).length c.req.beats)

/-- The read's program fetch is in flight and none of it has erred yet (R15). -/
def CompRead.awaitsProgram (c : CompRead) : Bool := c.waits && c.fetched.isNone && !c.failed

/-- PROGRAM_FETCH_ERROR for this composited read (R15): a further error of a read that one has answered
changes nothing. One of a read that a reset dropped is discarded (R176). DESIGN CHOICE (log 36): the read is
answered at the error, not when its other fetches have completed. -/
def programError (s : State) (read : ReadName) : State :=
  if isStale s (.composited read.id) then s
  else
    match servedRead s read with
    | some c =>
      if c.awaitsProgram then failRead (modifyRead s c.key fun x => { x with failed := true }) c else s
    | none => s

/-- The read is formed without layer `l` (R14). -/
def CompRead.dropLayer (l : Nat) (c : CompRead) : CompRead := { c with without := c.without ++ [l] }

/-- The fetches of the layers that come under the line limit of a read in the place of layer `l` (R14); a
read that a program fetch error has answered needs none. -/
def CompRead.inPlace (l : Nat) (c : CompRead) : List DownTxn :=
  if c.failed then [] else overlayFetches (some c) (c.dropLayer l)

/-- The read once layer `l` has become not drawn in its frame: formed without it, and waiting for the
fetches in its place (R12, R14). -/
def CompRead.erase (l : Nat) (c : CompRead) : CompRead :=
  { c.dropLayer l with waits := c.waits || !(c.inPlace l).isEmpty }

/-- The reads in flight after layer `l` has become not drawn in frame `f`. -/
def erasedReads (f : FrameNo) (l : Nat) (reads : List CompRead) : List CompRead :=
  reads.map fun c => if c.plan.frame = f then c.erase l else c

/-- The fetches in the place of layer `l`, for the oldest read of frame `f` first (R14; log 41). -/
def fetchesInPlace (f : FrameNo) (l : Nat) (reads : List CompRead) : List DownTxn :=
  reads.flatMap fun c => if c.plan.frame = f then c.inPlace l else []

/-- Layer `l` becomes not drawn in frame `f` alone: in its plan, if it is in force, and in every read in
flight that was to be answered with it (R14, R27; log 17). -/
def eraseLayer (s : State) (f : FrameNo) (l : Nat) : State :=
  issueAll
    { s with comp := { s.comp with
        plan := s.comp.plan.map fun p =>
          if p.frame = f then { p with erred := p.erred ++ [l] } else p,
        reads := erasedReads f l s.comp.reads } }
    (fetchesInPlace f l s.comp.reads)

/-- The byte at this address has come for this layer (R12). -/
def CompRead.has (c : CompRead) (l addr : Nat) : Bool :=
  c.fetched.any fun f => f.overlay.any fun b => b.layer == l && b.addr == addr

/-- A fetch of this byte for this layer is in flight and its bytes are wanted: a layer already not drawn in
the read's frame wants none (R14). -/
def CompRead.awaits (c : CompRead) (l addr : Nat) : Bool :=
  c.waits && !c.has l addr && (neededFor c l).contains addr

/-- OVERLAY_FETCH_ERROR for this composited read (R14): its layer becomes not drawn in the frame of that read;
where it already is, also after a later FRAME_START, nothing changes. One of a read that a reset dropped is
discarded (R176). -/
def overlayError (s : State) (read : ReadName) (l addr : Nat) : State :=
  if isStale s (.composited read.id) then s
  else
    match servedRead s read with
    | none => s
    | some c =>
      if c.awaits l addr then
        raise (eraseLayer s c.plan.frame l) .assetError [(0, leBytes 1 l), (8, leBytes 5 addr)]
      else s

/-- The read's bytes after a completion: all of them, or the overlay bytes that an error made it fetch
beside those it had (R12, R14). -/
def CompRead.gather (c : CompRead) (f : Fetched) : Fetched :=
  match c.fetched with
  | none => f
  | some g => { g with overlay := g.overlay ++ f.overlay }

/-- The bytes fit the read: one program byte for each byte, one code for each beat, every overlay byte
it needs. -/
def fetchedFits (c : CompRead) (f : Fetched) : Bool :=
  decide (f.program.length = (readBytes c.req).length) && decide (f.status.length = c.req.beats) &&
  overlayComplete c f.overlay

/-- A beat that carries a canvas byte has an error: a program fetch erred (R15). -/
def programErred (c : CompRead) (status : List Resp) : Bool :=
  (readBytes c.req).any fun b => inCanvas c.geom b.2 && respIsError (status.getD b.1 .okay)

/-- The fetches of this read have completed and returned `f` (R12, R15). -/
def completeRead (s : State) (c : CompRead) (f : Fetched) : State :=
  if c.failed then dropRead s c.key
  else if !fetchedFits c f then s
  else if programErred c f.status then failRead (dropRead s c.key) c
  else release (modifyRead s c.key fun x => { x with waits := false, fetched := some f })

/-- All fetches of this composited read have completed (R12, R15); those of one that a reset dropped are
discarded (R176). -/
def compositedAnswer (s : State) (read : ReadName) (f : Fetched) : State :=
  if isStale s (.composited read.id) then discard s (.composited read.id)
  else
    match servedRead s read with
    | none => s
    | some c => if c.waits then completeRead s c (c.gather f) else s

/-! ### Responses (R99, R106, R167) -/

/-- The entry waits for the response to its remapped write, or to the one outside the window. -/
def Entry.awaits (outside : Bool) (e : Entry) : Bool :=
  match e.kind with
  | .ingest _ remap other => (if outside then other else remap) == .waiting
  | _ => false

/-- The code an ingest write answers with, once every downstream write of it has (R99, R166). -/
def ingestCode : Piece → Piece → Option Resp
  | .answered r, .absent => some r
  | .answered r, .answered o =>
    some (if respIsError r || respIsError o then .slverr else .okay)
  | _, _ => none

/-- The pieces of this entry stand at `remap` and `other`: it is answered when both have been. -/
def setPieces (s : State) (e : Entry) (k : Nat) (remap other : Piece) : State :=
  match ingestCode remap other with
  | some code => answerKey s e.key { id := e.id, dir := .write, data := [], status := [code] }
  | none => modifyEntry s e.key fun x => { x with kind := .ingest k remap other }

/-- The memory's response to a downstream write of the oldest ingest write of this ID that waits for it;
an error of the remapped one sets its slot's write error (R99, R106). -/
def ingestResponse (s : State) (id : BitVec 8) (outside : Bool) (code : Resp) : State :=
  if isStale s (.ingest id outside) then discard s (.ingest id outside)
  else
    match oldestWaiting s fun e => e.id == id && e.awaits outside with
    | none => s
    | some e =>
      match e.kind, outside with
      | .ingest k remap _, true => setPieces s e k remap (.answered code)
      | .ingest k _ other, false =>
        setPieces (if respIsError code then markWriteError s k else s) e k (.answered code) other
      | _, _ => s

/-- The memory's response to the oldest forwarded transaction of this direction and ID (R167); one that
a reset dropped gets none upstream (R176, R178). -/
def forwardedResponse (s : State) (dir : Dir) (id : BitVec 8) (data : List Byte)
    (status : List Resp) : State :=
  if isStale s (.forwarded dir id) then discard s (.forwarded dir id)
  else
    match oldestWaiting s fun e => e.id == id && e.dir == dir && e.kind == .forwarded with
    | none => s
    | some e =>
      if data.length = e.bytes ∧ status.length = e.beats then
        answerKey s e.key { id := id, dir := dir, data := data, status := status }
      else s

/-! ### Reset (R176, R178) -/

/-- The responses to come of one transaction in flight that a reset drops. -/
def Entry.dropped (e : Entry) : List Stale :=
  match e.answer, e.kind with
  | none, .forwarded => [.forwarded e.dir e.id]
  | none, .ingest _ remap other =>
    (if remap = .waiting then [.ingest e.id false] else []) ++
    (if other = .waiting then [.ingest e.id true] else [])
  | _, _ => []

/-- What a reset drops while its response is still to come. -/
def droppedByReset (s : State) : List Stale :=
  s.path.order.flatMap Entry.dropped ++
  (s.comp.reads.filter CompRead.waits).map (fun c => .composited c.req.id) ++
  (if s.msg.fetch.isSome then [.intake] else []) ++
  (if s.report.snapshot.isSome then [.refresh] else [])

end Sys2Proof.Machine
end

