-- ==== Sys2Proof/Machine/Frame.lean ====
section
/-! DEFINITION. The handling of FRAME_START, of an advance of house time and of a TB_IN edge by the whole
part, and when the named cases of each are due (R4, R60, R61). -/

namespace Sys2Proof.Machine

/-! ### FRAME_START (R4) -/

/-- The frame counter, the sums and the mode at a FRAME_START: the state the replay unit finds (R4,
R179). -/
def frameOpened (s : State) : State := modeFrame (openFrame s)

/-- The state after the replay and score units have handled a FRAME_START. -/
def frameSourced (s : State) : State := scoreFrame (replayFrame (frameOpened s))

/-- The program source of the plan in force is a slot. -/
def planOnSlot (s : State) : Bool :=
  match s.comp.plan with
  | some p => p.source.isSlot
  | none => false

/-- The program returns to the live canvas at this FRAME_START (R56); `t` is the state the replay unit
left. -/
def returnsLive (s t : State) : Bool := planOnSlot s && !(programSource t).isSlot

/-- Every owner's handling of a FRAME_START. -/
def frameUnits (s : State) : State :=
  let t := frameSourced s
  tickerFrame (rotFrame t (handover s) (returnsLive s t))

/-- FRAME_START: the units, the plan and its lock set, the refresh that falls due (R4, R184). -/
def frameStart (s : State) : State := refreshDue (setPlan (frameUnits s)) .frameStart

/-- A running flash counts down to 0 at this FRAME_START (R86). -/
def flashEnds (s : State) : Bool :=
  (frameOpened s).report.mode == .live && s.score.flash.any fun f => decide (f.remaining ≤ 1)

/-- An entry ends by its dwell or its END mark at this FRAME_START (R45). -/
def dwellEnds (s : State) : Bool := rotSomeEnd (frameSourced s) (handover s)

/-- The entering bumper ends at this FRAME_START (R121). -/
def enteringEnds (s : State) : Bool :=
  replayAdvances (frameOpened s) && s.replay.playback == .entering && bumperDone s

/-- The leaving bumper ends at this FRAME_START (R123). -/
def leavingEnds (s : State) : Bool :=
  replayAdvances (frameOpened s) && s.replay.playback == .leaving && bumperDone s

/-- The end action is taken at this FRAME_START (R122). -/
def endActionDue (s : State) : Bool :=
  replayAdvances (frameOpened s) && s.replay.playback == .onAir && positionDone s &&
  decide ((playingClip s).outPoint ≤ s.replay.position)

/-! ### House time (R60) -/

/-- An advance of house time by one millisecond: the clock unit, then the message unit. -/
def houseAdvance (s : State) : State := expireMessages (advanceClock s)

/-- The clock unit one millisecond later. -/
def nextHouse (s : State) : ClockUnit := { s.clock with house := s.clock.house + 1 }

/-- This advance reaches the watch mark + 3 (R62). -/
def lossDue (s : State) : Bool := watchExpired (nextHouse s)

/-- This advance reaches a horn's end (R72). -/
def hornDue (s : State) : Bool :=
  let c := nextHouse s
  c.hornGame.any (fun t => reached c.house t) || c.hornShot.any fun t => reached c.house t

/-- This advance reaches a queued message's deadline (R146). -/
def expiryDue (s : State) : Bool :=
  s.msg.queue.any fun m => reached (nextHouse s).house m.deadline

/-! ### Ticks (R61) -/

/-- The arrival that carries the next tick: a TB_IN edge on EXTERNAL, an advance of house time on
INTERNAL. -/
def tickArrival (s : State) : State :=
  match s.clock.source with
  | .external => timebaseEdge s
  | .internal => houseAdvance s

/-- The next tick expires a DOWN clock (R67). -/
def gameExpiryDue (s : State) : Bool :=
  s.clock.state == .running && s.clock.config.mode == .down && tickEnds s.clock

/-- The next tick expires the shot clock (R70). -/
def shotExpiryDue (s : State) : Bool := s.clock.state == .running && tickShotExpires s.clock

/-- The next tick reaches the UP set-point (R68). -/
def setPointDue (s : State) : Bool := s.clock.state == .running && tickReachesSetPoint s.clock

/-- The next tick reaches the UP limit (R68). -/
def limitDue (s : State) : Bool :=
  s.clock.state == .running && s.clock.config.mode == .up && tickEnds s.clock

/-- The next TB_IN edge restores the timebase (R63). -/
def restoreDue (s : State) : Bool :=
  s.clock.source == .internal && decide (nextReturns s.clock = 8)

end Sys2Proof.Machine
end

