-- ==== Sys2Proof/Machine/LineCommands.lean ====
section
/-! DEFINITION. The meanings of the commands of the dedicated lines, of house time and of the part's own
starts and completions. -/

namespace Sys2Proof.Machine

/-- A command that always completes: its effect, then what it raised and a due refresh. -/
def done (s : State) : Host.Outcome State Fault Refusal := .next (settle s)

/-- A named case of a larger arrival: that arrival when the case is due, nothing otherwise (log 5). -/
def whenDue (due : Bool) (effect : State) (s : State) : Host.Outcome State Fault Refusal :=
  if due then done effect else .next s

/-- RESET_N: every block returns to its reset values, TBASE is sampled, what is in flight is dropped
(R176, R178, R189). -/
def execResetN (tbase : BitVec 8) (gate : Bool) (s : State) : Host.Outcome State Fault Refusal :=
  .next (.resetWith tbase gate (s.path.stale ++ droppedByReset s) s.pending)

/-- FRAME_START (R4). -/
def execFrameStart (s : State) : Host.Outcome State Fault Refusal := done (frameStart s)

/-- GATE_RUN_EDGE (R65). -/
def execGateRunEdge (s : State) : Host.Outcome State Fault Refusal := done (gateEdge s)

/-- SHOT_RST_EDGE (R71). -/
def execShotRstEdge (s : State) : Host.Outcome State Fault Refusal := done (loadShotReset s)

/-- TB_IN_EDGE (R61, R63). -/
def execTbInEdge (s : State) : Host.Outcome State Fault Refusal := done (timebaseEdge s)

/-- HOUSE_TIME_ADVANCE (R60). -/
def execHouseTimeAdvance (s : State) : Host.Outcome State Fault Refusal := done (houseAdvance s)

/-- TIMEBASE_LOSS (R62): the advance of house time that reaches the watch mark + 3. -/
def execTimebaseLoss (s : State) : Host.Outcome State Fault Refusal :=
  whenDue (lossDue s) (houseAdvance s) s

/-- TIMEBASE_RESTORE (R63): the edge that makes the return count 8. -/
def execTimebaseRestore (s : State) : Host.Outcome State Fault Refusal :=
  whenDue (restoreDue s) (timebaseEdge s) s

/-- HORN_END (R72): the advance of house time that reaches a horn's end. -/
def execHornEnd (s : State) : Host.Outcome State Fault Refusal :=
  whenDue (hornDue s) (houseAdvance s) s

/-- GAME_CLOCK_EXPIRY (R67): the tick that brings a DOWN clock to 0. -/
def execGameClockExpiry (s : State) : Host.Outcome State Fault Refusal :=
  whenDue (gameExpiryDue s) (tickArrival s) s

/-- SHOT_CLOCK_EXPIRY (R70): the tick that brings a running shot clock to 0. -/
def execShotClockExpiry (s : State) : Host.Outcome State Fault Refusal :=
  whenDue (shotExpiryDue s) (tickArrival s) s

/-- UP_SET_POINT_REACHED (R68): the tick that brings an UP clock to its set-point. -/
def execUpSetPointReached (s : State) : Host.Outcome State Fault Refusal :=
  whenDue (setPointDue s) (tickArrival s) s

/-- UP_LIMIT (R68): the tick at the UP limit. -/
def execUpLimit (s : State) : Host.Outcome State Fault Refusal :=
  whenDue (limitDue s) (tickArrival s) s

/-- MESSAGE_EXPIRY (R146): the advance of house time that reaches a deadline. -/
def execMessageExpiry (s : State) : Host.Outcome State Fault Refusal :=
  whenDue (expiryDue s) (houseAdvance s) s

/-- FLASH_END (R86): the FRAME_START at which the flash has had its frames. -/
def execFlashEnd (s : State) : Host.Outcome State Fault Refusal :=
  whenDue (flashEnds s) (frameStart s) s

/-- STACK_ENTRY_DWELL_END (R45): the FRAME_START at which a top entry ends. -/
def execStackEntryDwellEnd (s : State) : Host.Outcome State Fault Refusal :=
  whenDue (dwellEnds s) (frameStart s) s

/-- ENTERING_BUMPER_END (R121): the FRAME_START at which the clip goes to air. -/
def execEnteringBumperEnd (s : State) : Host.Outcome State Fault Refusal :=
  whenDue (enteringEnds s) (frameStart s) s

/-- LEAVING_BUMPER_END (R123): the FRAME_START at which the program returns to live. -/
def execLeavingBumperEnd (s : State) : Host.Outcome State Fault Refusal :=
  whenDue (leavingEnds s) (frameStart s) s

/-- CLIP_END_ACTION (R122): the FRAME_START at which the out-frame has had its frames. -/
def execClipEndAction (s : State) : Host.Outcome State Fault Refusal :=
  whenDue (endActionDue s) (frameStart s) s

/-- INTAKE_FETCH_START (R137): the fetch start test. -/
def execIntakeFetchStart (s : State) : Host.Outcome State Fault Refusal := done (fetchStart s)

/-- INTAKE_FETCH_COMPLETE (R138): nothing when no fetch is in flight or a fetch without error returned
other than 256 bytes (log 5); the completion of a fetch that a reset dropped is discarded (R176). -/
def execIntakeFetchComplete (error : Bool) (data : List Byte) (s : State) :
    Host.Outcome State Fault Refusal :=
  if isStale s .intake then .next (discard s .intake)
  else
    match s.msg.fetch with
    | none => .next s
    | some r => whenDue (error || decide (data.length = 256)) (completeFetch s r error data) s

/-- STATUS_REFRESH_START (R184): an IDLE report unit starts the refresh that is due. -/
def execStatusRefreshStart (s : State) : Host.Outcome State Fault Refusal := .next (refreshStart s)

/-- STATUS_REFRESH_COMPLETE (R184): the responses to the refresh's writes have returned. -/
def execStatusRefreshComplete (s : State) : Host.Outcome State Fault Refusal :=
  done (refreshComplete s)

end Sys2Proof.Machine
end

