-- ==== Sys2Proof/Machine/TrafficCommands.lean ====
section
/-! DEFINITION. The meanings of the commands that are transactions and responses on the two ports. An
arrival is classed by the part itself, whatever the row that names it (R164; log 5). -/

namespace Sys2Proof.Machine

/-- What an arrival comes to: the fault of an ingest write that finds every slot held, or its effect. -/
def settled (r : Option State) : Host.Outcome State Fault Refusal :=
  match r with
  | some t => done t
  | none => .fault .noUnheldSlot

/-- A write at the system-side port. -/
def arriving (w : WriteReq) (s : State) : Host.Outcome State Fault Refusal :=
  if legalWrite w then settled (arriveWrite s w) else .refused .illegalBurst

/-- A read at the system-side port. -/
def reading (r : ReadReq) (s : State) : Host.Outcome State Fault Refusal :=
  if legalRead r then done (arriveRead s r) else .refused .illegalBurst

/-- COMPOSITED_READ (R9 to R12). -/
def execCompositedRead (r : ReadReq) (s : State) : Host.Outcome State Fault Refusal := reading r s

/-- COMPOSITED_READ_ANSWER (R11, R12, R16, R17). -/
def execCompositedReadAnswer (read : ReadName) (program : List Byte) (overlay : List OverlayByte)
    (status : List Resp) (s : State) : Host.Outcome State Fault Refusal :=
  done (compositedAnswer s read { program := program, overlay := overlay, status := status })

/-- OVERLAY_FETCH_ERROR (R14). -/
def execOverlayFetchError (read : ReadName) (layer addr : Nat) (s : State) :
    Host.Outcome State Fault Refusal := done (overlayError s read layer addr)

/-- PROGRAM_FETCH_ERROR (R15). -/
def execProgramFetchError (read : ReadName) (s : State) : Host.Outcome State Fault Refusal :=
  done (programError s read)

/-- INGEST_WRITE (R99 to R105). -/
def execIngestWrite (w : WriteReq) (s : State) : Host.Outcome State Fault Refusal := arriving w s

/-- INGEST_WRITE_RESPONSE (R99, R106). -/
def execIngestWriteResponse (id : BitVec 8) (outside : Bool) (code : Resp) (s : State) :
    Host.Outcome State Fault Refusal := done (ingestResponse s id outside code)

/-- WINDOW_READ (R100). -/
def execWindowRead (r : ReadReq) (s : State) : Host.Outcome State Fault Refusal := reading r s

/-- BLOCKED_WRITE (R174). -/
def execBlockedWrite (w : WriteReq) (s : State) : Host.Outcome State Fault Refusal := arriving w s

/-- PART_OWNED_WRITE (R175). -/
def execPartOwnedWrite (w : WriteReq) (s : State) : Host.Outcome State Fault Refusal := arriving w s

/-- CAPTURED_WRITE (R170). -/
def execCapturedWrite (w : WriteReq) (s : State) : Host.Outcome State Fault Refusal := arriving w s

/-- FORWARDED_TRANSACTION (R167). -/
def execForwardedTransaction (t : Txn) (s : State) : Host.Outcome State Fault Refusal :=
  match t with
  | .read r => reading r s
  | .write w => arriving w s

/-- FORWARDED_RESPONSE (R167). -/
def execForwardedResponse (dir : Dir) (id : BitVec 8) (data : List Byte) (status : List Resp)
    (s : State) : Host.Outcome State Fault Refusal := done (forwardedResponse s dir id data status)

/-- GEOMETRY_CAPTURE (R173). -/
def execGeometryCapture (w : WriteReq) (s : State) : Host.Outcome State Fault Refusal := arriving w s

/-- TEAM_RECORD_CAPTURE (R82, R83). -/
def execTeamRecordCapture (w : WriteReq) (s : State) : Host.Outcome State Fault Refusal :=
  arriving w s

/-- SPONSOR_ENTRY_CAPTURE (R36). -/
def execSponsorEntryCapture (w : WriteReq) (s : State) : Host.Outcome State Fault Refusal :=
  arriving w s

/-- CLOCK_CONFIG_CAPTURE (R78). -/
def execClockConfigCapture (w : WriteReq) (s : State) : Host.Outcome State Fault Refusal :=
  arriving w s

/-- INTAKE_TAIL_CAPTURE (R135). -/
def execIntakeTailCapture (w : WriteReq) (s : State) : Host.Outcome State Fault Refusal :=
  arriving w s

/-- NOTICE_CONSUME_CAPTURE (R187). -/
def execNoticeConsumeCapture (w : WriteReq) (s : State) : Host.Outcome State Fault Refusal :=
  arriving w s

end Sys2Proof.Machine
end

