-- ==== Sys2Proof/Machine/RequestCommands.lean ====
section
/-! DEFINITION. The meanings of the commands that are requests: the write of a whole request word by one
16-byte beat, captured like any other, and the request taken from it (R171; log 5). -/

namespace Sys2Proof.Machine

/-- The 16 bytes of a request word: code, parameters, byte 14, tag (ch. 12.4). -/
def wordBytes (code : Byte) (params : List Byte) (tag : Byte) : List Byte :=
  code :: padTo 13 params ++ [0, tag]

/-- The write that carries a whole request word. -/
def wordWrite (s : State) (id : BitVec 8) (w : ReqWord) (bytes : List Byte) : WriteReq :=
  { id := id, addr := tableBase s + wordOffset w, burst := .incr, size := 4,
    beats := [bytes.map some] }

/-- A request word is written whole. -/
def asking (id : BitVec 8) (w : ReqWord) (code : Byte) (params : List Byte) (tag : Byte) (s : State) :
    Host.Outcome State Fault Refusal :=
  settled (arriveWrite s (wordWrite s id w (wordBytes code params tag)))

/-- GO_LIVE (R180, R181). -/
def execGoLive (id : BitVec 8) (tag : Byte) (s : State) :
    Host.Outcome State Fault Refusal :=
  asking id .showWord 1 [] tag s

/-- GO_PASS (R181). -/
def execGoPass (id : BitVec 8) (tag : Byte) (s : State) :
    Host.Outcome State Fault Refusal :=
  asking id .showWord 2 [] tag s

/-- CLEAR_GAME (R80, R88). -/
def execClearGame (id : BitVec 8) (tag : Byte) (s : State) :
    Host.Outcome State Fault Refusal :=
  asking id .showWord 3 [] tag s

/-- CLEAR_EXPOSURE (R37). -/
def execClearExposure (id : BitVec 8) (tag : Byte) (s : State) :
    Host.Outcome State Fault Refusal :=
  asking id .showWord 4 [] tag s

/-- RUN_ENABLE (R73). -/
def execRunEnable (id : BitVec 8) (tag : Byte) (s : State) :
    Host.Outcome State Fault Refusal :=
  asking id .clockWord 1 [] tag s

/-- RUN_DISABLE (R73). -/
def execRunDisable (id : BitVec 8) (tag : Byte) (s : State) :
    Host.Outcome State Fault Refusal :=
  asking id .clockWord 2 [] tag s

/-- SET (R74). -/
def execClockSet (id : BitVec 8) (tag : Byte) (v : BitVec 32) (s : State) :
    Host.Outcome State Fault Refusal :=
  asking id .clockWord 3 (leBytes 4 v.toNat) tag s

/-- ADJUST (R75). -/
def execClockAdjust (id : BitVec 8) (tag : Byte) (delta : BitVec 32) (s : State) :
    Host.Outcome State Fault Refusal :=
  asking id .clockWord 4 (leBytes 4 delta.toNat) tag s

/-- PERIOD_NEXT (R76). -/
def execPeriodNext (id : BitVec 8) (tag : Byte) (s : State) :
    Host.Outcome State Fault Refusal :=
  asking id .clockWord 5 [] tag s

/-- SHOT_RESET (R71). -/
def execShotReset (id : BitVec 8) (tag : Byte) (s : State) :
    Host.Outcome State Fault Refusal :=
  asking id .clockWord 6 [] tag s

/-- SHOT_SET (R77). -/
def execShotSet (id : BitVec 8) (tag : Byte) (v : BitVec 32) (s : State) :
    Host.Outcome State Fault Refusal :=
  asking id .clockWord 7 (leBytes 4 v.toNat) tag s

/-- SHOT_ENABLE (R77). -/
def execShotEnable (id : BitVec 8) (tag : Byte) (s : State) :
    Host.Outcome State Fault Refusal :=
  asking id .clockWord 8 [] tag s

/-- SHOT_DISABLE (R77). -/
def execShotDisable (id : BitVec 8) (tag : Byte) (s : State) :
    Host.Outcome State Fault Refusal :=
  asking id .clockWord 9 [] tag s

/-- HORN (R72). -/
def execHorn (id : BitVec 8) (tag : Byte) (ms : BitVec 16) (s : State) :
    Host.Outcome State Fault Refusal :=
  asking id .clockWord 10 (leBytes 2 ms.toNat) tag s

/-- SPOT (R51). -/
def execSpot (id : BitVec 8) (tag : Byte) (sponsor placement : Byte) (dwell : BitVec 16) (creative : Byte) (s : State) :
    Host.Outcome State Fault Refusal :=
  asking id .sponsorWord 1 ([sponsor, placement, 0] ++ leBytes 2 dwell.toNat ++ [0, 0, creative]) tag s

/-- SET_LOWEST (R52). -/
def execSetLowest (id : BitVec 8) (tag : Byte) (sponsor placement : Byte) (s : State) :
    Host.Outcome State Fault Refusal :=
  asking id .sponsorWord 2 ([sponsor, placement]) tag s

/-- END (R53). -/
def execEndEntry (id : BitVec 8) (tag : Byte) (placement : Byte) (s : State) :
    Host.Outcome State Fault Refusal :=
  asking id .sponsorWord 3 ([0, placement]) tag s

/-- SUSPEND (R54). -/
def execSuspend (id : BitVec 8) (tag : Byte) (sponsor : Byte) (s : State) :
    Host.Outcome State Fault Refusal :=
  asking id .sponsorWord 4 ([sponsor]) tag s

/-- SPONSOR_RESUME (R54). -/
def execSponsorResume (id : BitVec 8) (tag : Byte) (sponsor : Byte) (s : State) :
    Host.Outcome State Fault Refusal :=
  asking id .sponsorWord 5 ([sponsor]) tag s

/-- ARM (R113, R114). -/
def execArm (id : BitVec 8) (tag : Byte) (clip rate flags : Byte) (inPoint outPoint : BitVec 32)
    (bumperFrames bumperIndex : Byte) (s : State) :
    Host.Outcome State Fault Refusal :=
  asking id .replayWord 1 ([clip, rate, flags] ++ leBytes 4 inPoint.toNat ++ leBytes 4 outPoint.toNat ++
      [bumperFrames, bumperIndex]) tag s

/-- DISARM (R115). -/
def execDisarm (id : BitVec 8) (tag : Byte) (clip : Byte) (s : State) :
    Host.Outcome State Fault Refusal :=
  asking id .replayWord 2 ([clip]) tag s

/-- RESET_RING (R116). -/
def execResetRing (id : BitVec 8) (tag : Byte) (s : State) :
    Host.Outcome State Fault Refusal :=
  asking id .replayWord 3 [] tag s

/-- PLAY (R127). -/
def execPlay (id : BitVec 8) (tag : Byte) (clip : Byte) (s : State) :
    Host.Outcome State Fault Refusal :=
  asking id .replayWord 4 ([clip]) tag s

/-- FREEZE (R129). -/
def execFreeze (id : BitVec 8) (tag : Byte) (s : State) :
    Host.Outcome State Fault Refusal :=
  asking id .replayWord 5 [] tag s

/-- REPLAY_RESUME (R129). -/
def execReplayResume (id : BitVec 8) (tag : Byte) (s : State) :
    Host.Outcome State Fault Refusal :=
  asking id .replayWord 6 [] tag s

/-- STEP (R130). -/
def execStepReplay (id : BitVec 8) (tag : Byte) (direction : Byte) (s : State) :
    Host.Outcome State Fault Refusal :=
  asking id .replayWord 7 ([direction]) tag s

/-- TAKE_LIVE (R131). -/
def execTakeLive (id : BitVec 8) (tag : Byte) (s : State) :
    Host.Outcome State Fault Refusal :=
  asking id .replayWord 8 [] tag s

/-- PURGE (R149). -/
def execPurge (id : BitVec 8) (tag : Byte) (s : State) :
    Host.Outcome State Fault Refusal :=
  asking id .tickerWord 1 [] tag s

/-- PAUSE (R161). -/
def execPause (id : BitVec 8) (tag : Byte) (s : State) :
    Host.Outcome State Fault Refusal :=
  asking id .tickerWord 2 [] tag s

/-- TICKER_RESUME (R161). -/
def execTickerResume (id : BitVec 8) (tag : Byte) (s : State) :
    Host.Outcome State Fault Refusal :=
  asking id .tickerWord 3 [] tag s

/-- SPARE_REQUEST (R182). -/
def execSpareRequest (id : BitVec 8) (tag : Byte) (code : Byte) (s : State) :
    Host.Outcome State Fault Refusal :=
  asking id .spareWord code [] tag s

/-- The request word a coded word is. -/
def codedWord : CodedWord → ReqWord
  | .showWord => .showWord
  | .clockWord => .clockWord
  | .sponsorWord => .sponsorWord
  | .replayWord => .replayWord
  | .tickerWord => .tickerWord

/-- UNKNOWN_REQUEST_CODE (R190). -/
def execUnknownRequestCode (id : BitVec 8) (tag : Byte) (word : CodedWord) (code : Byte) (s : State) :
    Host.Outcome State Fault Refusal :=
  asking id (codedWord word) code [] tag s

end Sys2Proof.Machine
end

