-- ==== Sys2Proof/Machine/Dispatch.lean ====
section
/-! DEFINITION. exec: one arm per command, each a direct call of its meaning. -/

namespace Sys2Proof.Machine

def exec (i : Instr) (s : State) : Host.Outcome State Fault Refusal :=
  match i with
  | .resetN tbase gate => Sys2Proof.Machine.execResetN tbase gate s
  | .frameStart => Sys2Proof.Machine.execFrameStart s
  | .gateRunEdge => Sys2Proof.Machine.execGateRunEdge s
  | .shotRstEdge => Sys2Proof.Machine.execShotRstEdge s
  | .tbInEdge => Sys2Proof.Machine.execTbInEdge s
  | .houseTimeAdvance => Sys2Proof.Machine.execHouseTimeAdvance s
  | .timebaseLoss => Sys2Proof.Machine.execTimebaseLoss s
  | .timebaseRestore => Sys2Proof.Machine.execTimebaseRestore s
  | .hornEnd => Sys2Proof.Machine.execHornEnd s
  | .gameClockExpiry => Sys2Proof.Machine.execGameClockExpiry s
  | .shotClockExpiry => Sys2Proof.Machine.execShotClockExpiry s
  | .upSetPointReached => Sys2Proof.Machine.execUpSetPointReached s
  | .upLimit => Sys2Proof.Machine.execUpLimit s
  | .messageExpiry => Sys2Proof.Machine.execMessageExpiry s
  | .flashEnd => Sys2Proof.Machine.execFlashEnd s
  | .stackEntryDwellEnd => Sys2Proof.Machine.execStackEntryDwellEnd s
  | .enteringBumperEnd => Sys2Proof.Machine.execEnteringBumperEnd s
  | .leavingBumperEnd => Sys2Proof.Machine.execLeavingBumperEnd s
  | .clipEndAction => Sys2Proof.Machine.execClipEndAction s
  | .compositedRead r => Sys2Proof.Machine.execCompositedRead r s
  | .compositedReadAnswer read program overlay status => Sys2Proof.Machine.execCompositedReadAnswer read program overlay status s
  | .overlayFetchError read layer addr => Sys2Proof.Machine.execOverlayFetchError read layer addr s
  | .programFetchError read => Sys2Proof.Machine.execProgramFetchError read s
  | .ingestWrite w => Sys2Proof.Machine.execIngestWrite w s
  | .ingestWriteResponse id outside code => Sys2Proof.Machine.execIngestWriteResponse id outside code s
  | .windowRead r => Sys2Proof.Machine.execWindowRead r s
  | .blockedWrite w => Sys2Proof.Machine.execBlockedWrite w s
  | .partOwnedWrite w => Sys2Proof.Machine.execPartOwnedWrite w s
  | .capturedWrite w => Sys2Proof.Machine.execCapturedWrite w s
  | .forwardedTransaction t => Sys2Proof.Machine.execForwardedTransaction t s
  | .forwardedResponse dir id data status => Sys2Proof.Machine.execForwardedResponse dir id data status s
  | .geometryCapture w => Sys2Proof.Machine.execGeometryCapture w s
  | .teamRecordCapture w => Sys2Proof.Machine.execTeamRecordCapture w s
  | .sponsorEntryCapture w => Sys2Proof.Machine.execSponsorEntryCapture w s
  | .clockConfigCapture w => Sys2Proof.Machine.execClockConfigCapture w s
  | .intakeTailCapture w => Sys2Proof.Machine.execIntakeTailCapture w s
  | .noticeConsumeCapture w => Sys2Proof.Machine.execNoticeConsumeCapture w s
  | .goLive id tag => Sys2Proof.Machine.execGoLive id tag s
  | .goPass id tag => Sys2Proof.Machine.execGoPass id tag s
  | .clearGame id tag => Sys2Proof.Machine.execClearGame id tag s
  | .clearExposure id tag => Sys2Proof.Machine.execClearExposure id tag s
  | .spareRequest id tag code => Sys2Proof.Machine.execSpareRequest id tag code s
  | .runEnable id tag => Sys2Proof.Machine.execRunEnable id tag s
  | .runDisable id tag => Sys2Proof.Machine.execRunDisable id tag s
  | .clockSet id tag v => Sys2Proof.Machine.execClockSet id tag v s
  | .clockAdjust id tag delta => Sys2Proof.Machine.execClockAdjust id tag delta s
  | .periodNext id tag => Sys2Proof.Machine.execPeriodNext id tag s
  | .shotReset id tag => Sys2Proof.Machine.execShotReset id tag s
  | .shotSet id tag v => Sys2Proof.Machine.execShotSet id tag v s
  | .shotEnable id tag => Sys2Proof.Machine.execShotEnable id tag s
  | .shotDisable id tag => Sys2Proof.Machine.execShotDisable id tag s
  | .horn id tag ms => Sys2Proof.Machine.execHorn id tag ms s
  | .spot id tag sponsor placement dwell creative => Sys2Proof.Machine.execSpot id tag sponsor placement dwell creative s
  | .setLowest id tag sponsor placement => Sys2Proof.Machine.execSetLowest id tag sponsor placement s
  | .endEntry id tag placement => Sys2Proof.Machine.execEndEntry id tag placement s
  | .suspend id tag sponsor => Sys2Proof.Machine.execSuspend id tag sponsor s
  | .sponsorResume id tag sponsor => Sys2Proof.Machine.execSponsorResume id tag sponsor s
  | .arm id tag clip rate flags inPoint outPoint bumperFrames bumperIndex => Sys2Proof.Machine.execArm id tag clip rate flags inPoint outPoint bumperFrames bumperIndex s
  | .disarm id tag clip => Sys2Proof.Machine.execDisarm id tag clip s
  | .resetRing id tag => Sys2Proof.Machine.execResetRing id tag s
  | .play id tag clip => Sys2Proof.Machine.execPlay id tag clip s
  | .freeze id tag => Sys2Proof.Machine.execFreeze id tag s
  | .replayResume id tag => Sys2Proof.Machine.execReplayResume id tag s
  | .stepReplay id tag direction => Sys2Proof.Machine.execStepReplay id tag direction s
  | .takeLive id tag => Sys2Proof.Machine.execTakeLive id tag s
  | .purge id tag => Sys2Proof.Machine.execPurge id tag s
  | .pause id tag => Sys2Proof.Machine.execPause id tag s
  | .tickerResume id tag => Sys2Proof.Machine.execTickerResume id tag s
  | .intakeFetchStart => Sys2Proof.Machine.execIntakeFetchStart s
  | .intakeFetchComplete error data => Sys2Proof.Machine.execIntakeFetchComplete error data s
  | .statusRefreshStart => Sys2Proof.Machine.execStatusRefreshStart s
  | .statusRefreshComplete => Sys2Proof.Machine.execStatusRefreshComplete s
  | .unknownRequestCode id tag word code => Sys2Proof.Machine.execUnknownRequestCode id tag word code s

end Sys2Proof.Machine
end

