-- ==== Sys2Proof/Safety.lean ====
section
/-! DEFINITION. What the claims speak of: states between commands, what settling sets aside, the
forms the statements share, and the invariants that every command keeps. -/

namespace Sys2Proof.Machine

/-! ### Between commands -/

/-- Nothing raised is left untaken, and no refresh that is due waits on an IDLE report unit. -/
def Quiet (s : State) : Prop :=
  s.report.raised = [] ∧ (s.report.held = none ∨ s.report.snapshot.isSome = true)

/-- The state without what the report unit does at the end of a command: the notice ring, the refresh,
the downstream record. -/
def aside (s : State) : State :=
  { s with
    path := { s.path with issued := [] },
    report := { s.report with
      snapshot := none, held := none, refreshCount := 0, ring := [], produce := 0, consume := 0,
      raised := [], draws := 0 } }

/-- The commands at whose arrival a frame may begin: FRAME_START and its named cases. -/
def beginsFrame : Instr → Bool
  | .frameStart => true
  | .flashEnd => true
  | .stackEntryDwellEnd => true
  | .enteringBumperEnd => true
  | .leavingBumperEnd => true
  | .clipEndAction => true
  | _ => false

/-- The command is RESET_N. -/
def isReset : Instr → Bool
  | .resetN _ _ => true
  | _ => false

/-! ### Requests -/

/-- The write of this whole request word is of the captured class. -/
def WordCaptured (s : State) (id : BitVec 8) (w : ReqWord) : Prop :=
  ∀ bytes : List Byte, bytes.length = 16 → classifyWrite s (wordWrite s id w bytes) = .captured

/-- The bytes of a whole request word with their table region offsets. -/
def wordCells (w : ReqWord) (bytes : List Byte) : List (Nat × Byte) :=
  (List.range' (wordOffset w) 16).zip bytes

/-- The state in which the request of a whole-word write is taken: the write issued and in its place in
the response order, its bytes merged. -/
def wordTaken (s : State) (id : BitVec 8) (w : ReqWord) (bytes : List Byte) : State :=
  mergeCapture (forwardWrite s (wordWrite s id w bytes)) (wordCells w bytes)

/-- The state after a request taken with this outcome, given the state its effect left. -/
def recorded (t : State) (w : ReqWord) (tag : Byte) (o : ReqOutcome) (waits : Bool) : State :=
  setOutcomeRow t w (pushPlace { tag := tag, outcome := some o, mark := waits })

/-- A request command is followed in full: nothing waits to settle, the shadow is canonical, the
write of the word is captured. -/
def WordReady (s : State) (id : BitVec 8) (w : ReqWord) : Prop :=
  Quiet s ∧ Memory.wf s.path.shadow = true ∧ WordCaptured s id w

/-- The state in which a request command's request is taken. -/
@[irreducible] def asked (s : State) (id : BitVec 8) (w : ReqWord) (code : Byte) (params : List Byte) (tag : Byte) :
    State := wordTaken s id w (wordBytes code params tag)

/-- The state after a refused request: its outcome recorded, REQUEST_REFUSED taken with this value and
byte offset of the offending parameter (R183; ch. 12.6). -/
def refusedWith (t : State) (w : ReqWord) (tag code : Byte) (o : ReqOutcome) (value offset : Nat) :
    State :=
  takeOccurrence (recorded t w tag o false) .requestRefused
    (layout 16 [(0, leBytes 1 w.code), (1, [tag]), (2, [code]), (3, leBytes 1 o.code),
      (4, leBytes 4 value), (8, leBytes 1 offset)])

/-- A clock unit that has just started with this cause (R66). -/
def started (c : ClockUnit) (frame : FrameNo) (cause : ClockCause) : ClockUnit :=
  { c with
    state := .running, watch := some c.house,
    startRec := { house := c.house, frame := frame, value := c.value, cause := cause } }

/-- A clock unit that has just left RUNNING with this cause (R66). -/
def stopped (c : ClockUnit) (frame : FrameNo) (target : GameState) (cause : ClockCause) : ClockUnit :=
  { c with
    state := target,
    stopRec := { house := c.house, frame := frame, value := c.value, cause := cause } }

/-- A clock unit that a configuration has just been taken into, with the run condition evaluated where a
changed gate override, or a change to UP out of EXPIRED, asks for it (R64, R68, R78). -/
def configured (gate : Bool) (frame : FrameNo) (new : ClockConfig) (c : ClockUnit) : ClockUnit :=
  let leaves := new.mode ≠ c.config.mode ∧ new.mode = .up ∧ c.state = .expired
  let t : ClockUnit := { c with
    config := new, configPending := false,
    added := if new.mode ≠ c.config.mode ∨ new.setPoint ≠ c.config.setPoint
      then decide (new.mode = .up ∧ new.setPoint ≤ c.value) else c.added,
    state := if leaves then .stopped else c.state }
  if (new.gateOverride ≠ c.config.gateOverride ∨ leaves) ∧ t.state = .stopped ∧ c.soft = true ∧
      (gate = true ∨ new.gateOverride = true) then
    if new.mode = .down ∧ c.value = 0 then { t with state := .expired } else started t frame .soft
  else t

/-- A clock unit that has just left RUNNING with this cause, a pending configuration taken (R66, R78). -/
def stoppedConfigured (s : State) (gate : Bool) (c : ClockUnit) (target : GameState)
    (cause : ClockCause) : ClockUnit :=
  if s.clock.configPending then
    configured gate s.comp.frame (readClockConfig s.path.shadow) (stopped c s.comp.frame target cause)
  else stopped c s.comp.frame target cause

/-- The end of a command that stopped the clock: CLOCK_STOPPED is taken with the value and the period
of the stop, and the refresh that fell due starts if the report unit is IDLE (R66, R184). What refreshDue and
refreshStart make of it is stated by StatusRefreshWritesThePage; before the first FRAME_START it is nothing
(log 31). -/
def stopReported (t : State) (cause : ClockCause) (period value : Nat) : State :=
  refreshStart (takeOccurrence (refreshDue t .clockStop) .clockStopped
    (layout 16 [(0, leBytes 1 cause.code), (1, leBytes 1 period), (4, leBytes 4 value)]))

/-- The clock unit at the arrival that carries a tick: a TB_IN edge on EXTERNAL, which is the new watch
mark, an advance of house time on INTERNAL (R61, R62). -/
def tickCarried (c : ClockUnit) : ClockUnit :=
  match c.source with
  | .external => { c with watch := some c.house }
  | .internal => { c with house := c.house + 1 }

/-- The arrival that carries a tick carries nothing else: on INTERNAL, the advance of house time ends no
horn and expires no message. -/
def OnlyATick (s : State) : Prop :=
  s.clock.source = .external ∨ (hornDue s = false ∧ expiryDue s = false)

/-- The shot clock after a tick of the game clock that does not expire it (R70). -/
def shotTicked (c : ClockUnit) : Nat := if c.shotOn then c.shotValue - 1 else c.shotValue

/-- A tick does not expire the shot clock (R70). -/
def ShotRunsOn (c : ClockUnit) : Prop := c.shotOn = false ∨ c.shotValue ≠ 1

/-- The mode in force after the next FRAME_START: the pending one, which waits while no plan is in force,
for frame 1 is in PASS (R179, R20, R31, R189; log 30). -/
def modeAhead (s : State) : Mode :=
  match s.comp.plan with
  | none => s.report.mode
  | some _ => (s.report.pendingMode.map Prod.fst).getD s.report.mode

/-- The replay unit advances at the next FRAME_START: LIVE mode, no cut, no waiting request (R120). -/
def AdvanceAhead (s : State) : Prop :=
  modeAhead s = .live ∧ s.replay.cutPending = false ∧ s.replay.waiting = none

/-- Two occurrences that one command raised, taken in one order or the other (R186). -/
def takenInSomeOrder (t u : State) (a b : NoticeKind × List Byte) : Prop :=
  let x := { t with report := { t.report with draws := t.report.draws + 1 } }
  u = refreshStart (takeOccurrence (takeOccurrence x a.1 a.2) b.1 b.2) ∨
  u = refreshStart (takeOccurrence (takeOccurrence x b.1 b.2) a.1 a.2)

/-- The occurrences that one command raised, taken in one order or another (R186). -/
def takenInAnyOrder (t u : State) (l : List (NoticeKind × List Byte)) : Prop :=
  ∃ order, l.Perm order ∧ u = refreshStart (order.foldl (fun x o => takeOccurrence x o.1 o.2)
    { t with report := { t.report with draws := t.report.draws + 1 } })

/-- The ring holds an unconsumed record of this kind, taken at the moment of this state (R186). -/
def Noticed (t : State) (kind : NoticeKind) (detail : List Byte → Prop) : Prop :=
  ∃ x ∈ t.report.ring, x.kind = some kind ∧ unconsumed t.report x.number = true ∧
    x.frame = t.comp.frame ∧ x.house = t.clock.house ∧ detail x.detail

/-- The count of the unconsumed record of this kind, 0 where there is none (R186). -/
def countOf (r : ReportUnit) (kind : NoticeKind) : Nat :=
  match recordOf r kind with
  | some i => (r.ring.getD i .zero).count
  | none => 0

/-- The creative descriptor ranges (R5). -/
def CreativeOk (d : Descriptor) : Prop :=
  1 ≤ d.width ∧ d.width ≤ 4096 ∧ 1 ≤ d.height ∧ d.height ≤ 4096 ∧ d.stride % 16 = 0 ∧
  d.width * 4 ≤ d.stride

/-- The byte lies in the span a creative of this address, stride, width and height occupies (R18). -/
def occupies (addr stride w h a : Nat) : Prop := addr ≤ a ∧ a < addr + stride * (h - 1) + w * 4

/-! ### Stacks at a FRAME_START -/

/-- The stack of placement `q` that steps 3 to 6 of a LIVE FRAME_START leave: empty where the layer is
disabled, where the binding has changed, or where a bound placement meets the return to the live canvas;
else without the entries of SUSPENDED sponsors and without the top entry that ends, a top entry that stays
having lost a frame (R44, R45, R56, R58). -/
def stackAfterEnds (s : State) (returned : Bool) (q : Nat) : List StackEntry :=
  let m := s.path.shadow
  let old := placementAt s q
  let suspended := fun (e : StackEntry) => e.sponsor.any (sponsorSuspended m)
  let kept := old.stack.filter fun e => !suspended e
  let stays := old.stack.getLast?.any fun e => !suspended e
  if layerEnable m q = false ∨ (readPlacement m q).bound ≠ old.fields.bound then []
  else if returned = true ∧ (readPlacement m q).bound = true then []
  else
    match kept.getLast? with
    | none => []
    | some e =>
      if e.kind ≠ .replay ∧ (e.endMark = true ∨ (stays = true ∧ e.dwell.any (decide <| · ≤ 1) = true))
      then kept.dropLast
      else if stays = true then kept.dropLast ++ [{ e with dwell := e.dwell.map (· - 1) }]
      else kept

/-! ### Composited reads in flight -/

/-- How many of these reads have this ID. -/
def readsOf (id : BitVec 8) (reads : List CompRead) : Nat :=
  (reads.filter fun x => x.req.id == id).length

/-- The name of a read in flight behind these older ones (R168). -/
def named (c : CompRead) (older : List CompRead) : ReadName :=
  { id := c.req.id, nth := readsOf c.req.id older }

/-! ### Pixels of a layer -/

/-- The text of these codes, its first pen at `pen` and its top row at `top`, places the atlas pixel at
address `a` on layer pixel (x, y): the pixel falls inside the advance of a glyph that draws (R90, R96,
R162). -/
def GlyphAt (atlas : Atlas) (codes : List Nat) (pen : Int) (top x y a : Nat) : Prop :=
  ∃ before g after gx gy, codes = before ++ g :: after ∧ gx < atlas.advance g ∧ gy < atlas.ch ∧
    (x : Int) = pen + ((before.map atlas.advance).sum : Nat) + (gx : Nat) ∧ y = top + gy ∧
    g ≠ 0 ∧ atlas.advances.getD g 0 ≠ 0 ∧ atlas.stride % 16 = 0 ∧ 64 * atlas.cw ≤ atlas.stride ∧
    a = atlas.addr + (g / 16 * atlas.ch + gy) * atlas.stride + (g % 16 * atlas.cw + gx) * 4

/-- The pixel of glyph pixel `g` over plate pixel `p` (R97, R163). -/
def overPlate (g p : Pixel) : Pixel :=
  let channel := fun (c d : Byte) => BitVec.ofNat 8
    ((g.k.toNat * c.toNat + (255 - g.k.toNat) * d.toNat + 127) / 255)
  { r := channel g.r p.r, g := channel g.g p.g, b := channel g.b p.b,
    k := BitVec.ofNat 8 (max p.k.toNat g.k.toNat) }

/-- `px` is the glyph pixel that the last of these texts to have one there gives over the plate pixel, and
the plate pixel where none has (R96, R97, R162, R163). -/
def GlyphsOver {α : Type} (src : Nat → Pixel) (texts : List α) (places : α → Nat → Prop)
    (plate px : Pixel) : Prop :=
  ((∀ f ∈ texts, ∀ a, ¬places f a) → px = plate) ∧
  ∀ lower f higher a, texts = lower ++ f :: higher → places f a →
    (∀ h ∈ higher, ∀ b, ¬places h b) → px = overPlate (src a) plate

/-- `px` is the pixel that a layer of this content has at its pixel (x, y), where `src` gives the pixel at
an address: the creative's pixel or a transparent one (R6, R23), the bug's (R96, R97), the band's (R162,
R163). -/
def LayerPixelOf (src : Nat → Pixel) (content : Content) (x y : Nat) (px : Pixel) : Prop :=
  let clear : Pixel := { r := 0, g := 0, b := 0, k := 0 }
  let creative := fun (d : Descriptor) =>
    if x < d.width ∧ y < d.height then src (d.addr + y * d.stride + x * 4) else clear
  match content with
  | .nothing => px = clear
  | .creative d => px = creative d
  | .bug plate atlas fields =>
    let width := fun (f : RenderedField) => (f.codes.map atlas.advance).sum
    let pen := fun (f : RenderedField) =>
      (f.x : Int) + if f.right then ((f.cells * atlas.cw : Nat) : Int) - (width f : Nat) else 0
    GlyphsOver src fields (fun f a => GlyphAt atlas f.codes (pen f) f.y x y a) (creative plate) px
  | .ticker colour top atlas band =>
    GlyphsOver src band (fun m a => GlyphAt atlas m.codes m.x top x y a) colour px

/-! ### Texts of the bug's fields -/

/-- `l` is `n` in decimal without leading zeros, digit d as code d + 1, and 0 as the single digit 0 (R89,
R92). -/
def DecimalOf (n : Nat) (l : List Nat) : Prop :=
  l ≠ [] ∧ (∀ c ∈ l, 1 ≤ c ∧ c ≤ 10) ∧ l.foldl (fun v c => 10 * v + (c - 1)) 0 = n ∧
  (l.head? = some 1 → l = [1])

/-- `l` is `s` seconds as minutes, a colon and two digits of seconds (R94). -/
def MinutesOf (s : Nat) (l : List Nat) : Prop :=
  ∃ d, DecimalOf (s / 60) d ∧ l = d ++ [11, s % 60 / 10 + 1, s % 60 % 10 + 1]

/-- `l` is `v` milliseconds as seconds, a period and one digit of tenths (R94, R95). -/
def TenthsOf (v : Nat) (l : List Nat) : Prop :=
  ∃ d, DecimalOf (v / 1000) d ∧ l = d ++ [12, v % 1000 / 100 + 1]

/-- `l` is the game clock value `v` in the clock format of this mode (R94). -/
def ClockTextOf (mode : ClockMode) (v : Nat) (l : List Nat) : Prop :=
  (mode = .down → 60000 ≤ v → MinutesOf ((v + 999) / 1000) l) ∧
  (mode = .down → v < 60000 → TenthsOf v l) ∧ (mode = .up → MinutesOf (v / 1000) l)

/-- `l` is the shot value `v` in the shot format (R95). -/
def ShotTextOf (v : Nat) (l : List Nat) : Prop :=
  (5000 ≤ v → DecimalOf ((v + 999) / 1000) l) ∧ (v < 5000 → TenthsOf v l)

/-! ### The status page (R185, R191) -/

/-- These bytes stand at offset `off` of the page. -/
def StandsAt (page : List Byte) (off : Nat) (bytes : List Byte) : Prop :=
  (page.drop off).take bytes.length = bytes

/-- Each of these fields stands at its offset from `base`. -/
def FieldsAt (page : List Byte) (base : Nat) (fields : List (Nat × List Byte)) : Prop :=
  ∀ f ∈ fields, StandsAt page (base + f.1) f.2

/-- The creative descriptor at this offset. -/
def DescriptorAt (page : List Byte) (off : Nat) (d : Descriptor) : Prop :=
  FieldsAt page off [(0, leBytes 5 d.addr), (6, leBytes 2 d.stride), (8, leBytes 2 d.width),
    (10, leBytes 2 d.height), (12, leBytes 2 d.dwell)]

/-- The record of `size` bytes at this offset is all zero. -/
def ZerosAt (page : List Byte) (off size : Nat) : Prop := StandsAt page off (List.replicate size 0)

/-- The two headers, the mode, the lock set, the taken geometry, the outcome table, P and C. -/
def HeadsReported (s : State) (cause : RefreshCause) (page : List Byte) : Prop :=
  let r := s.report
  let g := s.path.geom
  let shown := fun (p : Place) =>
    [p.tag, BitVec.ofNat 8 (p.outcome.elim 0 ReqOutcome.code + if p.mark then 128 else 0)]
  (∀ base ∈ [0, 0xFFF0], FieldsAt page base
    [(0, leBytes 4 r.refreshCount.toNat), (4, [0x40, 0x71]), (6, [1]), (7, leBytes 1 cause.code),
      (8, leBytes 4 s.comp.frame.toNat), (12, leBytes 4 s.clock.house.toNat)]) ∧
  FieldsAt page 0x10
    [(0, leBytes 1 r.mode.code),
      (1, [match r.pendingMode with
        | none => 0
        | some (.live, _) => 1
        | some (.pass, _) => 2]),
      (2, [r.pendingMode.elim 0 Prod.snd]), (3, [s.path.tbase])] ∧
  (∀ j < 16, (leNat ((page.drop 0x14).take 2)).testBit j = s.comp.lock.contains j) ∧
  FieldsAt page 0x20
    [(0x00, leBytes 5 g.canvasBase), (0x08, leBytes 2 g.width), (0x0A, leBytes 2 g.height),
      (0x0C, leBytes 4 g.stride), (0x10, leBytes 1 g.scanTag), (0x11, leBytes 1 g.ingestTag),
      (0x18, leBytes 5 g.windowBase), (0x20, leBytes 5 g.poolBase), (0x28, leBytes 2 g.slotCount),
      (0x30, leBytes 5 g.assetBase), (0x38, leBytes 4 g.sectorSize)] ∧
  (∀ w, StandsAt page (0x60 + 4 * ReqWord.code w)
    (shown (outcomeRow s w).latest ++ shown (outcomeRow s w).previous)) ∧
  FieldsAt page 0x78 [(0, leBytes 2 r.produce.toNat), (2, leBytes 2 r.consume.toNat)]

/-- The clock unit. -/
def ClockReported (s : State) (page : List Byte) : Prop :=
  let c := s.clock
  let bits := fun (a b d : Bool) =>
    leBytes 1 ((if a then 1 else 0) + (if b then 2 else 0) + if d then 4 else 0)
  let record := fun (r : ClockRecord) =>
    [(0, leBytes 4 r.house.toNat), (4, leBytes 4 r.frame.toNat), (8, leBytes 4 r.value),
      (12, leBytes 1 r.cause.code)]
  FieldsAt page 0x100
    [(0x00, leBytes 4 c.value), (0x04, leBytes 1 c.state.code), (0x05, leBytes 1 c.config.mode.code),
      (0x06, leBytes 1 c.period), (0x07, [flagByte c.soft]), (0x08, [flagByte c.added]),
      (0x09, leBytes 1 c.source.code), (0x0A, leBytes 1 c.returns), (0x0B, [flagByte c.configPending]),
      (0x0C, leBytes 4 (c.watch.getD 0).toNat), (0x10, leBytes 4 c.lastReturn.toNat),
      (0x14, leBytes 4 c.shotValue), (0x18, leBytes 1 (shotState c).code),
      (0x19, bits c.hornGame.isSome c.hornShot.isSome false),
      (0x1C, leBytes 4 (c.hornGame.getD 0).toNat), (0x20, leBytes 4 (c.hornShot.getD 0).toNat)] ∧
  FieldsAt page 0x130 (record c.startRec) ∧ FieldsAt page 0x140 (record c.stopRec) ∧
  FieldsAt page 0x150
    [(0, leBytes 4 c.gateRec.house.toNat), (4, leBytes 4 c.gateRec.frame.toNat),
      (8, leBytes 4 c.gateRec.value), (12, leBytes 1 ClockCause.gate.code),
      (13, [flagByte c.gateRec.rising])] ∧
  FieldsAt page 0x160
    [(0x00, leBytes 1 c.config.mode.code), (0x04, leBytes 4 c.config.startValue),
      (0x08, leBytes 4 c.config.setPoint), (0x0C, leBytes 4 c.config.shotReset),
      (0x10, leBytes 2 c.config.hornLength),
      (0x12, bits c.config.shotAtClear c.config.upHorn c.config.gateOverride),
      (0x13, leBytes 1 c.config.timeouts)]

/-- The score unit. -/
def ScoreReported (s : State) (page : List Byte) : Prop :=
  let m := s.path.shadow
  let record := fun t =>
    [(0x00, leBytes 2 (teamScore m t)), (0x02, leBytes 1 (teamFouls m t)),
      (0x03, leBytes 1 (teamTimeouts m t)), (0x04, (teamAbbr m t).map (BitVec.ofNat 8))]
  FieldsAt page 0x200 (record .home) ∧ FieldsAt page 0x220 (record .away) ∧
  match s.score.flash with
  | none => ZerosAt page 0x240 4
  | some f => FieldsAt page 0x240
      [(0, [1]), (1, leBytes 1 f.team.code), (2, leBytes 2 f.remaining)]

/-- The placements and the sponsors; kind, sponsor, END mark and dwell of a stack entry, and state and
pointer of a sponsor, stand packed in their listed order (log 4). -/
def RotationReported (s : State) (page : List Byte) : Prop :=
  (∀ p < 4,
    let x := placementAt s p
    let base := 0x400 + 0x100 * p
    let order := (priorityOrder x.lowest).filterMap fun i => x.spots.find? fun z => z.sponsor == i
    FieldsAt page base
      [(0, leBytes 1 x.lowest), (1, leBytes 1 x.stack.length), (2, leBytes 1 x.spots.length)] ∧
    (∀ k < 3,
      let entry := base + 0x20 + 0x20 * k
      match x.stack[k]? with
      | none => ZerosAt page entry 32
      | some e =>
        FieldsAt page entry
          [(0, leBytes 1 e.kind.code), (1, leBytes 1 (e.sponsor.getD 0)), (2, [flagByte e.endMark]),
            (3, leBytes 2 (e.dwell.getD 0))] ∧
        DescriptorAt page (entry + 0x10) e.creative) ∧
    ∀ k < 32,
      match order[k]? with
      | none => ZerosAt page (base + 0x80 + 4 * k) 4
      | some z => StandsAt page (base + 0x80 + 4 * k)
          (leBytes 1 z.sponsor ++ leBytes 1 z.creative ++ leBytes 2 z.dwell)) ∧
  ∀ i < 32, FieldsAt page (0x800 + 0x20 * i)
    [(0, leBytes 1 (sponsorState s i).code), (1, leBytes 1 (sponsorAt s i).pointer),
      (8, leBytes 6 (sponsorAt s i).acc)]

/-- The playback, the clips and the slots; the fields of a clip and of a slot that R191 lists without an
offset stand packed in their order (log 4). -/
def ReplayReported (s : State) (page : List Byte) : Prop :=
  let r := s.replay
  let bumper := r.bumper.getD (0, 0)
  FieldsAt page 0x1000
    [(0x00, leBytes 1 r.playback.code), (0x01, leBytes 1 (r.clip.getD 0)), (0x02, leBytes 1 r.counter),
      (0x03, leBytes 1 bumper.1), (0x04, leBytes 4 r.position), (0x08, leBytes 1 bumper.2),
      (0x09, match r.waiting with
        | none => [0, 0]
        | some (.play c) => [1, BitVec.ofNat 8 c]
        | some .takeLive => [2, 0]),
      (0x0B, [flagByte r.cutPending]), (0x0C, leBytes 4 r.lastShown), (0x10, leBytes 2 (r.fill.getD 0)),
      (0x12, [flagByte r.fill.isSome]), (0x14, leBytes 4 r.captureSeq), (0x18, leBytes 4 (oldestSeq s)),
      (0x1C, leBytes 4 (newestSeq s))] ∧
  (∀ i < 16,
    let c := clipAt s i
    let base := 0x1100 + 0x20 * i
    FieldsAt page base
      [(0, leBytes 1 c.state.code), (1, leBytes 1 c.rate), (2, leBytes 1 c.endAction.code),
        (3, [flagByte c.autoDisarm]), (4, leBytes 4 c.inPoint), (8, leBytes 4 c.outPoint),
        (12, leBytes 1 c.bumperFrames)] ∧
    match c.bumper with
    | none => ZerosAt page (base + 0x10) 16
    | some d => DescriptorAt page (base + 0x10) d) ∧
  ∀ k < 1024,
    match r.slots[k]? with
    | none => ZerosAt page (0x2000 + 0x20 * k) 32
    | some x => FieldsAt page (0x2000 + 0x20 * k)
        [(0, leBytes 1 x.state.code), (1, [flagByte x.writeError]), (2, [flagByte (slotHeld s k)]),
          (4, leBytes 4 x.seq), (8, leBytes 4 x.commitFrame.toNat), (12, leBytes 4 x.stampValue),
          (16, leBytes 1 x.stampMode.code), (17, leBytes 1 x.stampPeriod)]

/-- The message and ticker units, the crowd queue, the band; of texts of at most 120 codes. That the wait
limit of a queued message is its deadline less its queued time in seconds, and where a band entry's fields
stand before its codes, are log 4's; the order of the withdrawn ids is log 39's. -/
def MessagesReported (s : State) (page : List Byte) : Prop :=
  let m := s.msg
  let t := s.ticker
  FieldsAt page 0xA000
    [(0x00, leBytes 2 m.head.toNat), (0x02, leBytes 2 m.tail.toNat), (0x04, [flagByte m.fetch.isSome]),
      (0x06, leBytes 2 (m.fetch.getD 0).toNat), (0x08, [flagByte (fetchPaused s)]),
      (0x09, leBytes 1 m.queue.length), (0x0A, leBytes 1 (highMark s.path.shadow)),
      (0x0B, leBytes 1 (lowMark s.path.shadow)), (0x0C, [flagByte m.hold])] ∧
  (∀ k < 32,
    match m.queue[k]? with
    | none => ZerosAt page (0xB000 + 0x100 * k) 256
    | some x => x.text.length ≤ 120 → FieldsAt page (0xB000 + 0x100 * k)
        [(0, [1]), (1, leBytes 1 x.cls.code), (2, leBytes 2 ((x.deadline - x.queued).toNat / 1000)),
          (4, leBytes 4 x.id.toNat), (8, leBytes 1 x.text.length), (0x0C, leBytes 4 x.deadline.toNat),
          (0x10, x.text.map (BitVec.ofNat 8))]) ∧
  FieldsAt page 0xD000
    [(0, leBytes 1 t.state.code), (1, leBytes 1 (t.prior.getD .hidden).code),
      (2, leBytes 1 t.band.length), (3, leBytes 1 t.withdrawals.length), (4, leBytes 4 t.shown.toNat)] ∧
  (∀ k < 8,
    match t.withdrawals[k]? with
    | none => ZerosAt page (0xD020 + 4 * k) 4
    | some id => StandsAt page (0xD020 + 4 * k) (leBytes 4 id.toNat)) ∧
  ∀ k < 8,
    match t.band[k]? with
    | none => ZerosAt page (0xD100 + 0x100 * k) 256
    | some e => e.text.length ≤ 120 → FieldsAt page (0xD100 + 0x100 * k)
        [(0, leBytes 4 e.id.toNat), (4, leBytes 4 (BitVec.ofInt 32 e.x).toNat), (8, leBytes 2 e.width),
          (10, leBytes 1 e.text.length), (0x10, e.text.map (BitVec.ofNat 8))]

/-- Every byte that stands between the records of the page map, or after the fields of one whose end R191
leaves unassigned, is 0 (R191; log 21). -/
def RestIsZero (page : List Byte) : Prop :=
  ∀ gap ∈ [(0x16, 0x20), (0x7C, 0x100), (0x124, 0x130), (0x180, 0x200), (0x244, 0x400), (0x403, 0x420),
      (0x503, 0x520), (0x603, 0x620), (0x703, 0x720), (0xC00, 0x1000), (0x1020, 0x1100),
      (0x1300, 0x2000), (0xA00D, 0xB000), (0xD008, 0xD020), (0xD900, 0xFFF0)],
    ∀ off, gap.1 ≤ off → off < gap.2 → page[off]? = some 0

/-- The codes of the enumerated values: their places in the manual's lists, outcomes and notice kinds from 1
on (R191; chapters 3, 4, 6, 7, 9 and 11), the classes of a message as its record gives them (ch. 12.5). -/
def CodesListed : Prop :=
  [RefreshCause.frameStart, .clockStop].map RefreshCause.code = [0, 1] ∧
  [Mode.pass, .live].map Mode.code = [0, 1] ∧
  [ReqWord.showWord, .clockWord, .sponsorWord, .replayWord, .tickerWord, .spareWord].map ReqWord.code =
    List.range 6 ∧
  [ReqOutcome.accepted, .clamped, .superseded, .duplicate, .unknown, .badParam, .wrongMode, .running,
    .notMember, .suspended, .inService, .notAllowed, .notArmed, .inUse, .gone, .notYet, .noRoom, .badRange,
    .notOnAir, .badGeometry, .overlap].map ReqOutcome.code = List.range' 1 21 ∧
  [NoticeKind.modeChanged, .requestRefused, .tableIgnored, .writeBlocked, .assetError, .fallbackShown,
    .exposureTarget, .spotDropped, .periodEnd, .shotExpired, .clockStopped, .clockLimit, .timebaseLost,
    .timebaseRestored, .scoreChange, .replayStarted, .replayEnded, .ingestAbandoned, .intakeOverrun,
    .intakeBad, .msgExpired, .withdrawLate].map NoticeKind.code = List.range' 1 22 ∧
  [GameState.stopped, .running, .expired].map GameState.code = [0, 1, 2] ∧
  [ClockMode.down, .up].map ClockMode.code = [0, 1] ∧
  [TimeSource.external, .internal].map TimeSource.code = [0, 1] ∧
  [ShotState.off, .expired, .running, .held].map ShotState.code = [0, 1, 2, 3] ∧
  [ClockCause.gate, .soft, .expiry, .limit, .adjust].map ClockCause.code = [0, 1, 2, 3, 4] ∧
  [Team.home, .away].map Team.code = [0, 1] ∧
  [EntryClass.rotation, .replay, .fallback, .spot].map EntryClass.code = [0, 1, 2, 3] ∧
  [SponsorState.suspended, .capped, .empty, .ready].map SponsorState.code = [0, 1, 2, 3] ∧
  [Playback.live, .entering, .onAir, .frozen, .leaving].map Playback.code = [0, 1, 2, 3, 4] ∧
  [ClipState.empty, .armed, .playing].map ClipState.code = [0, 1, 2] ∧
  [EndAction.holdLast, .returnLive].map EndAction.code = [0, 1] ∧
  [EndCause.ended, .takeLive, .cut].map EndCause.code = [0, 1, 2] ∧
  [SlotState.empty, .filling, .filled].map SlotState.code = [0, 1, 2] ∧
  [MsgClass.general, .greeting, .announce].map MsgClass.code = [1, 2, 3] ∧
  [BandState.hidden, .running, .paused, .suppressed].map BandState.code = [0, 1, 2, 3]

/-! ### Invariants -/

/-- R64: the game clock is RUNNING exactly while the soft enable is on, the gate is high or overridden,
and the state is not EXPIRED. -/
def RunOk (s : State) : Prop :=
  s.clock.state = .running ↔ (runWanted s = true ∧ s.clock.state ≠ .expired)

/-- The ranges of the clock configuration (R78). -/
def ConfigOk (c : ClockConfig) : Prop :=
  1 ≤ c.startValue ∧ c.startValue ≤ 5999999 ∧ 1 ≤ c.setPoint ∧ c.setPoint ≤ 5999999 ∧
  1000 ≤ c.shotReset ∧ c.shotReset ≤ 99999 ∧ 100 ≤ c.hornLength ∧ c.hornLength ≤ 5000 ∧
  c.timeouts ≤ 9

/-- The ranges of the clock unit's values (ch. 4). -/
def ClockOk (s : State) : Prop :=
  s.clock.value ≤ 5999999 ∧ 1 ≤ s.clock.period ∧ s.clock.period ≤ 9 ∧ s.clock.shotValue ≤ 99999 ∧
  s.clock.returns ≤ 7 ∧ ConfigOk s.clock.config

/-- R141: at most 32 messages, no two of one id, none both queued and on the band; room for the record
in flight. -/
def QueueOk (s : State) : Prop :=
  s.msg.queue.length ≤ 32 ∧ (s.msg.fetch.isSome = true → s.msg.queue.length ≤ 31) ∧
  (s.msg.queue.map Message.id).Nodup ∧ ∀ m ∈ s.msg.queue, onBand s m.id = false

/-- R152: the band holds at most 8 messages. -/
def BandOk (s : State) : Prop := s.ticker.band.length ≤ 8

/-- R43: at most three entries, the bottom one is not a SPOT, every other one is, and no sponsor stands
twice. A bound placement has one at most. -/
def StackOk (x : Placement) : Prop :=
  x.stack.length ≤ 3 ∧ (∀ e, x.stack.head? = some e → e.kind ≠ .spot) ∧
  (∀ e ∈ x.stack.tail, e.kind = .spot) ∧ (x.stack.filterMap StackEntry.sponsor).Nodup ∧
  (x.fields.bound = true → x.stack.length ≤ 1)

/-- R43, for the four placements. -/
def StacksOk (s : State) : Prop := s.rot.placements.length = 4 ∧ ∀ x ∈ s.rot.placements, StackOk x

/-- R29: no accumulator passes 2^48 − 1. -/
def AccountsOk (s : State) : Prop := ∀ x ∈ s.rot.sponsors, x.acc ≤ 281474976710655

/-- How many notices are unconsumed. -/
def noticeCount (r : ReportUnit) : Nat := (r.produce - r.consume).toNat

/-- The kind of the unconsumed record `j` places after the oldest. -/
def noticeKindAt (r : ReportUnit) (j : Nat) : Option NoticeKind :=
  (r.ring.getD ((r.consume + BitVec.ofNat 16 j).toNat % 32) .zero).kind

/-- R186: 32 records, at most 22 unconsumed, each with the number its place stands for and a kind, no
kind twice. -/
def RingOk (s : State) : Prop :=
  s.report.ring.length = 32 ∧ noticeCount s.report ≤ 22 ∧
  (∀ j < noticeCount s.report,
    (s.report.ring.getD ((s.report.consume + BitVec.ofNat 16 j).toNat % 32) .zero).number =
      s.report.consume + BitVec.ofNat 16 j ∧ (noticeKindAt s.report j).isSome = true) ∧
  ∀ i < noticeCount s.report, ∀ j < noticeCount s.report,
    noticeKindAt s.report i = noticeKindAt s.report j → i = j

/-- Every record of the ring that has a kind stands at its number's place (R186). -/
def PlacesOk (s : State) : Prop :=
  ∀ i < 32, ∀ x, s.report.ring[i]? = some x → x.kind.isSome = true → x.number.toNat % 32 = i

/-- R168, R177: a write of the part's own carries ID F0h and lies in the status page or in the notice
ring. -/
def ownInside (s : State) : DownTxn → Prop
  | .own id a d => id = 0xF0 ∧
    ((statusBase s ≤ a ∧ a + d.length ≤ statusBase s + 0x10000) ∨
    (noticeBase s ≤ a ∧ a + d.length ≤ noticeBase s + 0x400))
  | _ => True

/-- R177, for every own write issued since reset. -/
def OwnWritesOk (s : State) : Prop :=
  s.report.ring.length = 32 ∧ ∀ d ∈ s.path.issued, ownInside s d

/-- One record for each slot of the taken slot count, 16 clips, 6 rows of outcomes, 32 sponsors, 4
placements (R101, R111, R183; ch. 3). -/
def TablesOk (s : State) : Prop :=
  s.replay.slots.length = s.path.geom.slotCount ∧ s.replay.clips.length = 16 ∧
  s.report.outcomes.length = 6 ∧ s.rot.sponsors.length = 32 ∧ s.rot.placements.length = 4

/-- R119, R133: exactly the playing clip is PLAYING, there is none just while the playback state is LIVE,
and it is LIVE in PASS. -/
def ClipsOk (s : State) : Prop :=
  (∀ c, (clipAt s c).state = .playing ↔ s.replay.clip = some c) ∧
  (s.replay.playback = .live ↔ s.replay.clip = none) ∧
  (s.report.mode = .pass → s.replay.playback = .live)

/-- R102, R104, R110: the fill slot is the FILLING one; the sequences of the FILLED slots and of the clips
are behind the capture sequence; where a slot is held, at least three are not. -/
def SlotsOk (s : State) : Prop :=
  (∀ k, (slotAt s k).state = .filling ↔ s.replay.fill = some k) ∧
  (∀ x ∈ s.replay.slots, x.state = .filled → x.seq < s.replay.captureSeq) ∧
  (∀ x ∈ s.replay.clips, x.state ≠ .empty → x.outPoint < s.replay.captureSeq) ∧
  ((∃ x ∈ s.replay.slots, heldBy s.replay.clips x = true) →
    3 ≤ (s.replay.slots.filter fun x => !heldBy s.replay.clips x).length)

end Sys2Proof.Machine
end

