-- ==== Sys2Proof/WellFormed.lean ====
section
/-! DEFINITION. Which operands a command admits: bursts AXI4 allows on the port, the layers and the
record length the spec gives. -/

namespace Sys2Proof

/-- A transaction the system-side port accepts (R166). -/
def Txn.wf : Txn → Bool
  | .read r => Machine.legalRead r
  | .write w => Machine.legalWrite w

/-- The highest request code a coded word lists; it lists 1 up to it (ch. 12.4). -/
def CodedWord.lastCode : CodedWord → Nat
  | .showWord => 4
  | .clockWord => 10
  | .sponsorWord => 5
  | .replayWord => 8
  | .tickerWord => 3

/-- The word's table lists this code (R190). -/
def CodedWord.lists (w : CodedWord) (code : Byte) : Bool :=
  decide (1 ≤ code.toNat) && decide (code.toNat ≤ w.lastCode)

/-- Every operand of the command lies where the spec lets it lie. A request's parameters are bytes
of a captured word, so every value of them is admitted (R171, R190). -/
def Instr.wf : Instr → Bool
  | .compositedRead r => Machine.legalRead r
  | .windowRead r => Machine.legalRead r
  | .ingestWrite w => Machine.legalWrite w
  | .blockedWrite w => Machine.legalWrite w
  | .partOwnedWrite w => Machine.legalWrite w
  | .capturedWrite w => Machine.legalWrite w
  | .forwardedTransaction t => t.wf
  | .geometryCapture w => Machine.legalWrite w
  | .teamRecordCapture w => Machine.legalWrite w
  | .sponsorEntryCapture w => Machine.legalWrite w
  | .clockConfigCapture w => Machine.legalWrite w
  | .intakeTailCapture w => Machine.legalWrite w
  | .noticeConsumeCapture w => Machine.legalWrite w
  | .overlayFetchError _ layer addr => decide (layer < 8) && decide (addr < 2 ^ 40)
  | .compositedReadAnswer _ _ overlay _ => overlay.all fun o => decide (o.layer < 8)
  | .forwardedResponse dir _ data status =>
    match dir with
    | .read => decide (1 ≤ status.length) && decide (status.length ≤ 16)
    | .write => data.isEmpty && decide (status.length = 1)
  | .intakeFetchComplete error data => error || decide (data.length = 256)
  | .resetN _ _ => true
  | .frameStart => true
  | .gateRunEdge => true
  | .shotRstEdge => true
  | .tbInEdge => true
  | .houseTimeAdvance => true
  | .timebaseLoss => true
  | .timebaseRestore => true
  | .hornEnd => true
  | .gameClockExpiry => true
  | .shotClockExpiry => true
  | .upSetPointReached => true
  | .upLimit => true
  | .messageExpiry => true
  | .flashEnd => true
  | .stackEntryDwellEnd => true
  | .enteringBumperEnd => true
  | .leavingBumperEnd => true
  | .clipEndAction => true
  | .programFetchError _ => true
  | .ingestWriteResponse _ _ _ => true
  | .goLive _ _ => true
  | .goPass _ _ => true
  | .clearGame _ _ => true
  | .clearExposure _ _ => true
  | .spareRequest _ _ _ => true
  | .runEnable _ _ => true
  | .runDisable _ _ => true
  | .clockSet _ _ _ => true
  | .clockAdjust _ _ _ => true
  | .periodNext _ _ => true
  | .shotReset _ _ => true
  | .shotSet _ _ _ => true
  | .shotEnable _ _ => true
  | .shotDisable _ _ => true
  | .horn _ _ _ => true
  | .spot _ _ _ _ _ _ => true
  | .setLowest _ _ _ _ => true
  | .endEntry _ _ _ => true
  | .suspend _ _ _ => true
  | .sponsorResume _ _ _ => true
  | .arm _ _ _ _ _ _ _ _ _ => true
  | .disarm _ _ _ => true
  | .resetRing _ _ => true
  | .play _ _ _ => true
  | .freeze _ _ => true
  | .replayResume _ _ => true
  | .stepReplay _ _ _ => true
  | .takeLive _ _ => true
  | .purge _ _ => true
  | .pause _ _ => true
  | .tickerResume _ _ => true
  | .intakeFetchStart => true
  | .statusRefreshStart => true
  | .statusRefreshComplete => true
  | .unknownRequestCode _ _ word code => !word.lists code

end Sys2Proof
end

