-- ==== Sys2Proof/Certificates/Slice0/Obligations.lean ====
section
/-! DEFINITION. The statements for the provers. -/

open Sys2Proof Sys2Proof.Machine

/-! ### Requests: the SPONSOR word -/

/-- R52: SET_LOWEST sets the placement's lowest mark at once, whatever the mode, and nothing else. Section
3.9, R183, R190, R191: a parameter out of its range is refused with BAD_PARAM, reported with its value and
offset; with both out of range the sponsor is the one reported, which is the model's choice (log 14). -/
def Obligations.SetLowestMovesTheLowestMark : Prop :=
  ∀ (s : State) (id : BitVec 8) (tag i p : Byte), WordReady s id .sponsorWord →
    let t := asked s id .sponsorWord 2 [i, p] tag
    (i.toNat ≤ 31 → p.toNat ≤ 3 → exec (.setLowest id tag i p) s =
      .next (recorded (modifyPlacement t p.toNat fun x => { x with lowest := i.toNat })
        .sponsorWord tag .accepted false)) ∧
    (31 < i.toNat → exec (.setLowest id tag i p) s =
      .next (refusedWith t .sponsorWord tag 2 .badParam i.toNat 1)) ∧
    (i.toNat ≤ 31 → 3 < p.toNat → exec (.setLowest id tag i p) s =
      .next (refusedWith t .sponsorWord tag 2 .badParam p.toNat 2))

/-- R51: a SPOT that passes every check joins the pending set, one already pending is DUPLICATE, and each
check that fails, in the table's order, refuses it; of several parameters out of range the first by the
table's order is reported, which is the model's choice (log 14). -/
def Obligations.SpotJoinsThePendingSet : Prop :=
  (∀ (s : State) (id : BitVec 8) (tag i p c : Byte) (d : BitVec 16), WordReady s id .sponsorWord →
    i.toNat ≤ 31 → p.toNat ≤ 3 → d ≠ 0 → (c.toNat ≤ 7 ∨ c.toNat = 15) → s.report.mode = .live →
    (placementAt s p.toNat).fields.bound = false →
    (placementAt s p.toNat).fields.member i.toNat = true →
    sponsorSuspended s.path.shadow i.toNat = false →
    inStack (placementAt s p.toNat).stack i.toNat = false →
    let t := asked s id .sponsorWord 1 ([i, p, 0] ++ leBytes 2 d.toNat ++ [0, 0, c]) tag
    ((∀ x ∈ (placementAt s p.toNat).spots, x.sponsor ≠ i.toNat) → exec (.spot id tag i p d c) s =
      .next (recorded (modifyPlacement t p.toNat fun x =>
          { x with spots := x.spots ++
              [{ sponsor := i.toNat, creative := c.toNat, dwell := d.toNat }] })
        .sponsorWord tag .accepted false)) ∧
    ((∃ x ∈ (placementAt s p.toNat).spots, x.sponsor = i.toNat) → exec (.spot id tag i p d c) s =
      .next (recorded t .sponsorWord tag .duplicate false))) ∧
  ∀ (s : State) (id : BitVec 8) (tag i p c : Byte) (d : BitVec 16), WordReady s id .sponsorWord →
    let t := asked s id .sponsorWord 1 ([i, p, 0] ++ leBytes 2 d.toNat ++ [0, 0, c]) tag
    let x := placementAt s p.toNat
    let refused := fun o value offset => exec (.spot id tag i p d c) s =
      .next (refusedWith t .sponsorWord tag 1 o value offset)
    (31 < i.toNat → refused .badParam i.toNat 1) ∧
    (i.toNat ≤ 31 → 3 < p.toNat → refused .badParam p.toNat 2) ∧
    (i.toNat ≤ 31 → p.toNat ≤ 3 → d = 0 → refused .badParam 0 4) ∧
    (i.toNat ≤ 31 → p.toNat ≤ 3 → d ≠ 0 → 7 < c.toNat → c.toNat ≠ 15 →
      refused .badParam c.toNat 8) ∧
    (i.toNat ≤ 31 → p.toNat ≤ 3 → d ≠ 0 → (c.toNat ≤ 7 ∨ c.toNat = 15) →
      (s.report.mode = .pass → refused .wrongMode 0 0) ∧
      (s.report.mode = .live → x.fields.bound = true → refused .notAllowed 0 0) ∧
      (s.report.mode = .live → x.fields.bound = false →
        (x.fields.member i.toNat = false → refused .notMember 0 0) ∧
        (x.fields.member i.toNat = true → sponsorSuspended s.path.shadow i.toNat = true →
          refused .suspended 0 0) ∧
        (x.fields.member i.toNat = true → sponsorSuspended s.path.shadow i.toNat = false →
          inStack x.stack i.toNat = true → refused .inService 0 0)))

/-- R53: END gives the top entry its mark, and is refused or DUPLICATE as the table says. -/
def Obligations.EndMarksTheTopEntry : Prop :=
  ∀ (s : State) (id : BitVec 8) (tag p : Byte), WordReady s id .sponsorWord →
    let t := asked s id .sponsorWord 3 [0, p] tag
    let stack := (placementAt s p.toNat).stack
    (∀ below e, p.toNat ≤ 3 → stack = below ++ [e] → e.kind ≠ .replay → e.endMark = false →
      exec (.endEntry id tag p) s =
        .next (recorded (modifyPlacement t p.toNat fun x =>
            { x with stack := below ++ [{ e with endMark := true }] })
          .sponsorWord tag .accepted false)) ∧
    (∀ below e, p.toNat ≤ 3 → stack = below ++ [e] → e.kind ≠ .replay → e.endMark = true →
      exec (.endEntry id tag p) s = .next (recorded t .sponsorWord tag .duplicate false)) ∧
    (∀ below e, p.toNat ≤ 3 → stack = below ++ [e] → e.kind = .replay → exec (.endEntry id tag p) s =
      .next (refusedWith t .sponsorWord tag 3 .notAllowed 0 0)) ∧
    (p.toNat ≤ 3 → stack = [] → exec (.endEntry id tag p) s =
      .next (refusedWith t .sponsorWord tag 3 .notOnAir 0 0)) ∧
    (3 < p.toNat → exec (.endEntry id tag p) s =
      .next (refusedWith t .sponsorWord tag 3 .badParam p.toNat 2))

/-- R54: SUSPEND and RESUME write the suspended flag in the shadow, and the state follows at once; a
sponsor number out of range is BAD_PARAM (section 3.9). -/
def Obligations.SuspendAndResumeWriteTheFlag : Prop :=
  (∀ (s : State) (id : BitVec 8) (tag i : Byte), WordReady s id .sponsorWord → 31 < i.toNat →
    exec (.suspend id tag i) s = .next (refusedWith (asked s id .sponsorWord 4 [i] tag) .sponsorWord tag
      4 .badParam i.toNat 1) ∧
    exec (.sponsorResume id tag i) s = .next (refusedWith (asked s id .sponsorWord 5 [i] tag)
      .sponsorWord tag 5 .badParam i.toNat 1)) ∧
  ∀ (s : State) (id : BitVec 8) (tag i : Byte), WordReady s id .sponsorWord → i.toNat ≤ 31 →
    let t := asked s id .sponsorWord 4 [i] tag
    let u := asked s id .sponsorWord 5 [i] tag
    (sponsorSuspended s.path.shadow i.toNat = false →
      exec (.suspend id tag i) s =
        .next (recorded (writeSuspended t i.toNat true) .sponsorWord tag .accepted false) ∧
      sponsorState (writeSuspended t i.toNat true) i.toNat = .suspended ∧
      ∀ a, a ≠ sponsorOffset i.toNat →
        readByte (writeSuspended t i.toNat true).path.shadow a = readByte t.path.shadow a) ∧
    (sponsorSuspended s.path.shadow i.toNat = true → exec (.suspend id tag i) s =
      .next (recorded t .sponsorWord tag .duplicate false)) ∧
    (sponsorSuspended s.path.shadow i.toNat = true →
      exec (.sponsorResume id tag i) s =
        .next (recorded (writeSuspended u i.toNat false) .sponsorWord tag .accepted false) ∧
      sponsorState (writeSuspended u i.toNat false) i.toNat ≠ .suspended ∧
      ∀ a, a ≠ sponsorOffset i.toNat →
        readByte (writeSuspended u i.toNat false).path.shadow a = readByte u.path.shadow a) ∧
    (sponsorSuspended s.path.shadow i.toNat = false → exec (.sponsorResume id tag i) s =
      .next (recorded u .sponsorWord tag .duplicate false))

/-! ### Requests: the SHOW word -/

/-- R37: CLEAR_EXPOSURE zeroes every accumulator and clears every cap latch at once; stacks, orders,
pending sets and pointers are untouched. R80, R88: CLEAR_GAME returns the clock unit, the scores, the
fouls, the timeouts and the flash to the start of a game and keeps the abbreviations; from a RUNNING clock
it stops it first, which takes a pending configuration (R66), and the timeouts come from the configuration
then in force, the clock side going first (log 32). The refresh of the stop shows the end of the command
(log 10). -/
def Obligations.ClearRequestsZeroExposureAndGame : Prop :=
  ∀ (s : State) (id : BitVec 8) (tag : Byte), WordReady s id .showWord →
    let e := asked s id .showWord 4 [] tag
    let t := asked s id .showWord 3 [] tag
    let cleared := fun (c : ClockUnit) => { c with
      value := (match c.config.mode with
        | .down => c.config.startValue
        | .up => 0),
      period := 1, state := .stopped, soft := false, added := false,
      shotValue := c.config.shotReset, shotOn := c.config.shotAtClear,
      hornGame := none, hornShot := none }
    let begunAnew := fun (c : ClockUnit) (m : Memory) => recorded
      { t with
        clock := cleared c, score := { s.score with flash := none, flashAsk := none },
        path := { t.path with shadow := m } }
      .showWord tag .accepted false
    let clean := fun (c : ClockUnit) (m : Memory) => Memory.wf m = true ∧
      (∀ x, teamScore m x = 0 ∧ teamFouls m x = 0 ∧ teamAbbr m x = teamAbbr s.path.shadow x ∧
        (c.config.timeouts ≤ 9 → teamTimeouts m x = c.config.timeouts)) ∧
      ∀ a, (∀ x, a < teamOffset x ∨ teamOffset x + 4 ≤ a) → readByte m a = readByte t.path.shadow a
    let halted := stoppedConfigured s s.gateRun { s.clock with soft := false } .stopped .soft
    exec (.clearExposure id tag) s =
      .next (recorded
        { e with rot := { e.rot with
            sponsors := e.rot.sponsors.map fun x => { x with acc := 0, capped := false } } }
        .showWord tag .accepted false) ∧
    (s.clock.state ≠ .running →
      ∃ m, clean s.clock m ∧ exec (.clearGame id tag) s = .next (begunAnew s.clock m)) ∧
    (s.clock.state = .running →
      ∃ m, clean halted m ∧ exec (.clearGame id tag) s =
        .next (stopReported (begunAnew halted m) .soft s.clock.period s.clock.value))

/-- R180, R181: what GO_LIVE and GO_PASS make of the mode in force and the pending mode; a GO_LIVE that
meets a geometry field out of range is BAD_GEOMETRY, one that meets two regions with a byte in common
OVERLAP, and neither moves the pending mode. -/
def Obligations.ModeRequestsSetThePendingMode : Prop :=
  ∀ (s : State) (id : BitVec 8) (tag : Byte), WordReady s id .showWord →
    let t := asked s id .showWord 1 [] tag
    let u := asked s id .showWord 2 [] tag
    let waiting := fun (x : State) m => recorded
      { x with report := { x.report with pendingMode := some (m, tag) } } .showWord tag .accepted true
    let dropped := fun (x : State) => recorded
      { x with report := { x.report with pendingMode := none } } .showWord tag .accepted false
    let superseded := fun (x : State) => dropMarked x .showWord .superseded
    (geometryRefusal s = none → s.report.mode = .pass → s.report.pendingMode = none →
      exec (.goLive id tag) s = .next (waiting t .live)) ∧
    (geometryRefusal s = none → s.report.mode = .pass → s.report.pendingMode ≠ none →
      exec (.goLive id tag) s = .next (waiting (superseded t) .live)) ∧
    (geometryRefusal s = none → s.report.mode = .live → s.report.pendingMode ≠ none →
      exec (.goLive id tag) s = .next (dropped (superseded t))) ∧
    (s.report.mode = .live → s.report.pendingMode = none →
      exec (.goLive id tag) s = .next (recorded t .showWord tag .duplicate false)) ∧
    (s.report.mode = .live → s.report.pendingMode = none →
      exec (.goPass id tag) s = .next (waiting u .pass)) ∧
    (s.report.mode = .live → s.report.pendingMode ≠ none →
      exec (.goPass id tag) s = .next (waiting (superseded u) .pass)) ∧
    (s.report.mode = .pass → s.report.pendingMode ≠ none →
      exec (.goPass id tag) s = .next (dropped (superseded u))) ∧
    (s.report.mode = .pass → s.report.pendingMode = none →
      exec (.goPass id tag) s = .next (recorded u .showWord tag .duplicate false)) ∧
    (∀ off, (s.report.mode = .pass ∨ s.report.pendingMode ≠ none) → badField s = some off →
      exec (.goLive id tag) s = .next (refusedWith t .showWord tag 1 .badGeometry off 0)) ∧
    (∀ a b, (s.report.mode = .pass ∨ s.report.pendingMode ≠ none) → badField s = none →
      badPair s = some (a, b) →
      exec (.goLive id tag) s = .next (refusedWith t .showWord tag 1 .overlap (a + 256 * b) 0))

/-- R180: a layout that GO_LIVE accepts lies in the ranges of ch. 1, inside the 40-bit address space,
and no byte lies in two of its regions; GO_LIVE's checks refuse no layout of which that holds. -/
def Obligations.AcceptedLayoutsAreDisjoint : Prop :=
  ∀ s : State,
    let g := s.path.geom
    geometryRefusal s = none ↔
    (640 ≤ g.width ∧ g.width ≤ 3840 ∧ g.width % 16 = 0 ∧ 360 ≤ g.height ∧ g.height ≤ 2160 ∧
      g.stride % 256 = 0 ∧ g.width * 4 ≤ g.stride ∧ g.stride ≤ 32768 ∧ 16 ≤ g.slotCount ∧
      g.slotCount ≤ 1024 ∧ g.canvasBase % 256 = 0 ∧ g.windowBase % 256 = 0 ∧ g.poolBase % 256 = 0 ∧
      g.assetBase % 65536 = 0 ∧ (∃ k, k ≤ 10 ∧ g.sectorSize = 65536 * 2 ^ k) ∧
      g.scanTag ≠ g.ingestTag) ∧
    ∀ a : Nat,
      let canvas := g.canvasBase ≤ a ∧ a < g.canvasBase + g.stride * g.height
      let window := g.windowBase ≤ a ∧ a < g.windowBase + g.stride * g.height
      let pool := g.poolBase ≤ a ∧ a < g.poolBase + g.slotCount * (g.stride * g.height)
      let asset := g.assetBase ≤ a ∧ a < g.assetBase + 16 * g.sectorSize
      let table := tableBase s ≤ a ∧ a < tableBase s + 1048576
      ((canvas ∨ window ∨ pool ∨ asset ∨ table) → a < 2 ^ 40) ∧
      ¬(canvas ∧ window) ∧ ¬(canvas ∧ pool) ∧ ¬(canvas ∧ asset) ∧ ¬(canvas ∧ table) ∧
      ¬(window ∧ pool) ∧ ¬(window ∧ asset) ∧ ¬(window ∧ table) ∧ ¬(pool ∧ asset) ∧
      ¬(pool ∧ table) ∧ ¬(asset ∧ table)

/-! ### Requests: the CLOCK word -/

/-- R73, R64: RUN_ENABLE and RUN_DISABLE, with every case of the run condition; a stop takes a pending
configuration (R66, R78). That the snapshot of the stop's refresh shows the outcome recorded and
CLOCK_STOPPED taken is the model's reading (log 10); so is the added-time flag where the configuration
taken changes the set-point and not the mode (log 9). -/
def Obligations.RunSwitchFollowsTheRunCondition : Prop :=
  ∀ (s : State) (id : BitVec 8) (tag : Byte), WordReady s id .clockWord →
    let t := asked s id .clockWord 1 [] tag
    let u := asked s id .clockWord 2 [] tag
    let gate := s.gateRun = true ∨ s.clock.config.gateOverride = true
    let answered := fun (x : State) (c : ClockUnit) =>
      recorded { x with clock := c } .clockWord tag .accepted false
    (s.clock.soft = true → exec (.runEnable id tag) s =
      .next (recorded t .clockWord tag .duplicate false)) ∧
    (s.clock.soft = false → s.clock.state = .expired ∨ (s.clock.state = .stopped ∧ ¬gate) →
      exec (.runEnable id tag) s = .next (answered t { s.clock with soft := true })) ∧
    (s.clock.soft = false → s.clock.state = .stopped → gate →
      ¬(s.clock.config.mode = .down ∧ s.clock.value = 0) → exec (.runEnable id tag) s =
        .next (answered t (started { s.clock with soft := true } s.comp.frame .soft))) ∧
    (s.clock.soft = false → s.clock.state = .stopped → gate → s.clock.config.mode = .down →
      s.clock.value = 0 → exec (.runEnable id tag) s =
        .next (answered t { s.clock with soft := true, state := .expired })) ∧
    (s.clock.soft = false → exec (.runDisable id tag) s =
      .next (recorded u .clockWord tag .duplicate false)) ∧
    (s.clock.soft = true → s.clock.state ≠ .running → exec (.runDisable id tag) s =
      .next (answered u { s.clock with soft := false })) ∧
    (s.clock.soft = true → s.clock.state = .running → s.clock.configPending = false →
      exec (.runDisable id tag) s =
        .next (stopReported
          (answered u (stopped { s.clock with soft := false } s.comp.frame .stopped .soft))
          .soft s.clock.period s.clock.value)) ∧
    (s.clock.soft = true → s.clock.state = .running → s.clock.configPending = true →
      exec (.runDisable id tag) s =
        .next (stopReported
          (answered u (configured s.gateRun s.comp.frame (readClockConfig s.path.shadow)
            (stopped { s.clock with soft := false } s.comp.frame .stopped .soft)))
          .soft s.clock.period s.clock.value))

/-- R74: SET loads the value of a clock that is not RUNNING, makes it STOPPED, clears the added-time
flag and starts it at once where the run condition holds. -/
def Obligations.SetLoadsTheGameClock : Prop :=
  ∀ (s : State) (id : BitVec 8) (tag : Byte) (v : BitVec 32), WordReady s id .clockWord →
    let t := asked s id .clockWord 3 (leBytes 4 v.toNat) tag
    let loaded := { s.clock with value := v.toNat, state := .stopped, added := false }
    let gate := s.gateRun = true ∨ s.clock.config.gateOverride = true
    (s.clock.state ≠ .running → 1 ≤ v.toNat → v.toNat ≤ 5999999 →
      ¬(s.clock.soft = true ∧ gate) → exec (.clockSet id tag v) s =
        .next (recorded { t with clock := loaded } .clockWord tag .accepted false)) ∧
    (s.clock.state ≠ .running → 1 ≤ v.toNat → v.toNat ≤ 5999999 → s.clock.soft = true → gate →
      exec (.clockSet id tag v) s =
        .next (recorded { t with clock := started loaded s.comp.frame .soft } .clockWord tag
          .accepted false)) ∧
    (s.clock.state = .running → exec (.clockSet id tag v) s =
      .next (refusedWith t .clockWord tag 3 .running 0 0)) ∧
    (s.clock.state ≠ .running → (v = 0 ∨ 5999999 < v.toNat) → exec (.clockSet id tag v) s =
      .next (refusedWith t .clockWord tag 3 .badParam v.toNat 1))

/-- R75: ADJUST moves the value by a signed delta, clamped, with the effect on the state and the
added-time flag that the table gives; the stop of an ADJUST to 0 takes a pending configuration (R66,
R78). That the snapshot of the stop's refresh shows the outcome recorded is the model's reading
(log 10); so is the added-time flag at a changed set-point of the configuration taken (log 9). -/
def Obligations.AdjustMovesTheGameClock : Prop :=
  ∀ (s : State) (id : BitVec 8) (tag : Byte) (delta : BitVec 32), WordReady s id .clockWord →
    let t := asked s id .clockWord 4 (leBytes 4 delta.toNat) tag
    let sum := (s.clock.value : Int) + delta.toInt
    let v := (max 0 (min 5999999 sum)).toNat
    let o := if sum < 0 ∨ 5999999 < sum then ReqOutcome.clamped else .accepted
    let gate := s.gateRun = true ∨ s.clock.config.gateOverride = true
    let answered := fun (c : ClockUnit) => recorded { t with clock := c } .clockWord tag o false
    (s.clock.config.mode = .up → exec (.clockAdjust id tag delta) s =
      .next (answered
        { s.clock with value := v, added := decide (s.clock.config.setPoint ≤ v) })) ∧
    (s.clock.config.mode = .down → v ≠ 0 → s.clock.state ≠ .expired →
      exec (.clockAdjust id tag delta) s = .next (answered { s.clock with value := v })) ∧
    (s.clock.config.mode = .down → v = 0 → s.clock.state ≠ .running →
      exec (.clockAdjust id tag delta) s =
        .next (answered { s.clock with value := 0, state := .expired })) ∧
    (s.clock.config.mode = .down → v ≠ 0 → s.clock.state = .expired →
      ¬(s.clock.soft = true ∧ gate) → exec (.clockAdjust id tag delta) s =
        .next (answered { s.clock with value := v, state := .stopped })) ∧
    (s.clock.config.mode = .down → v ≠ 0 → s.clock.state = .expired → s.clock.soft = true → gate →
      exec (.clockAdjust id tag delta) s =
        .next (answered (started { s.clock with value := v } s.comp.frame .soft))) ∧
    (s.clock.config.mode = .down → v = 0 → s.clock.state = .running →
      s.clock.configPending = false → exec (.clockAdjust id tag delta) s =
        .next (stopReported
          (answered (stopped { s.clock with value := 0 } s.comp.frame .expired .adjust))
          .adjust s.clock.period 0)) ∧
    (s.clock.config.mode = .down → v = 0 → s.clock.state = .running →
      s.clock.configPending = true → exec (.clockAdjust id tag delta) s =
        .next (stopReported
          (answered (configured s.gateRun s.comp.frame (readClockConfig s.path.shadow)
            (stopped { s.clock with value := 0 } s.comp.frame .expired .adjust)))
          .adjust s.clock.period 0))

/-- R76: PERIOD_NEXT, from a clock that does not run and from one that does, whose stop takes a pending
configuration (R66, R78), so that the period starts by the new one. That the snapshot of the stop's
refresh shows the new period and the outcome recorded is the model's reading (log 10). -/
def Obligations.PeriodNextStartsTheNextPeriod : Prop :=
  ∀ (s : State) (id : BitVec 8) (tag : Byte), WordReady s id .clockWord →
    let t := asked s id .clockWord 5 [] tag
    let o := if 9 ≤ s.clock.period then ReqOutcome.clamped else .accepted
    let next := fun (c : ClockUnit) =>
      { c with
        period := min 9 (c.period + 1),
        value := (match c.config.mode with
          | .down => c.config.startValue
          | .up => 0),
        state := .stopped, soft := false, added := false, shotValue := c.config.shotReset }
    (s.clock.state ≠ .running → exec (.periodNext id tag) s =
      .next (recorded { t with clock := next s.clock } .clockWord tag o false)) ∧
    (s.clock.state = .running → s.clock.configPending = false → exec (.periodNext id tag) s =
      .next (stopReported
        (recorded { t with clock := next (stopped s.clock s.comp.frame .stopped .soft) } .clockWord
          tag o false)
        .soft s.clock.period s.clock.value)) ∧
    (s.clock.state = .running → s.clock.configPending = true → exec (.periodNext id tag) s =
      .next (stopReported
        (recorded
          { t with
            clock := next (configured s.gateRun s.comp.frame (readClockConfig s.path.shadow)
              (stopped { s.clock with soft := false } s.comp.frame .stopped .soft)) }
          .clockWord tag o false)
        .soft s.clock.period s.clock.value))

/-- R71, R72, R77: the shot clock's requests change its value or its enable, HORN sounds HORN_GAME for
100 to 5,000 ms from now, and none of them changes anything else. -/
def Obligations.ShotAndHornRequestsActOnTheirPartOnly : Prop :=
  ∀ (s : State) (id : BitVec 8) (tag : Byte) (v : BitVec 32) (ms : BitVec 16),
    WordReady s id .clockWord →
    let reset := asked s id .clockWord 6 [] tag
    let load := asked s id .clockWord 7 (leBytes 4 v.toNat) tag
    let on := asked s id .clockWord 8 [] tag
    let off := asked s id .clockWord 9 [] tag
    let sound := asked s id .clockWord 10 (leBytes 2 ms.toNat) tag
    let answered := fun (x : State) (c : ClockUnit) =>
      recorded { x with clock := c } .clockWord tag .accepted false
    (exec (.shotReset id tag) s =
      .next (answered reset { s.clock with shotValue := s.clock.config.shotReset })) ∧
    (v.toNat ≤ 99999 → exec (.shotSet id tag v) s =
      .next (answered load { s.clock with shotValue := v.toNat })) ∧
    (99999 < v.toNat → exec (.shotSet id tag v) s =
      .next (refusedWith load .clockWord tag 7 .badParam v.toNat 1)) ∧
    (s.clock.shotOn = false → exec (.shotEnable id tag) s =
      .next (answered on { s.clock with shotOn := true })) ∧
    (s.clock.shotOn = true → exec (.shotEnable id tag) s =
      .next (recorded on .clockWord tag .duplicate false)) ∧
    (s.clock.shotOn = true → exec (.shotDisable id tag) s =
      .next (answered off { s.clock with shotOn := false })) ∧
    (s.clock.shotOn = false → exec (.shotDisable id tag) s =
      .next (recorded off .clockWord tag .duplicate false)) ∧
    (100 ≤ ms.toNat → ms.toNat ≤ 5000 → exec (.horn id tag ms) s =
      .next (answered sound { s.clock with hornGame := some (s.clock.house + ms.setWidth 32) })) ∧
    ((ms.toNat < 100 ∨ 5000 < ms.toNat) → exec (.horn id tag ms) s =
      .next (refusedWith sound .clockWord tag 10 .badParam ms.toNat 1))

/-! ### Requests: the REPLAY word -/

/-- R113, R114: an ARM that passes every check sets its clip, the in-point no lower than the run start
of its out-point, and each check that fails, in the table's order, refuses it; of several parameters out
of range the first by the table's order is reported, which is the model's choice (log 14). -/
def Obligations.ArmSetsTheClip : Prop :=
  (∀ (s : State) (id : BitVec 8) (tag c rate flags bf bi : Byte) (inP outP : BitVec 32),
    WordReady s id .replayWord → c.toNat ≤ 15 → inP ≠ 0 → outP ≠ 0 → 1 ≤ rate.toNat →
    rate.toNat ≤ 8 → flags.toNat % 4 ≤ 1 → bf.toNat ≤ 120 → bi.toNat ≤ 3 →
    (clipAt s c.toNat).state ≠ .playing → inP.toNat ≤ outP.toNat → present s outP.toNat = true →
    let clip : Clip :=
      { state := .armed, inPoint := max inP.toNat (runStart s outP.toNat), outPoint := outP.toNat,
        rate := rate.toNat,
        endAction := if flags.toNat % 4 = 1 then .returnLive else .holdLast,
        bumperFrames := bf.toNat,
        bumper := if bf = 0 then none else some (bumperDescriptor s.path.shadow bi.toNat),
        autoDisarm := flags.getLsbD 7 }
    3 ≤ unheldCount s (s.replay.clips.modify c.toNat fun _ => clip) →
    exec (.arm id tag c rate flags inP outP bf bi) s =
      .next (recorded
        (modifyClip (asked s id .replayWord 1
            ([c, rate, flags] ++ leBytes 4 inP.toNat ++ leBytes 4 outP.toNat ++ [bf, bi]) tag)
          c.toNat fun _ => clip)
        .replayWord tag (if inP.toNat < runStart s outP.toNat then .clamped else .accepted) false)) ∧
  ∀ (s : State) (id : BitVec 8) (tag c rate flags bf bi : Byte) (inP outP : BitVec 32),
    WordReady s id .replayWord →
    let t := asked s id .replayWord 1
      ([c, rate, flags] ++ leBytes 4 inP.toNat ++ leBytes 4 outP.toNat ++ [bf, bi]) tag
    let refused := fun o value offset => exec (.arm id tag c rate flags inP outP bf bi) s =
      .next (refusedWith t .replayWord tag 1 o value offset)
    let points := c.toNat ≤ 15 ∧ inP ≠ 0 ∧ outP ≠ 0
    let speed := 1 ≤ rate.toNat ∧ rate.toNat ≤ 8
    let inRange := points ∧ speed ∧ flags.toNat % 4 ≤ 1 ∧ bf.toNat ≤ 120 ∧ bi.toNat ≤ 3
    (15 < c.toNat → refused .badParam c.toNat 1) ∧
    (c.toNat ≤ 15 → inP = 0 → refused .badParam 0 4) ∧
    (c.toNat ≤ 15 → inP ≠ 0 → outP = 0 → refused .badParam 0 8) ∧
    (points → (rate = 0 ∨ 8 < rate.toNat) → refused .badParam rate.toNat 2) ∧
    (points → speed → 1 < flags.toNat % 4 → refused .badParam (flags.toNat % 4) 3) ∧
    (points → speed → flags.toNat % 4 ≤ 1 → 120 < bf.toNat → refused .badParam bf.toNat 12) ∧
    (points → speed → flags.toNat % 4 ≤ 1 → bf.toNat ≤ 120 → 3 < bi.toNat →
      refused .badParam bi.toNat 13) ∧
    (inRange → (clipAt s c.toNat).state = .playing → refused .inUse 0 0) ∧
    (inRange → (clipAt s c.toNat).state ≠ .playing →
      (outP.toNat < inP.toNat → refused .badRange 0 0) ∧
      (inP.toNat ≤ outP.toNat →
        (present s outP.toNat = false → (∃ x ∈ filledSeqs s, outP.toNat ≤ x) →
          refused .gone 0 0) ∧
        ((∀ x ∈ filledSeqs s, x < outP.toNat) → refused .notYet 0 0) ∧
        (present s outP.toNat = true →
          (∀ clip : Clip, clip.state = .armed → clip.outPoint = outP.toNat →
            clip.inPoint = max inP.toNat (runStart s outP.toNat) →
            unheldCount s (s.replay.clips.modify c.toNat fun _ => clip) < 3) →
          refused .noRoom 0 0)))

/-- R115, R116: DISARM empties an ARMED clip and releases at once every slot that no other clip holds;
RESET_RING empties the slot table and the clip table, unless a clip is PLAYING. -/
def Obligations.DisarmAndResetRingReleaseTheSlots : Prop :=
  ∀ (s : State) (id : BitVec 8) (tag c : Byte), WordReady s id .replayWord →
    let t := asked s id .replayWord 2 [c] tag
    let u := modifyClip t c.toNat fun _ => .emptied
    let v := asked s id .replayWord 3 [] tag
    (c.toNat ≤ 15 → (clipAt s c.toNat).state = .armed →
      exec (.disarm id tag c) s = .next (recorded u .replayWord tag .accepted false) ∧
      ∀ k, (∀ b, b ≠ c.toNat → (clipAt s b).holds (slotAt s k).seq = false) → slotHeld u k = false) ∧
    (c.toNat ≤ 15 → (clipAt s c.toNat).state = .empty → exec (.disarm id tag c) s =
      .next (recorded t .replayWord tag .duplicate false)) ∧
    (c.toNat ≤ 15 → (clipAt s c.toNat).state = .playing → exec (.disarm id tag c) s =
      .next (refusedWith t .replayWord tag 2 .inUse 0 0)) ∧
    (15 < c.toNat → exec (.disarm id tag c) s =
      .next (refusedWith t .replayWord tag 2 .badParam c.toNat 1)) ∧
    ((∀ x ∈ s.replay.clips, x.state ≠ .playing) → exec (.resetRing id tag) s =
      .next (recorded
        { v with replay := { s.replay with
            slots := List.replicate s.path.geom.slotCount .emptied, fill := none, captureSeq := 1,
            clips := List.replicate 16 .emptied } }
        .replayWord tag .accepted false)) ∧
    ((∃ x ∈ s.replay.clips, x.state = .playing) → exec (.resetRing id tag) s =
      .next (refusedWith v .replayWord tag 3 .inUse 0 0))

/-- R126, R127: a PLAY of an ARMED clip becomes the waiting request and supersedes an earlier one; the
refusals of PLAY. -/
def Obligations.PlayBecomesTheWaitingRequest : Prop :=
  ∀ (s : State) (id : BitVec 8) (tag c : Byte), WordReady s id .replayWord →
    let t := asked s id .replayWord 4 [c] tag
    let waits := fun (x : State) => recorded
      { x with replay := { s.replay with waiting := some (.play c.toNat) } } .replayWord tag
      .accepted true
    let refused := fun o value offset => exec (.play id tag c) s =
      .next (refusedWith t .replayWord tag 4 o value offset)
    (c.toNat ≤ 15 → s.report.mode = .live → (clipAt s c.toNat).state = .armed →
      (s.replay.waiting = none → exec (.play id tag c) s = .next (waits t)) ∧
      (s.replay.waiting = some (.play c.toNat) → exec (.play id tag c) s =
        .next (recorded t .replayWord tag .duplicate false)) ∧
      (s.replay.waiting ≠ none → s.replay.waiting ≠ some (.play c.toNat) →
        exec (.play id tag c) s = .next (waits (dropMarked t .replayWord .superseded)))) ∧
    (15 < c.toNat → refused .badParam c.toNat 1) ∧
    (c.toNat ≤ 15 → s.report.mode = .pass → refused .wrongMode 0 0) ∧
    (c.toNat ≤ 15 → s.report.mode = .live → (clipAt s c.toNat).state ≠ .armed →
      refused .notArmed 0 0)

/-- R126, R131: TAKE_LIVE in every playback state. -/
def Obligations.TakeLiveBecomesTheWaitingRequest : Prop :=
  ∀ (s : State) (id : BitVec 8) (tag : Byte), WordReady s id .replayWord →
    let t := asked s id .replayWord 8 [] tag
    let waits := fun (x : State) => recorded
      { x with replay := { s.replay with waiting := some .takeLive } } .replayWord tag .accepted true
    let onReplay := s.replay.playback = .entering ∨ s.replay.playback = .onAir ∨
      s.replay.playback = .frozen
    (onReplay → s.replay.waiting = none → exec (.takeLive id tag) s = .next (waits t)) ∧
    (∀ c, (onReplay ∨ s.replay.playback = .live) → s.replay.waiting = some (.play c) →
      exec (.takeLive id tag) s = .next (waits (dropMarked t .replayWord .superseded))) ∧
    (s.replay.playback = .leaving ∨ s.replay.waiting = some .takeLive →
      exec (.takeLive id tag) s = .next (recorded t .replayWord tag .duplicate false)) ∧
    (s.replay.playback = .live → s.replay.waiting = none → exec (.takeLive id tag) s =
      .next (refusedWith t .replayWord tag 8 .notOnAir 0 0))

/-- R129: FREEZE and RESUME act at once on the playback state. -/
def Obligations.FreezeAndResumeActAtOnce : Prop :=
  ∀ (s : State) (id : BitVec 8) (tag : Byte), WordReady s id .replayWord →
    let t := asked s id .replayWord 5 [] tag
    let u := asked s id .replayWord 6 [] tag
    let off := s.replay.playback = .live ∨ s.replay.playback = .entering ∨
      s.replay.playback = .leaving
    (s.replay.playback = .onAir → exec (.freeze id tag) s =
      .next (recorded { t with replay := { s.replay with playback := .frozen, counter := 0 } }
        .replayWord tag .accepted false)) ∧
    (s.replay.playback = .frozen → exec (.freeze id tag) s =
      .next (recorded t .replayWord tag .duplicate false)) ∧
    (off → exec (.freeze id tag) s = .next (refusedWith t .replayWord tag 5 .notOnAir 0 0)) ∧
    (∀ c, s.replay.playback = .frozen → s.replay.clip = some c → exec (.replayResume id tag) s =
      .next (recorded
        { u with replay :=
            { s.replay with playback := .onAir, counter := (clipAt s c).rate - 1 } }
        .replayWord tag .accepted false)) ∧
    (s.replay.playback = .onAir → exec (.replayResume id tag) s =
      .next (recorded u .replayWord tag .duplicate false)) ∧
    (off → exec (.replayResume id tag) s = .next (refusedWith u .replayWord tag 6 .notOnAir 0 0))

/-- R130: STEP moves the position of a frozen replay by one sequence inside its clip's range. -/
def Obligations.StepMovesAFrozenReplay : Prop :=
  ∀ (s : State) (id : BitVec 8) (tag d : Byte), WordReady s id .replayWord →
    let t := asked s id .replayWord 7 [d] tag
    let moved := fun q => recorded { t with replay := { s.replay with position := q } } .replayWord tag
      .accepted false
    let refused := fun o value offset => exec (.stepReplay id tag d) s =
      .next (refusedWith t .replayWord tag 7 o value offset)
    (∀ c, s.replay.playback = .frozen → s.replay.clip = some c →
      (d = 1 → s.replay.position < (clipAt s c).outPoint → exec (.stepReplay id tag d) s =
        .next (moved (s.replay.position + 1))) ∧
      (d = 1 → (clipAt s c).outPoint ≤ s.replay.position → exec (.stepReplay id tag d) s =
        .next (recorded t .replayWord tag .clamped false)) ∧
      (d = 255 → (clipAt s c).inPoint < s.replay.position → exec (.stepReplay id tag d) s =
        .next (moved (s.replay.position - 1))) ∧
      (d = 255 → s.replay.position ≤ (clipAt s c).inPoint → exec (.stepReplay id tag d) s =
        .next (recorded t .replayWord tag .clamped false))) ∧
    (d ≠ 1 → d ≠ 255 → refused .badParam d.toNat 1) ∧
    ((d = 1 ∨ d = 255) → s.replay.playback = .onAir → refused .running 0 0) ∧
    ((d = 1 ∨ d = 255) → (s.replay.playback = .live ∨ s.replay.playback = .entering ∨
      s.replay.playback = .leaving) → refused .notOnAir 0 0)

/-! ### Requests: the TICKER word, the spare word, unlisted codes -/

/-- R149, R161: PURGE empties the crowd queue at once, drives MSGHOLD low and resumes a paused fetch;
PAUSE and RESUME act at once on the band state, or on the prior state of a SUPPRESSED band. -/
def Obligations.TickerRequestsActAtOnce : Prop :=
  ∀ (s : State) (id : BitVec 8) (tag : Byte), WordReady s id .tickerWord →
    let p := asked s id .tickerWord 1 [] tag
    let t := asked s id .tickerWord 2 [] tag
    let u := asked s id .tickerWord 3 [] tag
    let purged := { p with msg := { s.msg with queue := [], hold := false } }
    let acted := fun (x : State) (k : TickerUnit) => recorded { x with ticker := k } .tickerWord tag
      .accepted false
    let on := fun b => s.ticker.state = b ∨ (s.ticker.state = .suppressed ∧ s.ticker.prior = some b)
    (s.msg.queue ≠ [] → (s.msg.fetch.isSome = true ∨ outstanding s = 0) →
      exec (.purge id tag) s = .next (recorded purged .tickerWord tag .accepted false)) ∧
    (s.msg.queue ≠ [] → s.msg.fetch = none → 0 < outstanding s → exec (.purge id tag) s =
      .next (recorded
        (issue { purged with msg := { purged.msg with fetch := some s.msg.head } }
          (.burst (.read (recordFetch s s.msg.head))))
        .tickerWord tag .accepted false)) ∧
    (s.msg.queue = [] → exec (.purge id tag) s =
      .next (recorded p .tickerWord tag .duplicate false)) ∧
    (s.ticker.state = .running → exec (.pause id tag) s =
      .next (acted t { s.ticker with state := .paused })) ∧
    (s.ticker.state = .suppressed → s.ticker.prior = some .running → exec (.pause id tag) s =
      .next (acted t { s.ticker with prior := some .paused })) ∧
    (on .paused → exec (.pause id tag) s = .next (recorded t .tickerWord tag .duplicate false)) ∧
    (on .hidden → exec (.pause id tag) s =
      .next (refusedWith t .tickerWord tag 2 .notOnAir 0 0)) ∧
    (s.ticker.state = .paused → exec (.tickerResume id tag) s =
      .next (acted u { s.ticker with state := .running })) ∧
    (s.ticker.state = .suppressed → s.ticker.prior = some .paused →
      exec (.tickerResume id tag) s = .next (acted u { s.ticker with prior := some .running })) ∧
    (on .running → exec (.tickerResume id tag) s =
      .next (recorded u .tickerWord tag .duplicate false)) ∧
    (on .hidden → exec (.tickerResume id tag) s =
      .next (refusedWith u .tickerWord tag 3 .notOnAir 0 0))

/-- R182, R190: every request on the spare word, and a code that a word's table does not list, is
refused with UNKNOWN and changes nothing else. -/
def Obligations.UnlistedCodesAreUnknown : Prop :=
  ∀ (s : State) (id : BitVec 8) (tag code : Byte),
    (WordReady s id .spareWord → exec (.spareRequest id tag code) s =
      .next (refusedWith (asked s id .spareWord code [] tag) .spareWord tag code .unknown 0 0)) ∧
    ∀ word : CodedWord, WordReady s id (codedWord word) → word.lists code = false →
      exec (.unknownRequestCode id tag word code) s =
        .next (refusedWith (asked s id (codedWord word) code [] tag) (codedWord word) tag code
          .unknown 0 0)

/-! ### Lines and time -/

/-- R65, R64: a GATE_RUN edge is stamped; it starts a STOPPED clock, stops a RUNNING one, which takes a
pending configuration (R66, R78), or has no effect beyond the stamp. That the snapshot of the stop's
refresh comes after CLOCK_STOPPED is the model's reading (log 10); so is the added-time flag where the
configuration taken changes the set-point and not the mode (log 9). -/
def Obligations.GateEdgeStartsAndStopsTheClock : Prop :=
  ∀ s : State, Quiet s →
    let c := { s.clock with
      gateRec :=
        { house := s.clock.house, frame := s.comp.frame, value := s.clock.value,
          rising := !s.gateRun } }
    let edge := fun (c : ClockUnit) => { s with gateRun := !s.gateRun, clock := c }
    (s.gateRun = false → s.clock.state = .stopped → s.clock.soft = true →
      ¬(s.clock.config.mode = .down ∧ s.clock.value = 0) →
      exec .gateRunEdge s = .next (edge (started c s.comp.frame .gate))) ∧
    (s.gateRun = false → s.clock.state = .stopped → s.clock.soft = true →
      s.clock.config.mode = .down → s.clock.value = 0 →
      exec .gateRunEdge s = .next (edge { c with state := .expired })) ∧
    (s.gateRun = true → s.clock.state = .running → s.clock.config.gateOverride = false →
      s.clock.configPending = false →
      exec .gateRunEdge s =
        .next (stopReported (edge (stopped c s.comp.frame .stopped .gate)) .gate s.clock.period
          s.clock.value)) ∧
    (s.gateRun = true → s.clock.state = .running → s.clock.config.gateOverride = false →
      s.clock.configPending = true →
      exec .gateRunEdge s =
        .next (stopReported
          (edge (configured false s.comp.frame (readClockConfig s.path.shadow)
            (stopped c s.comp.frame .stopped .gate)))
          .gate s.clock.period s.clock.value)) ∧
    (s.clock.state = .expired ∨ (s.clock.soft = false ∧ s.clock.state = .stopped) ∨
      (s.clock.config.gateOverride = true ∧ s.clock.soft = true ∧ s.clock.state = .running) ∨
      (s.gateRun = true ∧ s.clock.state = .stopped ∧ s.clock.config.gateOverride = false) →
      exec .gateRunEdge s = .next (edge c))

/-- R60, R61, R63, R71: a SHOT_RST edge, a TB_IN edge and an advance of house time that bring about
nothing but a reset of the shot clock, a tick, a counted edge or the passing of a millisecond. -/
def Obligations.PlainEdgesAndAdvances : Prop :=
  ∀ s : State, Quiet s →
    let c := s.clock
    (exec .shotRstEdge s = .next { s with clock := { c with shotValue := c.config.shotReset } }) ∧
    (c.source = .external → c.state ≠ .running → exec .tbInEdge s = .next s) ∧
    (c.source = .external → c.state = .running → c.config.mode = .down → 2 ≤ c.value →
      ShotRunsOn c → exec .tbInEdge s =
        .next { s with clock :=
          { c with watch := some c.house, value := c.value - 1, shotValue := shotTicked c } }) ∧
    (c.source = .external → c.state = .running → c.config.mode = .up → c.value + 1 < 5999999 →
      c.value + 1 ≠ c.config.setPoint → ShotRunsOn c → exec .tbInEdge s =
        .next { s with clock :=
          { c with watch := some c.house, value := c.value + 1, shotValue := shotTicked c } }) ∧
    (c.source = .internal → (c.returns = 0 ∨ 3 < (c.house - c.lastReturn).toNat) →
      exec .tbInEdge s = .next { s with clock := { c with returns := 1, lastReturn := c.house } }) ∧
    (c.source = .internal → c.returns ≠ 0 → (c.house - c.lastReturn).toNat ≤ 3 → c.returns ≠ 7 →
      exec .tbInEdge s =
        .next { s with clock := { c with returns := c.returns + 1, lastReturn := c.house } }) ∧
    (lossDue s = false → hornDue s = false → expiryDue s = false →
      ¬(c.state = .running ∧ c.source = .internal) →
      exec .houseTimeAdvance s = .next { s with clock := { c with house := c.house + 1 } }) ∧
    (hornDue s = false → expiryDue s = false → c.state = .running → c.source = .internal →
      c.config.mode = .down → 2 ≤ c.value → ShotRunsOn c → exec .houseTimeAdvance s =
        .next { s with clock :=
          { c with house := c.house + 1, value := c.value - 1, shotValue := shotTicked c } }) ∧
    (hornDue s = false → expiryDue s = false → c.state = .running → c.source = .internal →
      c.config.mode = .up → c.value + 1 < 5999999 → c.value + 1 ≠ c.config.setPoint →
      ShotRunsOn c → exec .houseTimeAdvance s =
        .next { s with clock :=
          { c with house := c.house + 1, value := c.value + 1, shotValue := shotTicked c } })

/-- R62, R63: the loss of the timebase counts three ticks at once and makes the source INTERNAL; the
eighth returning edge makes it EXTERNAL again and is no tick. R67, R68, R70: one of the three ticks may expire
the shot clock, which then counts no further, reach the UP set-point, or end RUNNING, and then the rest are
not counted; a pending configuration is taken at that end (R66, R78). The model's readings: SHOT_EXPIRED carries
the game value after its tick, PERIOD_END of an expiry carries mode DOWN beside a configuration that is taken
there, and a clock that stands at 5,999,999 with that set-point has no PERIOD_END and no flag from a tick that
does not raise it (log 15); the added-time flag at a changed mode or set-point of the configuration taken (log 9);
the refresh of the stop shows all its notices (log 10). The order of the notices is open (log 1). -/
def Obligations.TimebaseIsLostAndRestored : Prop :=
  ∀ s : State, Quiet s →
    let c := s.clock
    (∀ m, c.state = .running → c.source = .external → c.watch = some m →
      reached (c.house + 1) (m + 3) = true → hornDue s = false → expiryDue s = false →
      c.config.mode = .down → 4 ≤ c.value →
      (c.shotOn = false ∨ c.shotValue = 0 ∨ 4 ≤ c.shotValue) →
      exec .timebaseLoss s =
        .next (takeOccurrence
          { s with clock :=
            { c with
              house := c.house + 1, source := .internal, returns := 0, value := c.value - 3,
              shotValue := if c.shotOn then c.shotValue - 3 else c.shotValue } }
          .timebaseLost
          (layout 16 [(4, leBytes 4 (c.value - 3)), (8, leBytes 4 (c.house + 1).toNat)]))) ∧
    (∀ m, c.state = .running → c.source = .external → c.watch = some m →
      reached (c.house + 1) (m + 3) = true → hornDue s = false → expiryDue s = false →
      let lost := fun value (x : ClockUnit) =>
        { x with house := c.house + 1, source := .internal, returns := 0, value := value }
      let left := fun value x => { s with clock := lost value x }
      let sounds := some (c.house + 1 + BitVec.ofNat 32 c.config.hornLength)
      let notice := fun value => (NoticeKind.timebaseLost,
        layout 16 [(4, leBytes 4 value), (8, leBytes 4 (c.house + 1).toNat)])
      let answers := fun (t : State) l => ∃ u, exec .timebaseLoss s = .next u ∧ takenInAnyOrder t u l
      let shotOver := c.shotOn = true ∧ 1 ≤ c.shotValue ∧ c.shotValue ≤ 3
      let shotLeft := if c.shotOn then c.shotValue - 3 else c.shotValue
      let climbs := c.config.mode = .up ∧ c.value + 3 < 5999999 ∧
        (c.config.setPoint ≤ c.value ∨ c.value + 3 < c.config.setPoint)
      (¬shotOver → climbs → exec .timebaseLoss s =
        .next (takeOccurrence
          (left (c.value + 3) { c with shotValue := shotLeft })
          .timebaseLost (notice (c.value + 3)).2)) ∧
      (¬shotOver → c.config.mode = .up → c.value + 3 < 5999999 → c.value < c.config.setPoint →
        c.config.setPoint ≤ c.value + 3 →
        answers
          (left (c.value + 3)
            { c with
              shotValue := shotLeft, added := true,
              hornGame := if c.config.upHorn then sounds else c.hornGame })
          [notice (c.value + 3), (.periodEnd, layout 16 [(0, leBytes 1 c.period), (1, leBytes 1 1),
            (2, leBytes 1 1), (4, leBytes 4 (c.house + 1).toNat)])]) ∧
      (shotOver → climbs ∨ (c.config.mode = .down ∧ 4 ≤ c.value) →
        let value := fun k => if c.config.mode = .up then c.value + k else c.value - k
        answers
          (left (value 3) { c with shotValue := 0, hornShot := sounds })
          [notice (value 3), (.shotExpired,
            layout 16 [(0, leBytes 1 c.period), (4, leBytes 4 (value c.shotValue))])]) ∧
      (let ticks := max 1 c.value
        let atZero := lost 0
          { c with
            shotValue := if c.shotOn then c.shotValue - ticks else c.shotValue, hornGame := sounds }
        c.config.mode = .down → c.value ≤ 3 → periodSpotEnable s.path.shadow = false →
        (c.shotOn = false ∨ c.shotValue = 0 ∨ ticks < c.shotValue) →
        answers
          (refreshDue
            { s with clock := stoppedConfigured s s.gateRun atZero .expired .expiry } .clockStop)
          [notice 0, (.clockStopped, layout 16 [(0, leBytes 1 ClockCause.expiry.code),
              (1, leBytes 1 c.period), (4, leBytes 4 0)]),
            (.periodEnd, layout 16 [(0, leBytes 1 c.period), (1, leBytes 1 0), (2, leBytes 1 0),
              (4, leBytes 4 (c.house + 1).toNat)])]) ∧
      (let ticks := max 1 (5999999 - c.value)
        let atLimit := lost 5999999
          { c with
            shotValue := if c.shotOn then c.shotValue - ticks else c.shotValue, soft := false }
        c.config.mode = .up → 5999996 ≤ c.value → c.value ≤ 5999999 →
        c.config.setPoint ≤ c.value →
        (c.shotOn = false ∨ c.shotValue = 0 ∨ ticks < c.shotValue) →
        answers
          (refreshDue
            { s with clock := stoppedConfigured s s.gateRun atLimit .stopped .limit } .clockStop)
          [notice 5999999, (.clockStopped, layout 16 [(0, leBytes 1 ClockCause.limit.code),
              (1, leBytes 1 c.period), (4, leBytes 4 5999999)]),
            (.clockLimit, layout 16 [(1, leBytes 1 c.period), (4, leBytes 4 5999999)])])) ∧
    (c.source = .internal → c.returns = 7 → (c.house - c.lastReturn).toNat ≤ 3 →
      exec .timebaseRestore s =
        .next (takeOccurrence
          { s with clock :=
            { c with
              source := .external, returns := 0, lastReturn := c.house,
              watch := if c.state = .running then some c.house else c.watch } }
          .timebaseRestored
          (layout 16 [(4, leBytes 4 c.value), (8, leBytes 4 c.house.toNat)])))

/-- R72, R146: the advance of house time that reaches a horn's end silences that horn; the one that reaches a
deadline removes every message whose deadline it reaches; one advance may do both, and on INTERNAL it is a
tick of a RUNNING clock as well (R61). The commands that name the two cases answer what the advance of house
time answers (log 5). -/
def Obligations.AdvancesEndHornsAndExpireMessages : Prop :=
  ∀ s : State, Quiet s → lossDue s = false →
    let now := s.clock.house + 1
    let ticks := s.clock.state = .running ∧ s.clock.source = .internal
    (ticks → ShotRunsOn s.clock ∧ (s.clock.config.mode = .down → 2 ≤ s.clock.value) ∧
      (s.clock.config.mode = .up → s.clock.value + 1 < 5999999 ∧
        s.clock.value + 1 ≠ s.clock.config.setPoint)) →
    let advanced : ClockUnit :=
      { s.clock with
        house := now,
        hornGame := s.clock.hornGame.filter fun e => !reached now e,
        hornShot := s.clock.hornShot.filter fun e => !reached now e,
        value := (if ticks then
          match s.clock.config.mode with
          | .down => s.clock.value - 1
          | .up => s.clock.value + 1
        else s.clock.value),
        shotValue := if ticks then shotTicked s.clock else s.clock.shotValue }
    (hornDue s = true → exec .hornEnd s = exec .houseTimeAdvance s) ∧
    (expiryDue s = true → exec .messageExpiry s = exec .houseTimeAdvance s) ∧
    (hornDue s = true → expiryDue s = false → exec .hornEnd s = .next { s with clock := advanced }) ∧
    (expiryDue s = true →
      ∃ u, exec .messageExpiry s = .next u ∧
        u.msg.queue = s.msg.queue.filter (fun m => !reached now m.deadline) ∧
        u.msg.hold = (if u.msg.queue.length ≤ lowMark s.path.shadow then false else s.msg.hold) ∧
        u.msg.head = s.msg.head ∧ u.msg.tail = s.msg.tail ∧
        aside u = aside { s with clock := advanced, msg := u.msg }) ∧
    (∀ before m after, s.msg.queue = before ++ m :: after → reached now m.deadline = true →
      (∀ x ∈ before ++ after, reached now x.deadline = false) →
      exec .messageExpiry s =
        .next (takeOccurrence
          (fetchStart (releaseTest
            { s with
              clock := advanced,
              msg := { s.msg with queue := before ++ after } }))
          .msgExpired (layout 16 [(4, leBytes 4 m.id.toNat)])))

/-- R67, R66, R72, R78, R57: the expiry of a DOWN clock: the horn, the stop record and the two notices; a
pending configuration is taken; the period-end spot joins its placement's pending set where SPOT's checks
pass on the placement's fields of the latest FRAME_START (log 8). The command stands for the arrival that
carries the tick (log 5); that the refresh's snapshot comes after PERIOD_END is the model's reading
(log 10), so is DOWN as PERIOD_END's mode (log 15); the order of the notices is open (log 1). -/
def Obligations.GameClockExpiryStopsAtZero : Prop :=
  ∀ s : State, Quiet s → OnlyATick s → s.clock.state = .running → s.clock.config.mode = .down →
    s.clock.value ≤ 1 → ShotRunsOn s.clock →
    let c := tickCarried s.clock
    let m := s.path.shadow
    let atZero : ClockUnit := { c with
      value := 0, shotValue := shotTicked c,
      hornGame := some (c.house + BitVec.ofNat 32 c.config.hornLength) }
    let t := refreshDue { s with clock := stopped atZero s.comp.frame .expired .expiry } .clockStop
    let i := periodSpotSponsor m
    let q := periodSpotPlacement m
    let x := placementAt s q
    ∃ u, exec .gameClockExpiry s = .next u ∧
      u.clock.value = 0 ∧ u.clock.hornGame = atZero.hornGame ∧ u.clock.configPending = false ∧
      u.clock.stopRec = { house := c.house, frame := s.comp.frame, value := 0, cause := .expiry } ∧
      u.clock.config = (if s.clock.configPending then readClockConfig m else s.clock.config) ∧
      (periodSpotEnable m = true → i ≤ 31 → q ≤ 3 → periodSpotDwell m ≠ 0 → s.report.mode = .live →
        q < s.rot.placements.length → x.fields.bound = false → x.fields.member i = true →
        sponsorSuspended m i = false → inStack x.stack i = false → (∀ y ∈ x.spots, y.sponsor ≠ i) →
        (placementAt u q).spots =
          x.spots ++ [{ sponsor := i, creative := 15, dwell := periodSpotDwell m }]) ∧
      (s.clock.configPending = false → periodSpotEnable m = false →
        takenInSomeOrder t u
          (.clockStopped, layout 16 [(0, leBytes 1 ClockCause.expiry.code), (1, leBytes 1 c.period),
            (4, leBytes 4 0)])
          (.periodEnd, layout 16 [(0, leBytes 1 c.period), (1, leBytes 1 0), (2, leBytes 1 0),
            (4, leBytes 4 c.house.toNat)]))

/-- R70: the expiry of the shot clock sounds HORN_SHOT and does not stop the game clock. The command stands
for the arrival that carries the tick (log 5); that SHOT_EXPIRED carries the game value after the tick is
the model's reading (log 15). -/
def Obligations.ShotClockExpirySoundsItsHorn : Prop :=
  ∀ s : State, Quiet s → OnlyATick s → s.clock.state = .running → s.clock.shotOn = true →
    s.clock.shotValue = 1 →
    let c := tickCarried s.clock
    let expired := fun v => takeOccurrence
      { s with clock :=
        { c with
          value := v, shotValue := 0,
          hornShot := some (c.house + BitVec.ofNat 32 c.config.hornLength) } }
      .shotExpired (layout 16 [(0, leBytes 1 c.period), (4, leBytes 4 v)])
    (c.config.mode = .down → 2 ≤ c.value →
      exec .shotClockExpiry s = .next (expired (c.value - 1))) ∧
    (c.config.mode = .up → c.value + 1 < 5999999 → c.value + 1 ≠ c.config.setPoint →
      exec .shotClockExpiry s = .next (expired (c.value + 1)))

/-- R68: an UP clock that reaches its set-point runs on with the added-time flag; at the limit it stops
with its soft enable off, which takes a pending configuration (R66, R78). The command stands for the
arrival that carries the tick (log 5). The model's readings: a clock that stands at 5,999,999 with that
set-point has no PERIOD_END and no flag from a tick that does not raise it (log 15), the flag at a changed
set-point of the configuration taken (log 9), the refresh's snapshot after CLOCK_LIMIT (log 10); the order
of the notices is open (log 1). -/
def Obligations.UpClockSetPointAndLimit : Prop :=
  ∀ s : State, Quiet s → OnlyATick s → s.clock.state = .running → s.clock.config.mode = .up →
    ShotRunsOn s.clock →
    let c := tickCarried s.clock
    let atLimit : ClockUnit := { c with value := 5999999, shotValue := shotTicked c, soft := false }
    (c.value + 1 = c.config.setPoint → c.value + 1 < 5999999 →
      exec .upSetPointReached s =
        .next (takeOccurrence
          { s with clock :=
            { c with
              value := c.value + 1, shotValue := shotTicked c, added := true,
              hornGame := if c.config.upHorn
                then some (c.house + BitVec.ofNat 32 c.config.hornLength) else c.hornGame } }
          .periodEnd
          (layout 16 [(0, leBytes 1 c.period), (1, leBytes 1 1), (2, leBytes 1 1),
            (4, leBytes 4 c.house.toNat)]))) ∧
    (5999998 ≤ c.value → c.value ≤ 5999999 → (c.value = 5999999 ∨ c.config.setPoint ≠ 5999999) →
      ∃ u, exec .upLimit s = .next u ∧ takenInSomeOrder
        (refreshDue
          { s with clock := stoppedConfigured s s.gateRun atLimit .stopped .limit } .clockStop) u
        (.clockStopped, layout 16 [(0, leBytes 1 ClockCause.limit.code), (1, leBytes 1 c.period),
          (4, leBytes 4 5999999)])
        (.clockLimit, layout 16 [(1, leBytes 1 c.period), (4, leBytes 4 5999999)]))

/-! ### FRAME_START -/

/-- R4, R16, R17, R179: what every FRAME_START does, and what it leaves as it was. R2, R5, R6: which layers
the plan draws, and with what. R18: the lock set of a LIVE frame. R154, R156 to R160: the band of a LIVE
frame. R5, R18, R58, R86, R107, R133, R155: a frame in PASS draws nothing, locks nothing and empties what the
units hold for the screen. R183: MODE_CHANGED and the outcome table where a pending mode takes effect. R137,
R143, R145: the release and fetch start tests where the queue head enters the band. R184: the refresh that
falls due starts or is held; that its snapshot comes after the notices of the FRAME_START is the model's
reading (log 10). Frame 1 is in PASS (R20, R31, R189); that a mode pending at the first FRAME_START then takes
effect at the second is the model's choice (log 30); so is the 0 that the plan holds as the opacity of a
TRANSITION layer that is not drawn, the record's opacity staying out of the plan as R8 has it (log 40). -/
def Obligations.FrameStartBeginsAFrame : Prop :=
  ∀ s : State, ∃ t p, exec .frameStart s = .next t ∧
    t.comp.frame = s.comp.frame + 1 ∧ t.comp.marks = [] ∧ t.comp.weights = [0, 0, 0, 0] ∧
    t.report.mode = modeAhead s ∧
    t.report.pendingMode = (if s.comp.plan = none then s.report.pendingMode else none) ∧
    t.comp.plan = some p ∧ p.frame = t.comp.frame ∧ p.mode = t.report.mode ∧
    p.source = programSource t ∧ p.layers.length = 8 ∧ p.erred = [] ∧
    t.comp.lock = lockSet s.path.shadow s.path.geom p ∧
    t.comp.reads = s.comp.reads ∧ t.clock = s.clock ∧ t.gateRun = s.gateRun ∧
    t.pending = s.pending ∧ t.path.shadow = s.path.shadow ∧ t.path.geom = s.path.geom ∧
    t.path.order = s.path.order ∧ t.path.returned = s.path.returned ∧
    t.msg.head = s.msg.head ∧ t.msg.tail = s.msg.tail ∧
    (s.report.pendingMode = none ∨ s.comp.plan = none →
      outcomeRow t .showWord = outcomeRow s .showWord ∧
      (Quiet s → ∀ x ∈ t.report.ring, x.kind = some .modeChanged → x ∈ s.report.ring)) ∧
    (∀ m tag, s.comp.plan ≠ none → s.report.pendingMode = some (m, tag) →
      outcomeRow t .showWord =
        { latest := { (outcomeRow s .showWord).latest with mark := false },
          previous := { (outcomeRow s .showWord).previous with mark := false } } ∧
      (Quiet s → RingOk s → PlacesOk s → Noticed t .modeChanged fun d => d = layout 16
        [(0, leBytes 1 s.report.mode.code), (1, leBytes 1 m.code), (2, [tag])])) ∧
    (let cause := if s.report.held = some .clockStop then RefreshCause.clockStop else .frameStart
      let write := fun i => DownTxn.own 0xF0 (tableBase s + 0x80000 + 256 * i)
        (((statusPage t cause).drop (256 * i)).take 256)
      (s.report.snapshot = none → t.report.refreshCount = s.report.refreshCount + 1 ∧
        t.report.snapshot = some (statusPage t cause) ∧ t.report.held = none ∧
        ∃ before, t.path.issued = before ++ (List.range 256).map write) ∧
      ∀ page, s.report.snapshot = some page → t.report.refreshCount = s.report.refreshCount ∧
        t.report.snapshot = some page ∧ t.report.held = some cause) ∧
    (modeAhead s = .pass →
      (∀ l ∈ p.layers, l.drawn = false) ∧ p.source = .liveCanvas ∧ t.comp.lock = [] ∧
      (∀ q, q < 4 → (placementAt t q).stack = [] ∧ (placementAt t q).spots = []) ∧
      t.score.flash = none ∧ t.score.flashAsk = none ∧
      t.replay.playback = .live ∧ t.replay.waiting = none ∧ t.replay.cutPending = false ∧
      t.replay.fill = none ∧ t.replay.captureSeq = s.replay.captureSeq ∧
      t.ticker.state = .hidden ∧ t.ticker.band = [] ∧ t.ticker.withdrawals = [] ∧ t.msg = s.msg) ∧
    (∀ (l : Nat) (x : PlanLayer), modeAhead s = .live → p.layers[l]? = some x →
      let m := s.path.shadow
      let on := layerEnable m l = true
      let shown := fun content opacity named =>
        x.content = content ∧ x.opacity = opacity ∧ x.sponsor = named
      x.rank = layerRank m l ∧ x.x = layerX m l ∧ x.y = layerY m l ∧ x.w = layerW m l ∧
      x.h = layerH m l ∧ (x.drawn = false → x.content = .nothing ∧ x.sponsor = .nobody) ∧
      (l < 4 →
        let bound := (placementAt t l).fields.bound
        let replay := ∃ k, programSource t = .slot k
        (x.drawn = true ↔ on ∧ (bound = true → replay) ∧
          ∃ e, (placementAt t l).stack.getLast? = some e ∧ CreativeOk e.creative) ∧
        ∀ e, x.drawn = true → (placementAt t l).stack.getLast? = some e →
          shown (.creative e.creative) (layerOpacity m l) (match e.sponsor with
            | some i => .sponsor i
            | none => .fallback)) ∧
      (l = 4 → (x.drawn = true ↔ on ∧ CreativeOk (bugPlate m)) ∧
        (x.drawn = true → shown (.bug (bugPlate m) (bugAtlas m) t.score.fields) (layerOpacity m 4)
          .nobody)) ∧
      (l = 5 → (x.drawn = true ↔ on ∧ (t.ticker.state = .running ∨ t.ticker.state = .paused)) ∧
        (x.drawn = true → shown
          (.ticker (plateColour m) (glyphRow m) (tickerAtlas m)
            (t.ticker.band.map fun e => { codes := e.text, x := e.x }))
          (layerOpacity m 5) .nobody)) ∧
      (l = 6 → (x.drawn = true ↔ on ∧ ∃ f, t.score.flash = some f ∧ CreativeOk f.creative) ∧
        ∀ f, x.drawn = true → t.score.flash = some f →
          shown (.creative f.creative) (layerOpacity m 6) .nobody) ∧
      (l = 7 → (x.drawn = true ↔ on ∧ ∃ i b d, runningBumper t = some (i, b, d) ∧ CreativeOk d) ∧
        (x.drawn = false → x.opacity = 0) ∧
        ∀ i b d, x.drawn = true → runningBumper t = some (i, b, d) →
          shown (.creative d) (bumperFade i b) .nobody)) ∧
    (modeAhead s = .live → ∀ j, j ∈ t.comp.lock ↔ j < 16 ∧ (j = 0 ∨
      ∃ a, inSector s.path.geom j a = true ∧
        ((∃ x ∈ p.layers, x.drawn = true ∧
          ((∃ d, x.content = .creative d ∧ occupies d.addr d.stride d.width d.height a) ∨
            ∃ d atlas fields, x.content = .bug d atlas fields ∧
              occupies d.addr d.stride d.width d.height a)) ∨
        ∃ x, (x = bugAtlas s.path.shadow ∨ x = tickerAtlas s.path.shadow) ∧
          x.stride % 16 = 0 ∧ 64 * x.cw ≤ x.stride ∧
          occupies x.addr x.stride (16 * x.cw) (8 * x.ch) a))) ∧
    (modeAhead s = .live →
      let m := s.path.shadow
      let k := s.ticker
      let hide := (∃ j, programSource t = .slot j) ∧ hideOnReplay m = true
      let still := fun (band : List BandEntry) => band.filter fun e => !(k.withdrawals.contains e.id)
      let moved := k.band.map fun e => { e with x := e.x - (bandSpeed m : Int) }
      let stays := fun (e : BandEntry) => decide (0 < e.x + (e.width : Int))
      let width : Int := (layerW m 5 : Nat)
      let due := startLevel m ≤ s.msg.queue.length ∨
        ∃ x ∈ s.msg.queue, startDelay m * 1000 ≤ (s.clock.house - x.queued).toNat
      let found := if k.state = .suppressed then k.prior.getD .hidden else k.state
      let entered := fun (x : Message) =>
        { id := x.id, text := x.text, width := (tickerAtlas m).textWidth x.text, x := width }
      let room := fun (band : List BandEntry) => band.length < 8 ∧
        ∀ e, band.getLast? = some e → e.x + (e.width : Int) + (bandGap m : Int) ≤ width
      let runs := fun (band : List BandEntry) (gone : Nat) =>
        t.ticker.prior = none ∧ t.ticker.withdrawals = [] ∧
        t.ticker.shown = k.shown + BitVec.ofNat 32 gone ∧
        (∀ x rest, s.msg.queue = x :: rest → room band →
          t.ticker.band = band ++ [entered x] ∧ t.ticker.state = .running ∧
          let fetches := s.msg.fetch = none ∧ 0 < outstanding s ∧ rest.length < 32
          (fetches → ∃ after, t.path.issued = s.path.issued ++ .burst (.read
              { id := 0xF0, addr := tableBase s + 0x8000 + s.msg.head.toNat % 64 * 256,
                burst := .incr, size := 4, beats := 16 }) :: after) ∧
          t.msg = { s.msg with
            queue := rest,
            hold := if rest.length ≤ lowMark m then false else s.msg.hold,
            fetch := if fetches then some s.msg.head else s.msg.fetch }) ∧
        ((s.msg.queue = [] ∨ ¬room band) → t.ticker.band = band ∧ t.msg = s.msg ∧
          t.ticker.state = if band = [] ∧ s.msg.queue = [] then .hidden else .running)
      let waits := fun state prior => t.ticker =
          { k with state := state, prior := prior, band := still k.band, withdrawals := [] } ∧
        t.msg = s.msg
      (hide → k.state = .suppressed → waits .suppressed k.prior) ∧
      (hide → k.state ≠ .suppressed → waits .suppressed (some k.state)) ∧
      (¬hide → found = .paused → (k.state = .suppressed ∨ k.prior = none) → waits .paused none) ∧
      (¬hide → found = .hidden → (k.state = .suppressed ∨ k.prior = none) → ¬due →
        waits .hidden none) ∧
      (¬hide → found = .hidden → (k.state = .suppressed ∨ k.prior = none) → due →
        runs (still k.band) 0) ∧
      (¬hide → found = .running → (k.state = .suppressed ∨ k.prior = none) →
        runs (still (moved.filter stays)) (moved.filter fun e => !stays e).length))

/-- R86: the FRAME_START at which a flash has had its frames ends it, or starts the one asked for; at any
other LIVE one the flash counts down. R91 to R95: every FRAME_START renders the 12 fields of the bug, each
from its source as it then stands, with SHOT and REPLAY_CLOCK blank where R93 says so, cut to its cells. R45,
R121 to R123: the FRAME_START at which a ROTATION entry's time is over, a bumper ends or a clip's end action
falls due is what the command that names the case stands for (log 5), and it answers the same next state. -/
def Obligations.FlashEndsAfterItsFrames : Prop :=
  (∀ (s : State) (f : Flash), modeAhead s = .live → s.score.flash = some f → f.remaining ≤ 1 →
    exec .flashEnd s = exec .frameStart s ∧ ∃ t, exec .flashEnd s = .next t ∧
      t.score.flashAsk = none ∧
      (s.score.flashAsk = none → t.score.flash = none) ∧
      (∀ x, s.score.flashAsk = some x → t.score.flash =
        some { team := x, creative := flashCreative s.path.shadow x,
               remaining := flashFrames s.path.shadow })) ∧
  (∀ s : State, modeAhead s = .live → ∃ t, exec .frameStart s = .next t ∧ t.score.flashAsk = none ∧
    (∀ x, s.score.flashAsk = some x → t.score.flash =
      some { team := x, creative := flashCreative s.path.shadow x,
             remaining := flashFrames s.path.shadow }) ∧
    (s.score.flashAsk = none → s.score.flash = none → t.score.flash = none) ∧
    ∀ f, s.score.flashAsk = none → s.score.flash = some f → 2 ≤ f.remaining →
      t.score.flash = some { f with remaining := f.remaining - 1 }) ∧
  (∀ s : State, ∃ t, exec .frameStart s = .next t ∧ t.score.fields.length = 12 ∧
    ∀ f x, t.score.fields[f]? = some x →
      let m := s.path.shadow
      let c := s.clock
      let source := fieldSource m f
      let cells := fieldCells m f
      x.x = fieldX m f ∧ x.y = fieldY m f ∧ x.cells = cells ∧ x.right = fieldRight m f ∧
      ∃ text : List Nat,
        (match source with
          | .none => text = []
          | .score w => DecimalOf (teamScore m w) text
          | .abbr w => text = teamAbbr m w
          | .timeouts w => DecimalOf (teamTimeouts m w) text
          | .fouls w => DecimalOf (teamFouls m w) text
          | .period => DecimalOf c.period text
          | .clock => ClockTextOf c.config.mode c.value text
          | .shot =>
            let blank := c.shotOn = false ∨ (c.config.mode = .down ∧ c.value < c.shotValue)
            (blank → text = []) ∧ (¬blank → ShotTextOf c.shotValue text)
          | .replayClock =>
            match programSource t with
            | .liveCanvas => text = []
            | .slot k => ClockTextOf (slotAt t k).stampMode (slotAt t k).stampValue text) ∧
        ((∃ w, source = .abbr w) → x.codes = text.take cells) ∧
        ((∀ w, source ≠ .abbr w) → x.codes = text.drop (text.length - cells))) ∧
  ∀ s : State, modeAhead s = .live → ∃ t, exec .frameStart s = .next t ∧
    (∀ i b, AdvanceAhead s → s.replay.bumper = some (i, b) → b ≤ i + 1 →
      (s.replay.playback = .entering →
        exec .enteringBumperEnd s = .next t ∧ t.replay.playback = .onAir) ∧
      (s.replay.playback = .leaving →
        exec .leavingBumperEnd s = .next t ∧ t.replay.playback = .live)) ∧
    (∀ c, AdvanceAhead s → s.replay.playback = .onAir → s.replay.clip = some c →
      (clipAt s c).rate ≤ s.replay.counter + 1 → (clipAt s c).outPoint ≤ s.replay.position →
      exec .clipEndAction s = .next t ∧ t.replay.playback ≠ .onAir) ∧
    ∀ q i e, q < 4 → s.rot.placements.length = 4 → (placementAt s q).stack = [e] →
      e.kind = .rotation → e.sponsor = some i → (e.endMark = true ∨ e.dwell = some 1) →
      layerEnable s.path.shadow q = true → (readPlacement s.path.shadow q).bound = false →
      (placementAt s q).fields.bound = false → sponsorSuspended s.path.shadow i = false →
      exec .stackEntryDwellEnd s = .next t ∧ (placementAt t q).lowest = i

/-- R121 to R125: the ends of a bumper and of a clip at a FRAME_START that advances the replay, and the
advance of every playback state that has not come to its end. R128, R131, R132: the carrying out of a
waiting PLAY, a waiting TAKE_LIVE, which finds nothing to do where the playback is LIVE, and a cut, with the
notices they raise. R107, R124, R133: a FRAME_START in PASS returns the playing clip, drops the waiting
request, the cut and the open frame, without notice; that the abandoned slot keeps its write error until its
next open is the model's reading (log 23). R128, R132, R133, R183: what each,
and PASS, makes of the REPLAY word's outcomes, and REQUEST_REFUSED for a PLAY whose clip is no longer ARMED.
That the position stands at 0 while ENTERING (log 33) and the repeat counter as it stood while LEAVING
(log 38) is the model's choice. -/
def Obligations.ReplayAdvancesAtItsEnds : Prop :=
  (∀ (s : State) (c : Nat), AdvanceAhead s → s.replay.clip = some c → c < s.replay.clips.length →
    let x := clipAt s c
    let ended := { s.replay with
      clips := s.replay.clips.modify c fun y =>
        if y.autoDisarm then .emptied else { y with state := .armed },
      playback := .live, clip := none, position := 0, counter := 0, bumper := none, lastShown := 0 }
    (∀ i b, s.replay.playback = .entering → s.replay.bumper = some (i, b) → b ≤ i + 1 →
      exec .enteringBumperEnd s = exec .frameStart s ∧
      ∃ t, exec .enteringBumperEnd s = .next t ∧
        t.replay = { s.replay with
          playback := .onAir, position := x.inPoint, counter := 0, bumper := none,
          lastShown := if present s x.inPoint then x.inPoint else s.replay.lastShown }) ∧
    (∀ i b, s.replay.playback = .leaving → s.replay.bumper = some (i, b) → b ≤ i + 1 →
      exec .leavingBumperEnd s = exec .frameStart s ∧
      ∃ t, exec .leavingBumperEnd s = .next t ∧ t.replay = ended) ∧
    (s.replay.playback = .onAir → x.rate ≤ s.replay.counter + 1 → x.outPoint ≤ s.replay.position →
      present s s.replay.position = true →
      exec .clipEndAction s = exec .frameStart s ∧
      ∃ t, exec .clipEndAction s = .next t ∧
        (x.endAction = .holdLast → t.replay = { s.replay with
          playback := .frozen, counter := 0, lastShown := s.replay.position }) ∧
        (x.endAction = .returnLive → 0 < x.bumperFrames → t.replay = { s.replay with
          playback := .leaving, bumper := some (0, x.bumperFrames), leaveCause := .ended,
          lastShown := s.replay.position }) ∧
        (x.endAction = .returnLive → x.bumperFrames = 0 → t.replay = ended))) ∧
  (∀ s t : State, exec .frameStart s = .next t → modeAhead s = .live →
    let r := s.replay
    let onSlot := r.playback = .onAir ∨ r.playback = .frozen ∨ r.playback = .leaving
    let shown := fun (x : ReplayUnit) =>
      if present s x.position then { x with lastShown := x.position } else x
    let ended := fun (c : Nat) => { r with
      clips := r.clips.modify c fun y =>
        if y.autoDisarm then .emptied else { y with state := .armed },
      playback := .live, clip := none, position := 0, counter := 0, bumper := none, lastShown := 0,
      waiting := none, cutPending := false }
    let closing := fun (c : Nat) (cause : EndCause) => Quiet s → RingOk s → PlacesOk s →
      Noticed t .replayEnded fun d => d = layout 16
        [(0, leBytes 1 c), (1, leBytes 1 cause.code), (4, leBytes 4 r.lastShown)]
    let begun := fun (c : Nat) => Quiet s → RingOk s → PlacesOk s →
      Noticed t .replayStarted fun d => d = layout 16
        [(0, leBytes 1 c), (2, leBytes 2 ((slotOf s (clipAt s c).inPoint).getD 0)),
          (4, leBytes 4 (clipAt s c).inPoint), (8, leBytes 4 (clipAt s c).outPoint)]
    (∀ c, r.cutPending = false → r.waiting = some (.play c) → (clipAt s c).state = .armed →
      let b := (clipAt s c).bumperFrames
      let playing := { r with
        clips := (r.clips.map fun (y : Clip) =>
          if y.state = ClipState.playing then { y with state := .armed } else y).modify c
            fun (y : Clip) => { y with state := .playing },
        clip := some c, counter := 0, waiting := none }
      let aired := shown { playing with
        playback := .onAir, position := (clipAt s c).inPoint, bumper := none }
      (¬onSlot → 0 < b → t.replay = { playing with
        playback := .entering, position := 0, bumper := some (0, b) }) ∧
      (¬onSlot → b = 0 → t.replay = aired ∧ begun c) ∧
      (onSlot → t.replay = aired)) ∧
    (∀ c, r.cutPending = false → r.waiting = some (.play c) → (clipAt s c).state ≠ .armed →
      (¬onSlot → t.replay = { r with waiting := none }) ∧
      (onSlot → t.replay = shown { r with waiting := none })) ∧
    (∀ c, r.cutPending = false → r.waiting = some .takeLive → r.clip = some c →
      let b := (clipAt s c).bumperFrames
      let held := r.playback = .onAir ∨ r.playback = .frozen
      (held → 0 < b → t.replay = shown { r with
        playback := .leaving, bumper := some (0, b), leaveCause := .takeLive, waiting := none }) ∧
      ((held ∧ b = 0) ∨ r.playback = .entering → t.replay = ended c ∧ closing c .takeLive)) ∧
    (r.cutPending = false → r.waiting = some .takeLive → r.playback = .live →
      t.replay = { r with waiting := none }) ∧
    (∀ c, r.cutPending = true → r.playback ≠ .live → r.clip = some c →
      t.replay = ended c ∧ closing c .cut) ∧
    (r.cutPending = true → r.playback = .live → t.replay = { r with cutPending := false }) ∧
    (∀ c, AdvanceAhead s → r.clip = some c →
      (∀ i b, r.playback = .entering → r.bumper = some (i, b) → b ≤ i + 1 → begun c) ∧
      (∀ i b, r.playback = .leaving → r.bumper = some (i, b) → b ≤ i + 1 → closing c r.leaveCause) ∧
      (r.playback = .onAir → (clipAt s c).rate ≤ r.counter + 1 →
        (clipAt s c).outPoint ≤ r.position → (clipAt s c).endAction = .returnLive →
        (clipAt s c).bumperFrames = 0 → closing c .ended)) ∧
    (AdvanceAhead s →
      (r.playback = .live → t.replay = r) ∧
      (r.playback = .frozen → t.replay = shown r) ∧
      (∀ i b, r.playback = .entering → r.bumper = some (i, b) → i + 1 < b →
        t.replay = { r with bumper := some (i + 1, b) }) ∧
      (∀ i b, r.playback = .leaving → r.bumper = some (i, b) → i + 1 < b →
        t.replay = shown { r with bumper := some (i + 1, b) }) ∧
      ∀ c, r.playback = .onAir → r.clip = some c →
        (r.counter + 1 < (clipAt s c).rate →
          t.replay = shown { r with counter := r.counter + 1 }) ∧
        ((clipAt s c).rate ≤ r.counter + 1 → r.position < (clipAt s c).outPoint →
          t.replay = shown { r with position := r.position + 1, counter := 0 }))) ∧
  (∀ s t : State, exec .frameStart s = .next t → modeAhead s = .pass →
    let r := s.replay
    let idle := { r with
      slots := (match r.fill with
        | none => r.slots
        | some k => r.slots.modify k fun x => { Slot.emptied with writeError := x.writeError }),
      fill := none, waiting := none, cutPending := false }
    (r.playback = .live → t.replay = idle) ∧
    ∀ c, r.playback ≠ .live → r.clip = some c → t.replay = { idle with
      clips := r.clips.modify c fun y =>
        if y.autoDisarm then .emptied else { y with state := .armed },
      playback := .live, clip := none, position := 0, counter := 0, bumper := none,
      lastShown := 0 }) ∧
  ∀ s t : State, exec .frameStart s = .next t →
    let r := s.replay
    let row := outcomeRow s .replayWord
    let after := outcomeRow t .replayWord
    let dropped := fun o =>
      OutcomeRow.mk (row.latest.drop o) (row.previous.drop o)
    let fulfilled :=
      OutcomeRow.mk { row.latest with mark := false } { row.previous with mark := false }
    let cuts := modeAhead s = .live ∧ r.cutPending = true
    let carries := modeAhead s = .live ∧ r.cutPending = false
    let refused := fun (tag : Byte) => Quiet s → RingOk s → PlacesOk s →
      Noticed t .requestRefused fun d => d = layout 16
        [(0, leBytes 1 ReqWord.replayWord.code), (1, [tag]), (2, leBytes 1 4),
          (3, leBytes 1 ReqOutcome.notArmed.code)]
    (modeAhead s = .pass ∨ (cuts ∧ r.playback ≠ .live) →
      (∀ c, r.waiting = some (.play c) → after = dropped .superseded) ∧
      (r.waiting = some .takeLive → after = fulfilled)) ∧
    (cuts → r.playback = .live → after = row) ∧
    (r.waiting = none → after = row) ∧
    (carries → r.waiting = some .takeLive → after = fulfilled) ∧
    (∀ c, carries → r.waiting = some (.play c) →
      ((clipAt s c).state = .armed → after = fulfilled) ∧
      ((clipAt s c).state ≠ .armed → after = dropped .notArmed ∧
        (row.latest.mark = true → refused row.latest.tag) ∧
        (row.latest.mark = false → row.previous.mark = true → refused row.previous.tag) ∧
        (row.latest.mark = false → row.previous.mark = false → Quiet s →
          ∀ x ∈ t.report.ring, x.kind = some .requestRefused → x ∈ s.report.ring)))

/-- R40, R45: a ROTATION entry alone on its placement whose time is over ends at the FRAME_START, and
its sponsor becomes the lowest. R39, R41, R42, R44 to R49, R55, R56: what a FRAME_START makes of a
placement's stack, lowest mark and pending set: the removal of SUSPENDED sponsors, the end of the top
entry, the selection or the fallback, the push of a spot, and on a bound placement the end at the return
to the live canvas, the entry that stays while the program goes on being a slot, and the refill over a slot.
R58: a placement whose layer is disabled, or whose binding has changed, is emptied without rotation. R48,
R58: SPOT_DROPPED for the spots that are dropped, with its detail where one spot alone pends. What the refill
makes of a placement whose binding has changed is open (log 2), and so is the cause where the layer is
disabled as well, or the sponsor SUSPENDED and no member (log 29): no clause settles either. -/
def Obligations.EndedRotationEntryRotates : Prop :=
  (∀ (s : State) (q i : Nat) (e : StackEntry), modeAhead s = .live → q < 4 →
    s.rot.placements.length = 4 → (placementAt s q).stack = [e] → e.kind = .rotation →
    e.sponsor = some i → (e.endMark = true ∨ e.dwell = some 1) →
    layerEnable s.path.shadow q = true → (readPlacement s.path.shadow q).bound = false →
    (placementAt s q).fields.bound = false → sponsorSuspended s.path.shadow i = false →
    exec .stackEntryDwellEnd s = exec .frameStart s ∧
    ∃ t, exec .stackEntryDwellEnd s = .next t ∧ (placementAt t q).lowest = i ∧
      (placementAt t q).fields = readPlacement s.path.shadow q ∧
      (∃ b rest, (placementAt t q).stack = b :: rest ∧ b.endMark = false ∧
        (b.kind = .rotation ∨ b.kind = .fallback))) ∧
  ∀ (s t : State) (q : Nat), exec .frameStart s = .next t → modeAhead s = .live → q < 4 →
    s.rot.placements.length = 4 →
    let m := s.path.shadow
    let old := placementAt s q
    let x := placementAt t q
    let f := readPlacement m q
    let enabled := layerEnable m q = true
    let rebound := f.bound ≠ old.fields.bound
    let wasSlot := ∃ p k, s.comp.plan = some p ∧ p.source = .slot k
    let returns := wasSlot ∧ programSource t = .liveCanvas
    let suspended := fun (e : StackEntry) => e.sponsor.any (sponsorSuspended m)
    let kept := old.stack.filter fun e => !suspended e
    let stays := ∃ e, old.stack.getLast? = some e ∧ suspended e = false
    let waiting := fun (y : Spot) => y ∈ old.spots ∧ sponsorSuspended m y.sponsor = false ∧
      f.member y.sponsor = true
    let dropNoticed := fun (detail : List Byte → Prop) => Quiet s → RingOk s → PlacesOk s →
      Noticed t .spotDropped detail
    let usable := fun i c => c < 8 ∧ usableOn m q (sponsorCreative m i c) = true
    let eligible := fun (base : List StackEntry) i => f.member i = true ∧
      sponsorState t i = .ready ∧ (∃ c, usable i c) ∧ ∀ e ∈ base, e.sponsor ≠ some i
    let place := fun n => (x.lowest + 1 + n) % 32
    let topElsewhere := fun i => ∃ r, r < 4 ∧ r ≠ q ∧ ∃ e : StackEntry, e.sponsor = some i ∧
      ((r < q ∧ (placementAt t r).stack.getLast? = some e) ∨
        (q < r ∧ ∃ back, (back = true ↔ returns) ∧ (stackAfterEnds s back r).getLast? = some e))
    let selected := fun (base : List StackEntry) (b : StackEntry) =>
      (∃ k i c, k < 32 ∧ i = place k ∧ b.sponsor = some i ∧ eligible base i ∧ usable i c ∧
        b.creative = sponsorCreative m i c ∧ b.endMark = false ∧
        b.kind = (if f.bound then .replay else .rotation) ∧
        b.dwell = (if f.bound = true ∨ f.held = true then none else some b.creative.dwell) ∧
        (f.separate = false → ∀ n, n < k → ¬eligible base (place n)) ∧
        (f.separate = true →
          (¬topElsewhere i ∧ ∀ n, n < k → eligible base (place n) → topElsewhere (place n)) ∨
          ((∀ n, n < 32 → eligible base (place n) → topElsewhere (place n)) ∧
            ∀ n, n < k → ¬eligible base (place n))) ∧
        (q = 0 → ∃ n, n < 8 ∧ c = ((sponsorAt s i).pointer + n) % 8 ∧
          ∀ j, j < n → ¬usable i (((sponsorAt s i).pointer + j) % 8)) ∧
        (q = 3 → s.rot.sponsors.length = 32 → (sponsorAt t i).pointer = (c + 1) % 8)) ∨
      (b = { kind := .fallback, sponsor := none, creative := f.fallback,
             dwell := if f.bound then none else some f.fallback.dwell, endMark := false } ∧
        (∀ i, i < 32 → ¬eligible base i) ∧
        (Quiet s → RingOk s → PlacesOk s → Noticed t .fallbackShown fun _ => True))
    x.fields = f ∧
    (¬enabled ∨ rebound → x.spots = [] ∧ x.lowest = old.lowest ∧
      (old.spots ≠ [] → dropNoticed fun _ => True)) ∧
    (¬enabled → x.stack = []) ∧
    (enabled → rebound → x.stack = [] ∨ ∃ b, x.stack = [b] ∧ selected [] b ∧
      (f.bound = true → ∃ k, programSource t = .slot k)) ∧
    (∀ y, old.spots = [y] → (∀ r, r < 4 → r ≠ q → (placementAt s r).spots = []) →
      let caused := fun cause => dropNoticed fun d => d = layout 16
        [(0, leBytes 1 y.sponsor), (1, leBytes 1 q), (2, leBytes 1 cause)]
      (¬enabled → ¬rebound → caused 3) ∧
      (enabled → rebound → caused 4) ∧
      (enabled → ¬rebound →
        (sponsorSuspended m y.sponsor = true → f.member y.sponsor = true → caused 0) ∧
        (sponsorSuspended m y.sponsor = false → f.member y.sponsor = false → caused 1) ∧
        (waiting y → y ∉ x.spots → (∀ e ∈ x.stack, e.sponsor ≠ some y.sponsor) → caused 2))) ∧
    (enabled → ¬rebound → f.bound = false → ∃ after bottom pushed,
      (kept = [] → after = [] ∧ x.lowest = old.lowest) ∧
      (∀ below e, kept = below ++ [e] →
        let ends := e.kind ≠ .replay ∧
          (e.endMark = true ∨ (stays ∧ ∃ d, e.dwell = some d ∧ d ≤ 1))
        (ends → after = below ∧
          (∀ i, e.kind = .rotation → e.sponsor = some i → x.lowest = i) ∧
          (e.kind ≠ .rotation → x.lowest = old.lowest)) ∧
        (¬ends → x.lowest = old.lowest ∧
          (stays → after = below ++ [{ e with dwell := e.dwell.map fun d => d - 1 }]) ∧
          (¬stays → after = kept))) ∧
      x.stack = bottom ++ after ++ pushed ∧
      ((∃ e, after.head? = some e ∧ e.kind ≠ .spot) → bottom = []) ∧
      ((∀ e, after.head? = some e → e.kind = .spot) → ∃ b, bottom = [b] ∧ selected after b) ∧
      (let base := bottom ++ after
      let inBase := fun i => ∃ e ∈ base, e.sponsor = some i
      (∀ y ∈ x.spots, waiting y ∧ ∀ e ∈ pushed, e.sponsor ≠ some y.sponsor) ∧
      (∀ y, waiting y → (3 ≤ base.length ∨ inBase y.sponsor) → y ∈ x.spots) ∧
      ((∃ y ∈ old.spots, ¬waiting y) → dropNoticed fun _ => True) ∧
      ((∃ y, waiting y ∧ y ∉ x.spots ∧ ∀ e ∈ pushed, e.sponsor ≠ some y.sponsor) →
        dropNoticed fun _ => True) ∧
      (pushed = [] → base.length < 3 → ∀ y ∈ x.spots, y.sponsor < 32 → inBase y.sponsor) ∧
      (pushed ≠ [] → ∃ e y k c, pushed = [e] ∧ base.length < 3 ∧ k < 32 ∧ waiting y ∧
        y.sponsor = place k ∧ ¬inBase y.sponsor ∧
        usableOn m q (sponsorCreative m y.sponsor c) = true ∧
        (y.creative = 15 → c < 8) ∧ (y.creative ≠ 15 → c = y.creative) ∧
        e = { kind := .spot, sponsor := some y.sponsor,
              creative := sponsorCreative m y.sponsor c, dwell := some y.dwell, endMark := false } ∧
        (∀ z ∈ x.spots, ∀ n, n < k → z.sponsor = place n → inBase z.sponsor) ∧
        ∀ z n, waiting z → k < n → n < 32 → z.sponsor = place n → z ∈ x.spots))) ∧
    (enabled → ¬rebound → f.bound = true →
      let onSlot := ∃ k, programSource t = .slot k
      (∀ y, y ∈ x.spots ↔ waiting y) ∧
      (returns → x.stack = [] ∧
        (kept = [] → x.lowest = old.lowest) ∧
        ∀ below e, kept = below ++ [e] →
          (∀ i, e.kind = .replay → e.sponsor = some i → x.lowest = i) ∧
          (e.kind = .fallback → x.lowest = old.lowest)) ∧
      (kept = [] → x.lowest = old.lowest ∧ (¬onSlot → x.stack = []) ∧
        (onSlot → ∃ b, x.stack = [b] ∧ selected [] b)) ∧
      ∀ e, kept = [e] → e.dwell = none → ¬returns →
        ((e.kind = .replay ∨ e.endMark = false) → x.stack = [e] ∧ x.lowest = old.lowest) ∧
        (e.kind = .fallback → e.endMark = true → x.lowest = old.lowest ∧
          (¬onSlot → x.stack = []) ∧ (onSlot → ∃ b, x.stack = [b] ∧ selected [] b)))

/-! ### Traffic on the ports -/

/-- R167, R174, R175: a write with a byte in a locked sector, or else in a part-owned area, is answered
with an error in its place of the response order, issued nowhere and captured nowhere, and
WRITE_BLOCKED is taken. -/
def Obligations.BlockedWritesAreAnsweredHere : Prop :=
  ∀ (s : State) (w : WriteReq), Quiet s → legalWrite w = true →
    let answered := returnResponses (enterOrder s w.id .write .blocked 0 1
      (some { id := w.id, dir := .write, data := [], status := [.slverr] }))
    let blocked := fun cause sector => takeOccurrence answered .writeBlocked
      (layout 16 [(0, leBytes 1 (masterTag w.id)), (1, leBytes 1 cause), (2, leBytes 1 sector),
        (8, leBytes 5 w.addr)])
    (∀ before j after, s.comp.lock = before ++ j :: after →
      (∃ b ∈ writeBytes w, inSector s.path.geom j b.1 = true) →
      (∀ i ∈ before, ∀ b ∈ writeBytes w, inSector s.path.geom i b.1 = false) →
      exec (.blockedWrite w) s = .next (blocked 0 j)) ∧
    ((∀ i ∈ s.comp.lock, ∀ b ∈ writeBytes w, inSector s.path.geom i b.1 = false) →
      (∃ b ∈ writeBytes w, inPartOwned s b.1 = true) →
      exec (.partOwnedWrite w) s = .next (blocked 1 0))

/-- R167, R100, R165: forwarded traffic is issued as it is; a window read is issued in pieces, its window
bytes fetched once each, in order, from the newest slot, or from slot 0. -/
def Obligations.ForwardedAndWindowTraffic : Prop :=
  ∀ s : State, Quiet s →
    (∀ w, legalWrite w = true → classifyWrite s w = .forwarded →
      exec (.forwardedTransaction (.write w)) s =
        .next (enterOrder (issue s (.burst (.write w))) w.id .write .forwarded 0 1 none)) ∧
    ∀ r, legalRead r = true → isComposited s r = false →
      let addrs := (readBytes r).map Prod.snd
      let g := s.path.geom
      let k := (newestSlot s).getD 0
      let fetched := (addrs.filter (inWindow g)).map fun a =>
        g.poolBase + k * (g.stride * g.height) + (a - g.windowBase)
      let beside := addrs.filter fun a => !inWindow g a
      ((s.report.mode = .pass ∨ ∀ a ∈ addrs, inWindow g a = false) →
        exec (.forwardedTransaction (.read r)) s =
          .next (enterOrder (issue s (.burst (.read r))) r.id .read .forwarded addrs.length r.beats
            none)) ∧
      (s.report.mode = .live → (∃ a ∈ addrs, inWindow g a = true) →
        ∃ pieces, exec (.windowRead r) s =
            .next (enterOrder (issueAll s pieces) r.id .read .forwarded addrs.length r.beats none) ∧
          (beside = [] → pieces = [.fetch r.id .window fetched]) ∧
          (beside ≠ [] → pieces = [.fetch r.id .window fetched, .fetch r.id .outside beside] ∨
            pieces = [.fetch r.id .outside beside, .fetch r.id .window fetched]))

/-- R170, R171: a captured write is issued as it is, and its bytes are merged into the shadow; where it
reaches none of the fields that a block acts on at once, and completes no request word, nothing else happens.
R171, R172: where it completes request words, their requests are taken on the merged shadow one after another,
the lowest word first, each on the state that the one before has left; R135 to R137, R187: a tail count and a
consume count of the same capture are captured with them (inside 4 KiB no field that a block acts on but these
two lies beside a request word). The model's readings: what one request has raised is taken, and the refresh
it makes due starts with its snapshot, before the next request is taken (logs 1, 10); the tail's tests come
before the first request (log 35); the consume count is taken with what the first request raises, in an order
that is open (log 1). -/
def Obligations.CapturedBytesAreMergedIntoTheShadow : Prop :=
  (∀ (s : State) (w : WriteReq), Quiet s → Memory.wf s.path.shadow = true → legalWrite w = true →
    classifyWrite s w = .captured →
    (∀ b ∈ captureBytes s w, (0x40 ≤ b.1 ∧ b.1 < 0x240) ∨ (0x260 ≤ b.1 ∧ b.1 < 0x1000) ∨
      (0x1000 ≤ b.1 ∧ b.1 < 0x1060 ∧ b.1 % 16 ≠ 15) ∨ (0x1062 ≤ b.1 ∧ b.1 < 0x1070) ∨
      (0x1072 ≤ b.1 ∧ b.1 < 0x1080)) →
    ∃ m, exec (.capturedWrite w) s =
        .next (enterOrder
          { s with path := { s.path with
              shadow := m, issued := s.path.issued ++ [.burst (.write w)] } }
          w.id .write .forwarded 0 1 none) ∧
      (∀ a, (∀ b ∈ captureBytes s w, b.1 ≠ a) → readByte m a = readByte s.path.shadow a) ∧
      ∀ before a v after, captureBytes s w = before ++ (a, v) :: after →
        (∀ b ∈ after, b.1 ≠ a) → readByte m a = v) ∧
  (∀ (s : State) (w : WriteReq) (i j : ReqWord), Quiet s → legalWrite w = true →
    classifyWrite s w = .captured → i.code < j.code →
    (∀ b ∈ captureBytes s w, 0x1000 ≤ b.1 ∧ b.1 < 0x1060) →
    (∀ k : ReqWord, (∃ v, (0x1000 + 16 * k.code + 15, v) ∈ captureBytes s w) ↔ k = i ∨ k = j) →
    let merged := mergeCapture (forwardWrite s w) (captureBytes s w)
    exec (.capturedWrite w) s = .next (settle (takeRequest (settle (takeRequest merged i)) j))) ∧
  ∀ (s : State) (w : WriteReq) (words : List ReqWord), Quiet s → legalWrite w = true →
    classifyWrite s w = .captured → words.Pairwise (fun i j => i.code < j.code) →
    let bytes := captureBytes s w
    (∀ b ∈ bytes, 0x600 ≤ b.1 ∧ b.1 < 0x1080) →
    (∀ k : ReqWord, (∃ v, (0x1000 + 16 * k.code + 15, v) ∈ bytes) ↔ k ∈ words) →
    let merged := mergeCapture (forwardWrite s w) bytes
    let tail := BitVec.ofNat 16 (readLE merged.path.shadow 0x1070 2)
    let n := (tail - s.msg.head).toNat
    let consumed := if ∃ b ∈ bytes, 0x1060 ≤ b.1 ∧ b.1 < 0x1062
      then raiseReport merged (.consume (BitVec.ofNat 16 (readLE merged.path.shadow 0x1060 2)))
      else merged
    let followed := { consumed with msg := { s.msg with tail := tail } }
    let tested := if 64 < n
      then raise { followed with msg := { followed.msg with head := tail - 64 } } .intakeOverrun
        [(0, leBytes 2 (n - 64)), (2, leBytes 2 (tail - 64).toNat), (4, leBytes 2 tail.toNat)]
      else followed
    let tailed := if s.msg.fetch.isSome then followed
      else if n ≠ 0 ∧ s.msg.queue.length < 32
      then issue { tested with msg := { tested.msg with fetch := some tested.msg.head } }
        (.burst (.read
          { id := 0xF0, addr := tableBase s + 0x8000 + tested.msg.head.toNat % 64 * 256,
            burst := .incr, size := 4, beats := 16 }))
      else tested
    let acted := if ∃ b ∈ bytes, 0x1070 ≤ b.1 ∧ b.1 < 0x1072 then tailed else consumed
    exec (.capturedWrite w) s =
      .next (settle (words.foldl (fun x k => settle (takeRequest x k)) acted))

/-- R9 to R12, R14: a composited read is formed under the plan and the geometry in force; each canvas
byte is fetched once from its program address, and every source byte of every layer that covers one of
its pixels is fetched for that layer. In what order these fetches are issued no clause settles (R12 has any
order; the model's is log 41). -/
def Obligations.CompositedReadsFetchProgramAndOverlays : Prop :=
  ∀ (s : State) (r : ReadReq) (p : Plan), Quiet s → legalRead r = true → s.report.mode = .live →
    s.comp.plan = some p → masterTag r.id = s.path.geom.scanTag →
    (∃ b ∈ readBytes r, inCanvas s.path.geom b.2 = true) →
    let g := s.path.geom
    let addrs := (readBytes r).map Prod.snd
    let c : CompRead :=
      { key := s.path.nextKey, req := r, plan := p, geom := g,
        windowSlot := (newestSlot s).getD 0, without := p.erred, waits := true,
        fetched := none, failed := false }
    let u := { s with comp := { s.comp with reads := s.comp.reads ++ [c] } }
    ∃ fetches, exec (.compositedRead r) s =
        .next (enterOrder (issueAll u fetches) r.id .read .composited addrs.length r.beats none) ∧
      (∀ f ∈ fetches, ∃ purpose l, f = .fetch r.id purpose l ∧ (purpose = .program ∨
        purpose = .window ∨ purpose = .outside ∨ ∃ n, n < 8 ∧ purpose = .overlay n)) ∧
      fetches.filter (fun f => match f with
          | .fetch _ .program _ => true
          | _ => false) =
        [.fetch r.id .program ((addrs.filter (inCanvas g)).map fun a =>
          match p.source with
          | .liveCanvas => a
          | .slot k => g.poolBase + k * (g.stride * g.height) + (a - g.canvasBase))] ∧
      ∀ n, n < 8 → ∀ a ∈ neededFor c n, ∃ l, DownTxn.fetch r.id (.overlay n) l ∈ fetches ∧ a ∈ l

/-- R11, R12, R16, R17, R25 to R27: a composited read, named by its ID and its place among the reads of that
ID in flight (log 13), whose fetches have completed waits for the earlier reads of its tag and is answered
when none is left. Its answer carries the program bytes that no layer covers and the blend where layers do,
from the lowest covering layer up; it is counted when it is answered (that R16 and R26 count there for a read
that has waited is the model's reading, log 28), its pixels at or beyond the marks, each sponsor layer by the
weight that the layers above it let through; a line's mark then is the larger of the old one and one past the
rightmost column whose R byte was returned, so that no pixel of a line counts again in the frame; an answer
after the next FRAME_START counts nothing. R23, R96, R97, R162, R163: the pixel of a covering layer is its
creative's or a transparent one, or a glyph of the bug or of the band over its plate, from the bytes fetched
for that layer. -/
def Obligations.CompositedAnswersBlendAndCount : Prop :=
  (∀ (s : State) (c : CompRead) (p : Plan) (before after : List CompRead) (program : List Byte)
    (overlay : List OverlayByte) (status : List Resp),
    Quiet s → Stale.composited c.req.id ∉ s.path.stale → s.comp.reads = before ++ c :: after →
    (∀ x ∈ before ++ after, x.key ≠ c.key ∧ x.fetched = none) → c.waits = true →
    c.fetched = none → c.failed = false → s.comp.plan = some p →
    program.length = (readBytes c.req).length → status.length = c.req.beats →
    (∀ n, n < 8 → ∀ a ∈ neededFor c n, ∃ b ∈ overlay, b.layer = n ∧ b.addr = a) →
    (∀ b ∈ readBytes c.req, inCanvas c.geom b.2 = true →
      respIsError (status.getD b.1 .okay) = false) →
    let lane := (Dir.read, masterTag c.req.id)
    let answer := exec (.compositedReadAnswer (named c before) program overlay status) s
    (∀ earlier e later, s.path.order = earlier ++ e :: later → e.lane = lane → e.key ≠ c.key →
      (∀ x ∈ earlier, x.lane ≠ lane) → answer = .next
        { s with comp := { s.comp with reads := before ++
            { c with
              waits := false, fetched := some (Fetched.mk program overlay status) } :: after } }) ∧
    (∀ earlier e later, s.path.order = earlier ++ e :: later → e.lane = lane → e.key = c.key →
      (∀ x ∈ earlier, x.lane ≠ lane) →
      ∃ (marks : List (Nat × Nat)) (weights : List Nat) (data : List Byte),
        answer = .next (giveAnswer
          { s with comp := { s.comp with
              reads := before ++ after, marks := marks, weights := weights } }
          c.key { id := c.req.id, dir := .read, data := data, status := status }) ∧
        data.length = program.length ∧
        (∀ (i a : Nat) (v : Byte), (readBytes c.req)[i]?.map Prod.snd = some a →
          program[i]? = some v →
          let layers := readCovered c overlay (pixelOf c.geom a)
          let blended := fun (channel : Pixel → Byte) => some (BitVec.ofNat 8
            (layers.foldl (fun b x => blendStep x.alpha (channel x.pixel).toNat b) v.toNat))
          (isPixelByte c.geom a = false ∨ layers = [] → data[i]? = some v) ∧
          (isPixelByte c.geom a = true → layers ≠ [] →
            (columnByte c.geom a % 4 = 0 → data[i]? = blended Pixel.r) ∧
            (columnByte c.geom a % 4 = 1 → data[i]? = blended Pixel.g) ∧
            (columnByte c.geom a % 4 = 2 → data[i]? = blended Pixel.b) ∧
            (columnByte c.geom a % 4 = 3 → data[i]? = some 255))) ∧
        (p.frame ≠ c.plan.frame → marks = s.comp.marks ∧ weights = s.comp.weights) ∧
        (p.frame = c.plan.frame →
          weights = (List.range s.comp.weights.length).map (fun n =>
            s.comp.weights.getD n 0 + gathered s.comp.marks c overlay n) ∧
          countedPixels marks c = [] ∧
          ∀ y,
            let returned := fun x => ∃ b ∈ readBytes c.req, isPixelByte c.geom b.2 = true ∧
              columnByte c.geom b.2 % 4 = 0 ∧ pixelOf c.geom b.2 = (x, y)
            lookup 0 s.comp.marks y ≤ lookup 0 marks y ∧
            (∀ x, returned x → x < lookup 0 marks y) ∧
            (lookup 0 marks y = lookup 0 s.comp.marks y ∨
              ∃ x, returned x ∧ lookup 0 marks y = x + 1)))) ∧
  (∀ (c : CompRead) (overlay : List OverlayByte) (marks : List (Nat × Nat)) (x y : Nat),
    let cs := readCovered c overlay (x, y)
    (cs.map Covered.layer = (covering c.plan c.geom.width c.without x y).map Prod.fst ∧
      ∀ z ∈ cs, ∃ l, (z.layer, l) ∈ covering c.plan c.geom.width c.without x y ∧
        z.alpha = effAlpha z.pixel.k.toNat l.opacity ∧
        LayerPixelOf (overlayPixel overlay z.layer) l.content ((x : Int) - l.x).toNat
          ((y : Int) - l.y).toNat z.pixel) ∧
    (∀ n a, overlayPixel overlay n a =
      { r := overlayByte overlay n a, g := overlayByte overlay n (a + 1),
        b := overlayByte overlay n (a + 2), k := overlayByte overlay n (a + 3) }) ∧
    (∀ lower z higher, overlay = lower ++ z :: higher →
      (∀ w ∈ lower, w.layer ≠ z.layer ∨ w.addr ≠ z.addr) →
      overlayByte overlay z.layer z.addr = z.byte) ∧
    ((x, y) ∈ countedPixels marks c ↔ lookup 0 marks y ≤ x ∧
      ∃ b ∈ readBytes c.req, isPixelByte c.geom b.2 = true ∧ columnByte c.geom b.2 % 4 = 0 ∧
        pixelOf c.geom b.2 = (x, y)) ∧
    (∀ n, gathered marks c overlay n = ((countedPixels marks c).map fun xy =>
      weightOf n (weightsAt (readCovered c overlay xy))).sum) ∧
    (∀ n, (∀ z ∈ cs, z.layer ≠ n) → weightOf n (weightsAt cs) = 0) ∧
    ∀ below z above, cs = below ++ z :: above → (∀ w ∈ below ++ above, w.layer ≠ z.layer) →
      weightOf z.layer (weightsAt cs) =
        visible z.alpha (above.reverse.foldl (fun u w => transmit w.alpha u) 255)) ∧
  ∀ (s : State) (key : Nat) (r : UpResp),
    (readyRead (giveAnswer s key r) = none → answerKey s key r = giveAnswer s key r) ∧
    ∀ c f, readyRead (giveAnswer s key r) = some (c, f) →
      (∀ x ∈ s.comp.reads, x.key ≠ c.key → x.fetched = none) →
      answerKey s key r = answerRead (giveAnswer s key r) c f

/-- R14, R15, R27: an overlay fetch error makes its layer not drawn in the frame of the read it was made for,
which the command names by its ID and its place among the reads of that ID in flight (log 13): in the plan,
where that frame is still the one in force, and in every read in flight of that frame, with the fetches of the
layers that come in its place, for which those reads wait, and ASSET_ERROR is taken (that a read in flight at
the error of another leaves the layer out too is the model's reading, log 17). A further error on a fetch of a
read whose frame has the layer not drawn already does nothing, whatever frame has begun since and whatever
newer read of the ID needs the byte; nor does one on a byte that the read does not need or has, or of a read
with no fetch in flight. The order in which the fetches that come in its place are issued is the model's
choice (log 41). A program fetch error answers the read with errors, a further one does nothing; that it does
so at the error, while other fetches of the read are in flight, is the model's choice (log 36). A read that
was answered so is dropped when its fetches have completed. -/
def Obligations.FetchErrorsDropTheLayerOrTheRead : Prop :=
  (∀ (s : State) (c : CompRead) (before after : List CompRead), Quiet s →
    s.comp.reads = before ++ c :: after →
    (∀ l addr, Stale.composited c.req.id ∉ s.path.stale → c.waits = true → addr ∈ neededFor c l →
      (∀ f, c.fetched = some f → ∀ b ∈ f.overlay, b.layer ≠ l ∨ b.addr ≠ addr) →
      let without := fun (x : CompRead) => { x with without := x.without ++ [l] }
      let fetches := fun (x : CompRead) =>
        if x.plan.frame = c.plan.frame ∧ x.failed = false then overlayFetches (some x) (without x) else []
      let erased := fun (x : CompRead) =>
        if x.plan.frame = c.plan.frame
        then { without x with waits := x.waits || decide (fetches x ≠ []) } else x
      exec (.overlayFetchError (named c before) l addr) s =
        .next (takeOccurrence
          (issueAll
            { s with comp := { s.comp with
                plan := s.comp.plan.map fun q =>
                  if q.frame = c.plan.frame then { q with erred := q.erred ++ [l] } else q,
                reads := s.comp.reads.map erased } }
            (s.comp.reads.flatMap fetches))
          .assetError (layout 16 [(0, leBytes 1 l), (8, leBytes 5 addr)]))) ∧
    (∀ l addr, l ∈ c.without ∨ addr ∉ neededFor c l ∨ c.waits = false ∨
        (∃ f b, c.fetched = some f ∧ b ∈ f.overlay ∧ b.layer = l ∧ b.addr = addr) →
      exec (.overlayFetchError (named c before) l addr) s = .next s) ∧
    (Stale.composited c.req.id ∉ s.path.stale → c.waits = true → c.failed = false → c.fetched = none →
      exec (.programFetchError (named c before)) s =
        .next (answerKey
          { s with comp := { s.comp with
              reads := s.comp.reads.map fun x =>
                if x.key = c.key then { x with failed := true } else x } }
          c.key
          { id := c.req.id, dir := .read, data := List.replicate (readBytes c.req).length 0,
            status := List.replicate c.req.beats .slverr })) ∧
    (c.failed = true ∨ c.fetched ≠ none ∨ c.waits = false →
      exec (.programFetchError (named c before)) s = .next s) ∧
    (Stale.composited c.req.id ∉ s.path.stale → c.waits = true → c.failed = true →
      (∀ x ∈ before ++ after, x.key ≠ c.key) → ∀ program overlay status,
      exec (.compositedReadAnswer (named c before) program overlay status) s =
        .next { s with comp := { s.comp with reads := before ++ after } })) ∧
  (∀ (s : State) (x : ReadName), Quiet s → readsOf x.id s.comp.reads ≤ x.nth →
    (∀ l addr, exec (.overlayFetchError x l addr) s = .next s) ∧
    exec (.programFetchError x) s = .next s) ∧
  (∀ (c : CompRead) (l : Nat), l ∈ c.without → neededFor c l = [] ∧
    ∀ overlay xy, ∀ z ∈ readCovered c overlay xy, z.layer ≠ l) ∧
  ∀ (q : Plan) (width x y : Nat) (n : Nat × PlanLayer),
    n ∈ covering q width q.erred x y → n.1 ∉ q.erred

/-- R99, R102, R103, R104, R105: an ingest write inside the window is stored in the fill slot, opening one
where no slot is FILLING; with a final byte it commits the frame, or abandons it; with a first byte it
abandons an open frame and opens anew, and with a final byte beside it commits the frame so opened. R102,
R110: a frame opens into the first slot that is not held, from the slot after the newest slot round to the
newest slot itself, or from slot 0 where no slot is FILLED. That an abandoned slot keeps its write error
until its next open is the model's reading (log 23). -/
def Obligations.IngestWritesFillSlots : Prop :=
  (∀ s : State,
    let n := s.replay.slots.length
    let unheldFrom := fun start k => slotHeld s k = false ∧
      ∃ i, i < n ∧ k = (start + i) % n ∧ ∀ j, j < i → slotHeld s ((start + j) % n) = true
    let newest := fun b => b < n ∧ (slotAt s b).state = .filled ∧
      ∀ j, j < n → j ≠ b → (slotAt s j).state = .filled → (slotAt s j).seq < (slotAt s b).seq
    (∀ k, slotHeld s k = true ↔ (slotAt s k).state = .filled ∧ ∃ c, (clipAt s c).state ≠ .empty ∧
      (clipAt s c).inPoint ≤ (slotAt s k).seq ∧ (slotAt s k).seq ≤ (clipAt s c).outPoint) ∧
    (∀ k b, newest b → (nextFill s = some k ↔ unheldFrom (b + 1) k)) ∧
    (∀ k, (∀ j, (slotAt s j).state ≠ .filled) → (nextFill s = some k ↔ unheldFrom 0 k)) ∧
    (nextFill s = none ↔ ∀ k, k < n → slotHeld s k = true)) ∧
  ∀ (s : State) (w : WriteReq), Quiet s → legalWrite w = true → classifyWrite s w = .ingest →
    (∀ b ∈ writeBytes w, inWindow s.path.geom b.1 = true ∧ inCaptured s b.1 = false) →
    let g := s.path.geom
    let stored := fun (x : State) k => enterOrder
      (issue x (.store w.id (.ingest k) ((writeBytes w).map fun b =>
        (g.poolBase + k * (g.stride * g.height) + (b.1 - g.windowBase), b.2))))
      w.id .write (.ingest k .waiting .absent) 0 1 none
    let withSlot := fun (x : Slot) k fill seq => { s with replay := { s.replay with
      slots := s.replay.slots.modify k fun _ => x, fill := fill, captureSeq := seq } }
    let filling := { Slot.emptied with state := .filling }
    let first := ∃ b ∈ writeBytes w, b.1 < g.windowBase + 16
    let final := ∃ b ∈ writeBytes w, g.windowBase + g.stride * g.height ≤ b.1 + 16
    let seq := s.replay.captureSeq
    let notice := fun cause k => layout 16 [(0, leBytes 1 cause), (2, leBytes 2 k)]
    (∀ k, s.replay.fill = none → nextFill s = some k → ¬final →
      exec (.ingestWrite w) s = .next (stored (withSlot filling k (some k) seq) k)) ∧
    (∀ k, s.replay.fill = some k → ¬first → ¬final →
      exec (.ingestWrite w) s = .next (stored s k)) ∧
    (∀ k x, k < s.replay.slots.length → final →
      ((s.replay.fill = some k ∧ ¬first ∧ x = slotAt s k) ∨
        (s.replay.fill = none ∧ nextFill s = some k ∧ x = filling)) →
      (x.writeError = false → seq ≠ 4294967295 → exec (.ingestWrite w) s = .next (stored
        (withSlot
          { x with
            state := .filled, seq := seq, commitFrame := s.comp.frame,
            stampValue := s.clock.value, stampMode := s.clock.config.mode,
            stampPeriod := s.clock.period }
          k none (seq + 1)) k)) ∧
      (x.writeError = true ∨ seq = 4294967295 → exec (.ingestWrite w) s = .next (takeOccurrence
        (stored (withSlot { Slot.emptied with writeError := x.writeError } k none seq) k)
        .ingestAbandoned (notice (if x.writeError then 1 else 2) k)))) ∧
    (∀ k, s.replay.fill = some k → first → ¬final →
      exec (.ingestWrite w) s = .next (takeOccurrence
        (stored (withSlot filling k (some k) seq) k) .ingestAbandoned (notice 0 k))) ∧
    (∀ k, s.replay.fill = some k → k < s.replay.slots.length → first → final →
      (seq ≠ 4294967295 → exec (.ingestWrite w) s = .next (takeOccurrence
        (stored
          (withSlot
            { filling with
              state := .filled, seq := seq, commitFrame := s.comp.frame,
              stampValue := s.clock.value, stampMode := s.clock.config.mode,
              stampPeriod := s.clock.period }
            k none (seq + 1)) k)
        .ingestAbandoned (notice 0 k))) ∧
      (seq = 4294967295 →
        let u := stored (withSlot .emptied k none seq) k
        exec (.ingestWrite w) s = .next (takeOccurrence
          (takeOccurrence { u with report := { u.report with draws := u.report.draws + 1 } }
            .ingestAbandoned (notice 0 k))
          .ingestAbandoned (notice 2 k))))

/-- R99, R106, R167: the memory's answer is the answer of the oldest transaction it belongs to; an ingest
write is answered when every downstream write of it has been, and an error of the remapped one marks its
slot when it comes. R176: a response to what a reset dropped is discarded. -/
def Obligations.ResponsesAnswerTheOldestTransaction : Prop :=
  (∀ (s : State) (e : Entry) (before after : List Entry), Quiet s →
    s.path.order = before ++ e :: after → e.answer = none →
    (∀ (data : List Byte) (status : List Resp), e.kind = .forwarded →
      Stale.forwarded e.dir e.id ∉ s.path.stale →
      (∀ x ∈ before, x.id ≠ e.id ∨ x.dir ≠ e.dir ∨ x.kind ≠ .forwarded ∨ x.answer ≠ none) →
      data.length = e.bytes → status.length = e.beats →
      exec (.forwardedResponse e.dir e.id data status) s =
        .next (answerKey s e.key { id := e.id, dir := e.dir, data := data, status := status })) ∧
    ∀ (k : Nat) (remap other : Piece) (code : Resp), e.kind = .ingest k remap other →
      let answered := fun (x : State) status =>
        answerKey x e.key { id := e.id, dir := .write, data := [], status := [status] }
      let held := fun (x : State) (kind : EntryKind) => { x with path := { x.path with
        order := x.path.order.map fun y => if y.key = e.key then { y with kind := kind } else y } }
      let marked := if respIsError code then modifySlot s k fun x => { x with writeError := true }
        else s
      let joined := fun a b => if respIsError a ∨ respIsError b then Resp.slverr else .okay
      (remap = .waiting → Stale.ingest e.id false ∉ s.path.stale →
        (∀ x ∈ before, x.id ≠ e.id ∨ (∀ j o, x.kind ≠ .ingest j .waiting o) ∨ x.answer ≠ none) →
        (other = .absent → exec (.ingestWriteResponse e.id false code) s =
          .next (answered marked code)) ∧
        (other = .waiting → exec (.ingestWriteResponse e.id false code) s =
          .next (held marked (.ingest k (.answered code) .waiting))) ∧
        (∀ r, other = .answered r → exec (.ingestWriteResponse e.id false code) s =
          .next (answered marked (joined code r)))) ∧
      (other = .waiting → Stale.ingest e.id true ∉ s.path.stale →
        (∀ x ∈ before, x.id ≠ e.id ∨ (∀ j o, x.kind ≠ .ingest j o .waiting) ∨ x.answer ≠ none) →
        (remap = .waiting → exec (.ingestWriteResponse e.id true code) s =
          .next (held s (.ingest k .waiting (.answered code)))) ∧
        (∀ r, remap = .answered r → exec (.ingestWriteResponse e.id true code) s =
          .next (answered s (joined r code))))) ∧
  ∀ s : State, Quiet s →
    let without := fun (x : Stale) => { s with path := { s.path with stale := s.path.stale.erase x } }
    (∀ dir id data status, Stale.forwarded dir id ∈ s.path.stale →
      exec (.forwardedResponse dir id data status) s = .next (without (.forwarded dir id))) ∧
    (∀ id outside code, Stale.ingest id outside ∈ s.path.stale →
      exec (.ingestWriteResponse id outside code) s = .next (without (.ingest id outside))) ∧
    (∀ read program overlay status, Stale.composited read.id ∈ s.path.stale →
      exec (.compositedReadAnswer read program overlay status) s =
        .next (without (.composited read.id))) ∧
    (∀ read l addr, Stale.composited read.id ∈ s.path.stale →
      exec (.overlayFetchError read l addr) s = .next s ∧ exec (.programFetchError read) s = .next s) ∧
    (∀ error data, Stale.intake ∈ s.path.stale →
      exec (.intakeFetchComplete error data) s = .next (without .intake)) ∧
    (Stale.refresh ∈ s.path.stale → exec .statusRefreshComplete s = .next (without .refresh))

/-! ### Captures that a block acts on -/

/-- R173, R108: in PASS with no GO_LIVE pending each geometry field that the capture reached takes its shadow
value and every other one stays as it was taken before, and a changed slot geometry empties the ring;
otherwise they are not, and TABLE_IGNORED tells of a shadow that differs. -/
def Obligations.GeometryIsTakenInPassOnly : Prop :=
  ∀ (s : State) (w : WriteReq), Quiet s → legalWrite w = true → classifyWrite s w = .captured →
    let bytes := captureBytes s w
    (∀ b ∈ bytes, b.1 < 0x40) → reachesGeometry bytes = true →
    let merged := mergeCapture (forwardWrite s w) bytes
    let new := readGeometry merged.path.shadow
    let g := takenGeometry bytes new s.path.geom
    let placed := { merged with path := { merged.path with geom := g } }
    let taking := s.report.mode = .pass ∧ ∀ tag, s.report.pendingMode ≠ some (.live, tag)
    let shadow := readLE merged.path.shadow
    let field := fun (f : Geometry → Nat) off size value =>
      ((∃ b ∈ bytes, off ≤ b.1 ∧ b.1 < off + size) → f g = value) ∧
      ((∀ b ∈ bytes, b.1 < off ∨ off + size ≤ b.1) → f g = f s.path.geom)
    field Geometry.canvasBase 0x00 5 (shadow 0x00 5) ∧ field Geometry.width 0x08 2 (shadow 0x08 2) ∧
    field Geometry.height 0x0A 2 (shadow 0x0A 2) ∧ field Geometry.stride 0x0C 4 (shadow 0x0C 4) ∧
    field Geometry.scanTag 0x10 1 (shadow 0x10 1 % 16) ∧
    field Geometry.ingestTag 0x11 1 (shadow 0x11 1 % 16) ∧
    field Geometry.windowBase 0x18 5 (shadow 0x18 5) ∧
    field Geometry.poolBase 0x20 5 (shadow 0x20 5) ∧ field Geometry.slotCount 0x28 2 (shadow 0x28 2) ∧
    field Geometry.assetBase 0x30 5 (shadow 0x30 5) ∧
    field Geometry.sectorSize 0x38 4 (shadow 0x38 4) ∧
    (taking → g.poolBase = s.path.geom.poolBase → g.slotCount = s.path.geom.slotCount →
      g.stride = s.path.geom.stride → g.height = s.path.geom.height →
      exec (.geometryCapture w) s = .next placed) ∧
    (taking → (g.poolBase ≠ s.path.geom.poolBase ∨ g.slotCount ≠ s.path.geom.slotCount ∨
        g.stride ≠ s.path.geom.stride ∨ g.height ≠ s.path.geom.height) →
      exec (.geometryCapture w) s =
        .next { placed with replay := { s.replay with
          slots := List.replicate g.slotCount .emptied, fill := none, captureSeq := 1,
          clips := List.replicate 16 .emptied } }) ∧
    (¬taking → new = s.path.geom → exec (.geometryCapture w) s = .next merged) ∧
    (¬taking → new ≠ s.path.geom → exec (.geometryCapture w) s =
      .next (takeOccurrence merged .tableIgnored
        (layout 16 [(0, leBytes 1 (masterTag w.id)), (4, leBytes 4 (firstOffset s w))])))

/-- R82, R83, R85, R87: a capture that raises one team's score raises SCORE_CHANGE, asks for that team's
flash and sends a cut; one that raises no score does none of these. -/
def Obligations.ScoreRisesAskForFlashAndCut : Prop :=
  ∀ (s : State) (w : WriteReq), Quiet s → legalWrite w = true → classifyWrite s w = .captured →
    let bytes := captureBytes s w
    (∀ b ∈ bytes, 0x2000 ≤ b.1 ∧ b.1 < 0x2040) →
    let merged := mergeCapture (forwardWrite s w) bytes
    let m := merged.path.shadow
    let old := teamScore s.path.shadow
    let live := s.report.mode == .live
    let risen := fun (x : Team) => { merged with
      score := { s.score with
        flashAsk := if live && flashEnable m then some x else s.score.flashAsk },
      replay := { s.replay with
        cutPending := s.replay.cutPending ||
          (live && cutOnScore m && s.replay.playback != .live) } }
    let change := fun (x : Team) =>
      layout 16 [(0, leBytes 1 x.code), (2, leBytes 2 (old x)), (4, leBytes 2 (teamScore m x))]
    (teamScore m .home ≤ old .home → teamScore m .away ≤ old .away →
      exec (.teamRecordCapture w) s = .next merged) ∧
    (∀ x y, x ≠ y → old x < teamScore m x → teamScore m y ≤ old y →
      exec (.teamRecordCapture w) s =
        .next (takeOccurrence (risen x) .scoreChange (change x))) ∧
    (old .home < teamScore m .home → old .away < teamScore m .away →
      let u := risen .away
      exec (.teamRecordCapture w) s =
        .next (takeOccurrence
          (takeOccurrence { u with report := { u.report with draws := u.report.draws + 1 } }
            .scoreChange (change .home))
          .scoreChange (change .away)))

/-- R36: a capture into a sponsor entry clears its sponsor's cap latch unless the sponsor, capping, with
a target, has met it. -/
def Obligations.SponsorCapturesClearTheCapLatch : Prop :=
  ∀ (s : State) (w : WriteReq) (i : Nat), Quiet s → legalWrite w = true →
    classifyWrite s w = .captured → i < 32 →
    let bytes := captureBytes s w
    (∀ b ∈ bytes, 0x3000 + i * 256 ≤ b.1 ∧ b.1 < 0x3000 + i * 256 + 256) →
    let merged := mergeCapture (forwardWrite s w) bytes
    let m := merged.path.shadow
    let met := sponsorCapping m i = true ∧ sponsorTarget m i ≠ 0 ∧
      sponsorTarget m i ≤ (sponsorAt s i).acc
    (met → exec (.sponsorEntryCapture w) s = .next merged) ∧
    (¬met → exec (.sponsorEntryCapture w) s =
      .next (modifySponsor merged i fun x => { x with capped := false }))

/-- R78, R64: a capture into the clock configuration waits while the clock runs; otherwise it is taken
at once, and a changed gate override, or a change to UP out of EXPIRED, evaluates the run condition
with cause SOFT. -/
def Obligations.ClockConfigurationIsTakenWhenStopped : Prop :=
  ∀ (s : State) (w : WriteReq), Quiet s → legalWrite w = true → classifyWrite s w = .captured →
    let bytes := captureBytes s w
    (∀ b ∈ bytes, 0x240 ≤ b.1 ∧ b.1 < 0x260) →
    let merged := mergeCapture (forwardWrite s w) bytes
    let new := readClockConfig merged.path.shadow
    let old := s.clock.config
    let leaves := new.mode ≠ old.mode ∧ new.mode = .up ∧ s.clock.state = .expired
    let c := { s.clock with
      config := new, configPending := false,
      added := (if new.mode ≠ old.mode ∨ new.setPoint ≠ old.setPoint
        then decide (new.mode = .up ∧ new.setPoint ≤ s.clock.value) else s.clock.added),
      state := (if leaves then .stopped else s.clock.state) }
    let evaluated := new.gateOverride ≠ old.gateOverride ∨ leaves
    let wanted := c.soft = true ∧ (s.gateRun = true ∨ new.gateOverride = true)
    let answered := fun (x : ClockUnit) =>
      exec (.clockConfigCapture w) s = .next { merged with clock := x }
    (s.clock.state = .running → answered { s.clock with configPending := true }) ∧
    (s.clock.state ≠ .running → ¬(evaluated ∧ wanted ∧ c.state = .stopped) → answered c) ∧
    (s.clock.state ≠ .running → evaluated → wanted → c.state = .stopped →
      ¬(new.mode = .down ∧ s.clock.value = 0) → answered (started c s.comp.frame .soft)) ∧
    (s.clock.state ≠ .running → evaluated → wanted → c.state = .stopped →
      new.mode = .down → s.clock.value = 0 → answered { c with state := .expired })

/-- R135, R136, R137, R187: what a capture of the intake tail, or of the consume index, brings about. -/
def Obligations.TailAndConsumeCaptures : Prop :=
  ∀ (s : State) (w : WriteReq), Quiet s → legalWrite w = true → classifyWrite s w = .captured →
    let bytes := captureBytes s w
    let merged := mergeCapture (forwardWrite s w) bytes
    let tail := BitVec.ofNat 16 (readLE merged.path.shadow 0x1070 2)
    let n := (tail - s.msg.head).toNat
    let taken := { merged with msg := { s.msg with tail := tail } }
    let overrun := { merged with msg := { s.msg with tail := tail, head := tail - 64 } }
    let fetching := fun (x : State) =>
      issue { x with msg := { x.msg with fetch := some x.msg.head } }
        (.burst (.read
          { id := 0xF0, addr := tableBase s + 0x8000 + x.msg.head.toNat % 64 * 256, burst := .incr,
            size := 4, beats := 16 }))
    let noticed := fun (x : State) => takeOccurrence x .intakeOverrun
      (layout 16 [(0, leBytes 2 (n - 64)), (2, leBytes 2 (tail - 64).toNat),
        (4, leBytes 2 tail.toNat)])
    ((∀ b ∈ bytes, 0x1070 ≤ b.1 ∧ b.1 < 0x1072) →
      (s.msg.fetch.isSome = true → exec (.intakeTailCapture w) s = .next taken) ∧
      (s.msg.fetch = none → n ≤ 64 → (n = 0 ∨ 32 ≤ s.msg.queue.length) →
        exec (.intakeTailCapture w) s = .next taken) ∧
      (s.msg.fetch = none → n ≤ 64 → n ≠ 0 → s.msg.queue.length < 32 →
        exec (.intakeTailCapture w) s = .next (fetching taken)) ∧
      (s.msg.fetch = none → 64 < n → 32 ≤ s.msg.queue.length →
        exec (.intakeTailCapture w) s = .next (noticed overrun)) ∧
      (s.msg.fetch = none → 64 < n → s.msg.queue.length < 32 →
        exec (.intakeTailCapture w) s = .next (noticed (fetching overrun)))) ∧
    ((∀ b ∈ bytes, 0x1060 ≤ b.1 ∧ b.1 < 0x1062) →
      let v := BitVec.ofNat 16 (readLE merged.path.shadow 0x1060 2)
      let r := s.report
      exec (.noticeConsumeCapture w) s =
        .next { merged with report := { r with
          consume := if (v - r.consume).toNat ≤ (r.produce - r.consume).toNat then v
            else r.produce } })

/-! ### The part's own starts and completions -/

/-- R137 to R142, R147: the start of a fetch, and what a completed one queues, withdraws or reports; an
ANNOUNCE is queued behind the last ANNOUNCE, another message at the tail. R136, R138: where more than 64
records are then outstanding, the head moves to the tail − 64 before the next fetch starts, and INTAKE_OVERRUN
is taken. That a withdrawn id is appended to the withdrawal list, and keeps its place when it is handed over
again, is the model's choice (log 39: no rule orders the list); so is that a withdrawal from the queue starts
no fetch before the overrun test (log 12). Which of two notices of one completion is taken first is open (log
1). -/
def Obligations.IntakeFetchesAreStartedAndCompleted : Prop :=
  ∀ s : State, Quiet s →
    (s.msg.fetch = none → 0 < outstanding s → s.msg.queue.length < 32 →
      exec .intakeFetchStart s =
        .next (issue { s with msg := { s.msg with fetch := some s.msg.head } }
          (.burst (.read
            { id := 0xF0, addr := tableBase s + 0x8000 + s.msg.head.toNat % 64 * 256,
              burst := .incr, size := 4, beats := 16 })))) ∧
    (s.msg.fetch.isSome = true ∨ outstanding s = 0 ∨ 32 ≤ s.msg.queue.length →
      exec .intakeFetchStart s = .next s) ∧
    ∀ (r : BitVec 16) (data : List Byte), s.msg.fetch = some r → Stale.intake ∉ s.path.stale →
      let n := (s.msg.tail - (s.msg.head + 1)).toNat
      let clamped := fun (x : State) => { x with msg := { x.msg with head := s.msg.tail - 64 } }
      let lost := layout 16 [(0, leBytes 2 (n - 64)), (2, leBytes 2 (s.msg.tail - 64).toNat),
        (4, leBytes 2 s.msg.tail.toNat)]
      let t := { s with msg := { s.msg with head := s.msg.head + 1, fetch := none } }
      let id := recordId data
      let byte := fun i => (data.getD i 0).toNat
      let completed := fun u =>
        (n ≤ 64 → exec (.intakeFetchComplete false data) s = .next (fetchStart u)) ∧
        (64 < n → exec (.intakeFetchComplete false data) s =
          .next (takeOccurrence (fetchStart (clamped u)) .intakeOverrun lost))
      let reported := fun error kind fields =>
        (n ≤ 64 → exec (.intakeFetchComplete error data) s =
          .next (takeOccurrence (fetchStart t) kind (layout 16 fields))) ∧
        (64 < n → ∃ u, exec (.intakeFetchComplete error data) s = .next u ∧
          takenInSomeOrder (fetchStart (clamped t)) u (kind, layout 16 fields) (.intakeOverrun, lost))
      let noticed := reported false
      let bad := fun cause x => noticed .intakeBad
        [(0, leBytes 1 cause), (2, leBytes 2 r.toNat), (4, leBytes 4 x)]
      reported true .intakeBad [(0, leBytes 1 0), (2, leBytes 2 r.toNat), (4, leBytes 4 0)] ∧
      (data.length = 256 →
        (byte 0 ≠ 1 → byte 0 ≠ 2 → bad 1 id.toNat) ∧
        (byte 0 = 1 ∨ byte 0 = 2 → id = 0 → bad 2 0) ∧
        (byte 0 = 1 → id ≠ 0 → recordClass data = none → bad 3 id.toNat) ∧
        (∀ cls, byte 0 = 1 → id ≠ 0 → recordClass data = some cls →
          (byte 8 = 0 ∨ 120 < byte 8 → bad 4 id.toNat) ∧
          (1 ≤ byte 8 → byte 8 ≤ 120 → (inQueue s id = true ∨ onBand s id = true) →
            bad 5 id.toNat) ∧
          (1 ≤ byte 8 → byte 8 ≤ 120 → inQueue s id = false → onBand s id = false →
            ∀ ahead behind, s.msg.queue = ahead ++ behind →
            (cls = .announce → (∀ x ∈ behind, x.cls ≠ .announce) ∧
              ∀ x, ahead.getLast? = some x → x.cls = .announce) →
            (cls ≠ .announce → behind = []) →
            let q := ahead ++
              { id := id, cls := cls,
                text := ((data.drop 16).take (byte 8)).map (fun b => b.toNat % 128),
                queued := s.clock.house,
                deadline := s.clock.house + BitVec.ofNat 32
                  (max 1 (min 600 (leNat ((data.drop 2).take 2))) * 1000) } :: behind
            completed { t with msg := { t.msg with
              queue := q,
              hold := if highMark s.path.shadow ≤ q.length then true else s.msg.hold } })) ∧
        (byte 0 = 2 → id ≠ 0 →
          (inQueue s id = true →
            let q := s.msg.queue.filter fun x => x.id != id
            completed { t with msg := { t.msg with
              queue := q,
              hold := if q.length ≤ lowMark s.path.shadow then false else s.msg.hold } }) ∧
          (inQueue s id = false → onBand s id = true →
            completed { t with ticker := { s.ticker with
              withdrawals := if id ∈ s.ticker.withdrawals then s.ticker.withdrawals
                else s.ticker.withdrawals ++ [id] } }) ∧
          (inQueue s id = false → onBand s id = false →
            noticed .withdrawLate [(4, leBytes 4 id.toNat)])))

/-- R184, R185, R168: a refresh that starts counts, takes its snapshot and issues the page in 256 ascending
writes of 256 bytes under ID F0h; the completion ends it and starts the one held. A refresh that falls due is
held, with cause CLOCK_STOP if any of those merged came from a stop, and starts when an IDLE report unit next
settles; while one is being written it stays held. Before the first FRAME_START none falls due: for a stop of
the clock there that is the model's choice (log 31). R191: the page is 65,536 bytes long, with the same header in
its first and in its last 16 bytes, and each field at its offset; the records beyond a list's length, and the
bytes beside and behind the records, are 0 (that no layer field and no grade stands there: log 21); the codes in
the manual's order. Where R191 gives no offset the places are the listed order's, and a gate stamp's cause and a
queued message's wait limit the model's reading (log 4); the order of the withdrawn ids is log 39's, the repeat
counter while LEAVING log 38's, a low mark that rises again log 34's. -/
def Obligations.StatusRefreshWritesThePage : Prop :=
  ∀ s : State, s.report.raised = [] →
    let begun := fun (x : State) cause =>
      let t := { x with report := { x.report with
        refreshCount := x.report.refreshCount + 1, held := none } }
      let page := statusPage t cause
      let write := fun i =>
        DownTxn.own 0xF0 (tableBase x + 0x80000 + 256 * i) ((page.drop (256 * i)).take 256)
      { t with
        report := { t.report with snapshot := some page },
        path := { t.path with issued := t.path.issued ++ (List.range 256).map write } }
    (∀ cause, s.report.snapshot = none → s.report.held = some cause →
      exec .statusRefreshStart s = .next (begun s cause)) ∧
    (s.report.snapshot.isSome = true ∨ s.report.held = none →
      exec .statusRefreshStart s = .next s) ∧
    (∀ page, s.report.snapshot = some page → Stale.refresh ∉ s.path.stale →
      let ended := { s with report := { s.report with snapshot := none } }
      (s.report.held = none → exec .statusRefreshComplete s = .next ended) ∧
      (∀ cause, s.report.held = some cause →
        exec .statusRefreshComplete s = .next (begun ended cause))) ∧
    (s.report.snapshot = none → s.report.held = none → Stale.refresh ∉ s.path.stale →
      exec .statusRefreshComplete s = .next s) ∧
    (∀ (x : State) cause,
      let page := statusPage x cause
      page.length = 65536 ∧ HeadsReported x cause page ∧ ClockReported x page ∧ ScoreReported x page ∧
      RotationReported x page ∧ ReplayReported x page ∧ MessagesReported x page ∧ RestIsZero page) ∧
    CodesListed ∧
    ∀ (x : State) cause,
      (x.comp.plan = none → refreshDue x cause = x) ∧
      (x.comp.plan ≠ none → refreshDue x cause = { x with report := { x.report with
        held := some (if x.report.held = some .clockStop then .clockStop else cause) } }) ∧
      (x.report.snapshot = none → x.report.held = some cause → refreshStart x = begun x cause) ∧
      (x.report.snapshot ≠ none ∨ x.report.held = none → refreshStart x = x)

/-! ### Pixels, weights, limits -/

/-- R24, R25, R26: the effective alpha stays within the key and the opacity, a blend within the two
values blended, and the visible weights of a pixel with what passes through all its layers make up
255. -/
def Obligations.AlphaBlendAndWeightsStayInRange : Prop :=
  (∀ k o, k ≤ 255 → o ≤ 255 → effAlpha k o ≤ k ∧ effAlpha k o ≤ o ∧ effAlpha k 255 = k ∧
    effAlpha 255 o = o) ∧
  (∀ a c b, a ≤ 255 → c ≤ 255 → b ≤ 255 → min c b ≤ blendStep a c b ∧ blendStep a c b ≤ max c b ∧
    blendStep 0 c b = b ∧ blendStep 255 c b = c) ∧
  ∀ cs : List Covered, (∀ x ∈ cs, x.alpha ≤ 255) →
    ((weightsAt cs).map Prod.snd).sum + cs.reverse.foldl (fun t x => transmit x.alpha t) 255 = 255

/-- R32, R8: the bumper fade rises to 255 in the middle and falls as it rose, never below 4, and it is
the opacity of the TRANSITION layer of the frame it stands at. -/
def Obligations.BumperFadeRisesAndFalls : Prop :=
  (∀ i b, i < b → b ≤ 120 →
    bumperFade i b = min 255 (510 * min (i + 1) (b - i) / b) ∧
    4 ≤ bumperFade i b ∧ bumperFade i b ≤ 255 ∧ bumperFade i b = bumperFade (b - 1 - i) b ∧
    (2 * (i + 1) < b → bumperFade i b ≤ bumperFade (i + 1) b) ∧
    (b ≤ 2 * (i + 1) → b ≤ 2 * (b - i) → bumperFade i b = 255)) ∧
  ∀ (s t : State) (p : Plan) (l : PlanLayer) (i b : Nat), exec .frameStart s = .next t →
    t.comp.plan = some p → p.layers[7]? = some l → l.drawn = true → t.replay.bumper = some (i, b) →
    l.opacity = bumperFade i b ∧ l.sponsor = .nobody

/-- R13, R3: at most six layers are drawn on a line, in stacking order, and no layer of the line left out
stands above one that is drawn; a layer stands above another by its rank, and between equal ranks by its
number. -/
def Obligations.SixHighestLayersOfALine : Prop :=
  ∀ (p : Plan) (width y : Nat) (without : List Nat),
    let drawn := lineLayers p width without y
    let candidate := fun (x : Nat × PlanLayer) => x ∈ numberedLayers p ∧ x.2.drawn = true ∧
      x.1 ∉ without ∧ x.2.onRow y = true ∧ x.2.onCanvas width = true
    drawn.length ≤ 6 ∧ (∀ x ∈ drawn, candidate x) ∧
    drawn.Pairwise (fun a b => stackKey a ≤ stackKey b) ∧
    (∀ x, candidate x → x ∉ drawn → drawn.length = 6 ∧ ∀ z ∈ drawn, stackKey x ≤ stackKey z) ∧
    (p.layers.length ≤ 8 →
      let lower := fun (a b : Nat × PlanLayer) =>
        a.2.rank < b.2.rank ∨ (a.2.rank = b.2.rank ∧ a.1 < b.1)
      drawn.Pairwise lower ∧ ∀ x, candidate x → x ∉ drawn → ∀ z ∈ drawn, lower x z)

/-- R17, R28, R29, R35: at FRAME_START every accumulator gains, for each sponsor layer that named its sponsor
and was drawn in the frame just ended, the layer's exposure, (W × 1000) div (255 × A) of its sum of weights
and its area, times its placement's grade, up to 2^48 − 1; the first FRAME_START adds nothing. The cap latch
is set where the target is met. EXPOSURE_TARGET is taken once for each latch so set, with a sponsor, its
accumulator and its target; which of several is the last one taken is open (log 1). -/
def Obligations.FrameStartAccruesExposure : Prop :=
  (∀ (s t : State) (i : Nat), exec .frameStart s = .next t → s.rot.sponsors.length = 32 → i < 32 →
    (sponsorAt t i).acc = min 281474976710655 ((sponsorAt s i).acc +
      accrual i ((handover s).zip (s.rot.placements.map fun x => x.fields.grade))) ∧
    ((sponsorAt t i).capped = true ↔ (sponsorAt s i).capped = true ∨
      (sponsorCapping s.path.shadow i = true ∧ sponsorTarget s.path.shadow i ≠ 0 ∧
        sponsorTarget s.path.shadow i ≤ (sponsorAt t i).acc)) ∧
    (∀ h : Handover, 0 < h.area → h.weight ≤ 255 * h.area → exposure h ≤ 1000) ∧
    ∀ h : Handover, h.drawn = false → exposure h = 0) ∧
  (∀ (s t : State) (i : Nat), exec .frameStart s = .next t → s.rot.sponsors.length = 32 →
    s.rot.placements.length = 4 → i < 32 →
    (s.comp.plan = none → (sponsorAt t i).acc = min 281474976710655 (sponsorAt s i).acc) ∧
    ∀ p, s.comp.plan = some p →
      let gain := fun n =>
        match s.comp.weights[n]?, p.layers[n]?, s.rot.placements[n]? with
        | some w, some l, some x =>
          if l.drawn = true ∧ l.sponsor = .sponsor i then
            w * 1000 / (255 * (l.w * l.h)) * x.fields.grade
          else 0
        | _, _, _ => 0
      (sponsorAt t i).acc =
        min 281474976710655 ((sponsorAt s i).acc + gain 0 + gain 1 + gain 2 + gain 3)) ∧
  ∀ s t : State, exec .frameStart s = .next t → s.rot.sponsors.length = 32 → Quiet s → RingOk s →
    PlacesOk s →
    let newly := fun i => (sponsorAt s i).capped = false ∧ (sponsorAt t i).capped = true
    let n := ((List.range 32).filter fun i => newly i).length
    ((∃ i, newly i) → Noticed t .exposureTarget fun d => ∃ i, i < 32 ∧ newly i ∧ d = layout 16
      [(0, leBytes 1 i), (2, leBytes 6 (sponsorAt t i).acc),
        (8, leBytes 6 (sponsorTarget s.path.shadow i))]) ∧
    countOf t.report .exposureTarget =
      if n = 0 then countOf s.report .exposureTarget
      else min 65535 (countOf s.report .exposureTarget + n)

/-- R167: whatever is answered, the responses of one master tag and one direction go back in the order
in which their transactions arrived, and none is held back behind an answered one. -/
def Obligations.ResponsesKeepTheOrderOfTheirTag : Prop :=
  ∀ (s : State) (lane : Dir × Nat),
    (∀ e ∈ s.path.order, ∀ r, e.answer = some r → (r.dir, masterTag r.id) = e.lane) →
    let inLane := fun (e : Entry) => decide (e.lane = lane)
    let t := returnResponses s
    ∃ gone kept back,
      s.path.order.filter inLane = gone ++ kept ∧ t.path.order.filter inLane = kept ∧
      t.path.returned = s.path.returned ++ back ∧
      back.filter (fun r => decide ((r.dir, masterTag r.id) = lane)) = gone.filterMap Entry.answer ∧
      (∀ e ∈ gone, e.answer.isSome = true) ∧
      ∀ e rest, kept = e :: rest → e.answer = none

/-! ### The machine -/

/-- Ch. 1, by the row's form: a step is exec of the front command on the state with the queue's rest;
with nothing waiting the part idles, which is the model's choice (log 5). -/
def Obligations.StepRunsTheFrontCommand : Prop :=
  (∀ (s : State) (c : Instr) (rest : List Instr),
    step { s with pending := c :: rest } = exec c { s with pending := rest }) ∧
  ∀ s : State, s.pending = [] → step s = .next s

/-- R189, R20, R59, R81, R86, R117, R134, R151, R152, R176, R178: a reset drops what is in flight, leaving
behind only which responses are to be discarded, puts every block at its reset values, and the invariants
hold of what it leaves. The values no rule gives are the model's choice (log 3). -/
def Obligations.ResetLeavesTheResetValues : Prop :=
  ∀ (s : State) (tbase : BitVec 8) (gate : Bool), ∃ t, exec (.resetN tbase gate) s = .next t ∧
    t.pending = s.pending ∧ t.gateRun = gate ∧
    (t.path.tbase = tbase ∧ (∀ a, readByte t.path.shadow a = 0) ∧
      t.path.geom =
        { canvasBase := 0, width := 0, height := 0, stride := 0, scanTag := 0, ingestTag := 0,
          windowBase := 0, poolBase := 0, slotCount := 0, assetBase := 0, sectorSize := 0 } ∧
      t.path.order = [] ∧ t.path.issued = [] ∧ t.path.returned = [] ∧
      (∀ x ∈ s.path.stale, x ∈ t.path.stale) ∧
      (∀ e ∈ s.path.order, e.answer = none →
        (e.kind = .forwarded → Stale.forwarded e.dir e.id ∈ t.path.stale) ∧
        (∀ k other, e.kind = .ingest k .waiting other → Stale.ingest e.id false ∈ t.path.stale) ∧
        (∀ k remap, e.kind = .ingest k remap .waiting → Stale.ingest e.id true ∈ t.path.stale)) ∧
      (∀ c ∈ s.comp.reads, c.waits = true → Stale.composited c.req.id ∈ t.path.stale) ∧
      (s.msg.fetch ≠ none → Stale.intake ∈ t.path.stale) ∧
      (s.report.snapshot ≠ none → Stale.refresh ∈ t.path.stale) ∧
      (s.path.stale = [] → s.path.order = [] → s.comp.reads = [] → s.msg.fetch = none →
        s.report.snapshot = none → t.path.stale = [])) ∧
    t.comp = { frame := 0, plan := none, marks := [], weights := [0, 0, 0, 0], lock := [],
               reads := [] } ∧
    ((∀ p, (placementAt t p).stack = [] ∧ (placementAt t p).spots = [] ∧
        (placementAt t p).lowest = 31 ∧ (placementAt t p).fields.members = 0 ∧
        (placementAt t p).fields.held = false ∧ (placementAt t p).fields.separate = false ∧
        (placementAt t p).fields.bound = false ∧ (placementAt t p).fields.grade = 1 ∧
        (placementAt t p).fields.fallback =
          { addr := 0, stride := 0, width := 0, height := 0, dwell := 1 }) ∧
      ∀ i, sponsorAt t i = { pointer := 0, acc := 0, capped := false }) ∧
    t.clock =
      { house := 0, value := 0, state := .stopped, soft := false, period := 1, added := false,
        source := .external, watch := none, returns := 0, lastReturn := 0, shotValue := 0,
        shotOn := false, hornGame := none, hornShot := none,
        startRec := { house := 0, frame := 0, value := 0, cause := .gate },
        stopRec := { house := 0, frame := 0, value := 0, cause := .gate },
        gateRec := { house := 0, frame := 0, value := 0, rising := false },
        config :=
          { mode := .down, startValue := 1, setPoint := 1, shotReset := 1000, shotAtClear := false,
            hornLength := 100, upHorn := false, gateOverride := false, timeouts := 0 },
        configPending := false } ∧
    t.score = { flash := none, flashAsk := none,
                fields := List.replicate 12
                  { codes := [], x := 0, y := 0, cells := 1, right := false } } ∧
    t.replay =
      { slots := [], fill := none, captureSeq := 1,
        clips := List.replicate 16
          { state := .empty, inPoint := 0, outPoint := 0, rate := 0, endAction := .holdLast,
            bumperFrames := 0, bumper := none, autoDisarm := false },
        playback := .live, clip := none, position := 0, counter := 0, bumper := none,
        lastShown := 0, leaveCause := .ended, waiting := none, cutPending := false } ∧
    t.msg = { head := 0, tail := 0, fetch := none, queue := [], hold := false } ∧
    t.ticker = { state := .hidden, prior := none, band := [], withdrawals := [], shown := 0 } ∧
    (t.report.mode = .pass ∧ t.report.pendingMode = none ∧
      (∀ w, outcomeRow t w = { latest := { tag := 0, outcome := none, mark := false },
                               previous := { tag := 0, outcome := none, mark := false } }) ∧
      t.report.snapshot = none ∧ t.report.held = none ∧ t.report.refreshCount = 0 ∧
      t.report.produce = 0 ∧ t.report.consume = 0 ∧ t.report.raised = [] ∧
      t.report.ring = List.replicate 32
        { number := 0, kind := none, count := 0, frame := 0, house := 0,
          detail := List.replicate 16 0 }) ∧
    hornGameLine t = false ∧ hornShotLine t = false ∧ msgHoldLine t = false ∧ irq t = false ∧
    Quiet t ∧ Memory.wf t.path.shadow = true ∧ RunOk t ∧ ClockOk t ∧ QueueOk t ∧ BandOk t ∧
    StacksOk t ∧ AccountsOk t ∧ TablesOk t ∧ ClipsOk t ∧ SlotsOk t ∧ RingOk t ∧ PlacesOk t ∧
    OwnWritesOk t

/-- Every step keeps the shadow in its canonical form, and leaves nothing raised or due untaken. -/
def Obligations.StepsKeepTheShadowCanonicalAndSettle : Prop :=
  ∀ s t : State, step s = .next t →
    (Memory.wf s.path.shadow = true → Memory.wf t.path.shadow = true) ∧ (Quiet s → Quiet t)

/-- R64, R78: every step keeps the run condition and the ranges of the clock unit. -/
def Obligations.StepsKeepTheRunCondition : Prop :=
  ∀ s t : State, RunOk s → ClockOk s → step s = .next t → RunOk t ∧ ClockOk t

/-- R137, R140, R141, R160: every step keeps the crowd queue and the band in their bounds and their ids
apart. -/
def Obligations.StepsKeepTheQueueAndTheBand : Prop :=
  ∀ s t : State, QueueOk s → BandOk s → step s = .next t → QueueOk t ∧ BandOk t

/-- R43, R29: every step keeps the form of the stacks and the bound of the accumulators. R101, R111, R183:
it keeps the sizes of the tables. R102, R104, R110, R119, R133: it keeps exactly the playing clip PLAYING,
and the free slots of the ring, so that at least two slots are neither held nor FILLING and no ingest write
finds every slot held. -/
def Obligations.StepsKeepTheStacksAndAccounts : Prop :=
  (∀ s t : State, StacksOk s → AccountsOk s → step s = .next t → StacksOk t ∧ AccountsOk t) ∧
  (∀ s t : State, TablesOk s → ClipsOk s → SlotsOk s → step s = .next t →
    TablesOk t ∧ ClipsOk t ∧ SlotsOk t) ∧
  (∀ s : State, SlotsOk s → 3 ≤ s.replay.slots.length →
    ∃ i j, i < s.replay.slots.length ∧ j < s.replay.slots.length ∧ i ≠ j ∧
      slotHeld s i = false ∧ slotHeld s j = false ∧
      (slotAt s i).state ≠ .filling ∧ (slotAt s j).state ≠ .filling) ∧
  ∀ s : State, SlotsOk s → s.replay.slots ≠ [] → ∀ f, step s ≠ .fault f

/-- R186, R187, R168, R177: every step keeps the notice ring in order, at most one unconsumed record to a
kind, and the part's own writes inside the status page and the notice ring, under ID F0h. R186: the taking
of an occurrence updates the unconsumed record of its kind in place, or creates a record at P mod 32 and
raises P, and issues one write of the whole record. R187: IRQ is high just while P differs from C, and
so after every occurrence. -/
def Obligations.StepsKeepTheNoticeRing : Prop :=
  (∀ s t : State, RingOk s → PlacesOk s → OwnWritesOk s → step s = .next t →
    RingOk t ∧ PlacesOk t ∧ OwnWritesOk t) ∧
  (∀ (s : State) (kind : NoticeKind) (detail : List Byte), RingOk s → PlacesOk s →
    let r := s.report
    let taken := fun (i : Nat) (y : NoticeRecord) (p : BitVec 16) =>
      takeOccurrence s kind detail =
        { s with
          report := { r with ring := r.ring.set i y, produce := p },
          path := { s.path with issued := s.path.issued ++
            [.own 0xF0 (tableBase s + 0x90000 + 32 * i) (layout 32
              [(0, leBytes 2 y.number.toNat), (2, leBytes 1 kind.code), (4, leBytes 2 y.count),
                (8, leBytes 4 y.frame.toNat), (12, leBytes 4 y.house.toNat), (16, y.detail)])] } }
    (∀ i x, r.ring[i]? = some x → x.kind = some kind → unconsumed r x.number = true →
      taken i
        { x with
          count := min 65535 (x.count + 1), frame := s.comp.frame, house := s.clock.house,
          detail := detail }
        r.produce) ∧
    ((∀ x ∈ r.ring, x.kind = some kind → unconsumed r x.number = false) →
      taken (r.produce.toNat % 32)
        { number := r.produce, kind := some kind, count := 1, frame := s.comp.frame,
          house := s.clock.house, detail := detail }
        (r.produce + 1)) ∧
    irq (takeOccurrence s kind detail) = true) ∧
  ∀ s : State, irq s = true ↔ s.report.produce ≠ s.report.consume

/-- R4, R18, R173, R179: only a FRAME_START, or RESET_N, changes the mode, the frame counter, the lock
set or the plan, but for the layers that a fetch error drops; only RESET_N changes the taken geometry in
LIVE, and the part's base address. -/
def Obligations.OnlyFrameStartChangesTheFrame : Prop :=
  ∀ (s t : State) (c : Instr) (rest : List Instr), s.pending = c :: rest → step s = .next t →
    isReset c = false →
    t.path.tbase = s.path.tbase ∧ (s.report.mode = .live → t.path.geom = s.path.geom) ∧
    (beginsFrame c = false →
      t.report.mode = s.report.mode ∧ t.comp.frame = s.comp.frame ∧ t.comp.lock = s.comp.lock ∧
      t.comp.plan.map (fun p => { p with erred := [] }) =
        s.comp.plan.map (fun p => { p with erred := [] }))

/-- R174, R175: no write that arrives is issued to the memory with a byte in a sector of the lock set in
force, or in a part-owned area: neither one issued as it is, nor the bytes of an ingest write outside the
window. R99, R177: the other bytes of an ingest write are issued inside one slot of the slot pool. -/
def Obligations.NoIssuedWriteReachesALockedSector : Prop :=
  ∀ (s t : State) (issued : List DownTxn), step s = .next t →
    t.path.issued = s.path.issued ++ issued →
    let safe := fun a => inPartOwned s a = false ∧
      ∀ j ∈ s.comp.lock, inSector s.path.geom j a = false
    let g := s.path.geom
    (∀ w, DownTxn.burst (.write w) ∈ issued → ∀ b ∈ writeBytes w, safe b.1) ∧
    ∀ id purpose bytes, DownTxn.store id purpose bytes ∈ issued →
      (purpose = .outside ∧ ∀ b ∈ bytes, safe b.1) ∨
      ∃ k, purpose = .ingest k ∧ masterTag id = g.ingestTag ∧ s.report.mode = .live ∧
        (TablesOk s → SlotsOk s → k < g.slotCount) ∧
        ∀ b ∈ bytes, g.poolBase + k * (g.stride * g.height) ≤ b.1 ∧
          b.1 < g.poolBase + (k + 1) * (g.stride * g.height)
end

