-- ==== Sys2Proof/Laws/Memory.lean ====
section
/-! SUPPORT. Sparse tables: read after write, the canonical form is kept. -/

namespace Sys2Proof.Machine

theorem lookup_of_lt {α : Type} [DecidableEq α] (d : α) (m : List (Nat × α)) (lo a : Nat)
    (h : canonicalFrom d lo m = true) (ha : a < lo) : lookup d m a = d := by
  induction m generalizing lo with
  | nil => rfl
  | cons x m ih =>
    obtain ⟨k, v⟩ := x
    simp only [canonicalFrom, Bool.and_eq_true, decide_eq_true_eq] at h
    have hne : a ≠ k := by omega
    simp only [lookup, hne, if_false]
    exact ih (k + 1) h.2 (by omega)

theorem lookup_put {α : Type} [DecidableEq α] (d : α) (m : List (Nat × α)) (lo a b : Nat) (v : α)
    (h : canonicalFrom d lo m = true) :
    lookup d (put d m a v) b = if b = a then v else lookup d m b := by
  induction m generalizing lo with
  | nil =>
    by_cases hv : v = d <;> by_cases hb : b = a <;> simp [put, lookup, hv, hb]
  | cons x m ih =>
    obtain ⟨k, w⟩ := x
    simp only [canonicalFrom, Bool.and_eq_true, decide_eq_true_eq] at h
    obtain ⟨⟨hlo, hw⟩, hm⟩ := h
    by_cases h1 : a < k
    · by_cases hv : v = d
      · subst hv
        by_cases hb : b = a
        · subst hb
          have : b ≠ k := by omega
          simp [put, h1, lookup, this, lookup_of_lt v m (k + 1) b hm (by omega)]
        · simp [put, h1, hb]
      · by_cases hb : b = a <;> simp [put, h1, hv, lookup, hb]
    · by_cases h2 : a = k
      · subst h2
        by_cases hv : v = d
        · subst hv
          by_cases hb : b = a
          · subst hb
            simp [put, lookup_of_lt v m (b + 1) b hm (by omega)]
          · simp [put, lookup, hb]
        · by_cases hb : b = a <;> simp [put, hv, lookup, hb]
      · by_cases hb : b = k
        · have : b ≠ a := by omega
          simp [put, h1, h2, lookup, hb, show ¬ k = a from by omega]
        · simp only [put, h1, h2, if_false, lookup, hb]
          exact ih (k + 1) hm

theorem put_canonical {α : Type} [DecidableEq α] (d : α) (m : List (Nat × α)) (lo a : Nat) (v : α)
    (h : canonicalFrom d lo m = true) : canonicalFrom d (min lo a) (put d m a v) = true := by
  induction m generalizing lo with
  | nil => by_cases hv : v = d <;> simp [put, canonicalFrom, hv]
  | cons x m ih =>
    obtain ⟨k, w⟩ := x
    simp only [canonicalFrom, Bool.and_eq_true, decide_eq_true_eq] at h
    obtain ⟨⟨hlo, hw⟩, hm⟩ := h
    by_cases h1 : a < k
    · by_cases hv : v = d
      · subst hv
        simp only [put, h1, if_true, canonicalFrom, Bool.and_eq_true, decide_eq_true_eq]
        exact ⟨⟨by omega, hw⟩, hm⟩
      · simp only [put, h1, if_true, hv, if_false, canonicalFrom, Bool.and_eq_true,
          decide_eq_true_eq]
        exact ⟨⟨by omega, hv⟩, ⟨by omega, hw⟩, hm⟩
    · by_cases h2 : a = k
      · subst h2
        by_cases hv : v = d
        · subst hv
          simp only [put, Nat.lt_irrefl, if_false, if_true]
          clear ih
          cases m with
          | nil => rfl
          | cons y m =>
            obtain ⟨k', w'⟩ := y
            simp only [canonicalFrom, Bool.and_eq_true, decide_eq_true_eq] at hm ⊢
            exact ⟨⟨by omega, hm.1.2⟩, hm.2⟩
        · simp only [put, Nat.lt_irrefl, if_false, hv, if_true, canonicalFrom, Bool.and_eq_true,
            decide_eq_true_eq]
          exact ⟨⟨by omega, hv⟩, hm⟩
      · simp only [put, h1, h2, if_false, canonicalFrom, Bool.and_eq_true, decide_eq_true_eq]
        refine ⟨⟨by omega, hw⟩, ?_⟩
        have := ih (k + 1) hm
        rwa [Nat.min_eq_left (by omega)] at this

/-- A write keeps the canonical form. -/
theorem writeByte_wf (m : Memory) (a : Nat) (v : Byte) (h : Memory.wf m = true) :
    Memory.wf (writeByte m a v) = true := by
  have := put_canonical (0 : Byte) m 0 a v h
  rwa [Nat.zero_min] at this

/-- A read after a write: the value written there, what stood elsewhere. -/
theorem readByte_writeByte (m : Memory) (a b : Nat) (v : Byte) (h : Memory.wf m = true) :
    readByte (writeByte m a v) b = if b = a then v else readByte m b :=
  lookup_put 0 m 0 a b v h

/-- A merge keeps the canonical form. -/
theorem writeAll_wf (bytes : List (Nat × Byte)) (m : Memory) (h : Memory.wf m = true) :
    Memory.wf (writeAll m bytes) = true := by
  induction bytes generalizing m with
  | nil => exact h
  | cons x bytes ih => exact ih _ (writeByte_wf m x.1 x.2 h)

/-- A merge leaves every byte it does not name. -/
theorem readByte_writeAll_other (bytes : List (Nat × Byte)) (m : Memory) (a : Nat)
    (h : Memory.wf m = true) (ha : ∀ x ∈ bytes, x.1 ≠ a) :
    readByte (writeAll m bytes) a = readByte m a := by
  induction bytes generalizing m with
  | nil => rfl
  | cons x bytes ih =>
    have := ih (writeByte m x.1 x.2) (writeByte_wf m x.1 x.2 h)
      (fun y hy => ha y (List.mem_cons_of_mem _ hy))
    simp only [writeAll, List.foldl_cons] at this ⊢
    rw [this, readByte_writeByte m x.1 a x.2 h]
    have := ha x List.mem_cons_self
    simp [Ne.symm this]

/-- A merge of bytes with distinct offsets writes each of them. -/
theorem readByte_writeAll_mem (bytes : List (Nat × Byte)) (m : Memory) (h : Memory.wf m = true)
    (hd : (bytes.map Prod.fst).Nodup) (x : Nat × Byte) (hx : x ∈ bytes) :
    readByte (writeAll m bytes) x.1 = x.2 := by
  induction bytes generalizing m with
  | nil => cases hx
  | cons y bytes ih =>
    simp only [List.map_cons, List.nodup_cons] at hd
    simp only [writeAll, List.foldl_cons]
    rcases List.mem_cons.1 hx with rfl | hx
    · have := readByte_writeAll_other bytes (writeByte m x.1 x.2) x.1 (writeByte_wf m _ _ h)
        (fun z hz hzx => hd.1 (hzx ▸ List.mem_map_of_mem (f := Prod.fst) hz))
      simp only [writeAll] at this
      rw [this, readByte_writeByte m _ _ _ h, if_pos rfl]
    · exact ih (writeByte m y.1 y.2) (writeByte_wf m _ _ h) hd.2 hx

end Sys2Proof.Machine
end

