-- ==== Sys2Proof/Laws/State.lean ====
section
/-! SUPPORT. What each small update of the state does to each field. -/

namespace Sys2Proof.Machine

@[simp] theorem setClock_pending (s : State) (f : ClockUnit → ClockUnit) :
    (setClock s f).pending = s.pending := rfl
@[simp] theorem setClock_gateRun (s : State) (f : ClockUnit → ClockUnit) :
    (setClock s f).gateRun = s.gateRun := rfl
@[simp] theorem setClock_path (s : State) (f : ClockUnit → ClockUnit) :
    (setClock s f).path = s.path := rfl
@[simp] theorem setClock_comp (s : State) (f : ClockUnit → ClockUnit) :
    (setClock s f).comp = s.comp := rfl
@[simp] theorem setClock_rot (s : State) (f : ClockUnit → ClockUnit) :
    (setClock s f).rot = s.rot := rfl
@[simp] theorem setClock_clock (s : State) (f : ClockUnit → ClockUnit) :
    (setClock s f).clock = f s.clock := rfl
@[simp] theorem setClock_score (s : State) (f : ClockUnit → ClockUnit) :
    (setClock s f).score = s.score := rfl
@[simp] theorem setClock_replay (s : State) (f : ClockUnit → ClockUnit) :
    (setClock s f).replay = s.replay := rfl
@[simp] theorem setClock_msg (s : State) (f : ClockUnit → ClockUnit) :
    (setClock s f).msg = s.msg := rfl
@[simp] theorem setClock_ticker (s : State) (f : ClockUnit → ClockUnit) :
    (setClock s f).ticker = s.ticker := rfl
@[simp] theorem setClock_report (s : State) (f : ClockUnit → ClockUnit) :
    (setClock s f).report = s.report := rfl

@[simp] theorem setReplay_pending (s : State) (f : ReplayUnit → ReplayUnit) :
    (setReplay s f).pending = s.pending := rfl
@[simp] theorem setReplay_gateRun (s : State) (f : ReplayUnit → ReplayUnit) :
    (setReplay s f).gateRun = s.gateRun := rfl
@[simp] theorem setReplay_path (s : State) (f : ReplayUnit → ReplayUnit) :
    (setReplay s f).path = s.path := rfl
@[simp] theorem setReplay_comp (s : State) (f : ReplayUnit → ReplayUnit) :
    (setReplay s f).comp = s.comp := rfl
@[simp] theorem setReplay_rot (s : State) (f : ReplayUnit → ReplayUnit) :
    (setReplay s f).rot = s.rot := rfl
@[simp] theorem setReplay_clock (s : State) (f : ReplayUnit → ReplayUnit) :
    (setReplay s f).clock = s.clock := rfl
@[simp] theorem setReplay_score (s : State) (f : ReplayUnit → ReplayUnit) :
    (setReplay s f).score = s.score := rfl
@[simp] theorem setReplay_replay (s : State) (f : ReplayUnit → ReplayUnit) :
    (setReplay s f).replay = f s.replay := rfl
@[simp] theorem setReplay_msg (s : State) (f : ReplayUnit → ReplayUnit) :
    (setReplay s f).msg = s.msg := rfl
@[simp] theorem setReplay_ticker (s : State) (f : ReplayUnit → ReplayUnit) :
    (setReplay s f).ticker = s.ticker := rfl
@[simp] theorem setReplay_report (s : State) (f : ReplayUnit → ReplayUnit) :
    (setReplay s f).report = s.report := rfl

@[simp] theorem setMsg_pending (s : State) (f : MessageUnit → MessageUnit) :
    (setMsg s f).pending = s.pending := rfl
@[simp] theorem setMsg_gateRun (s : State) (f : MessageUnit → MessageUnit) :
    (setMsg s f).gateRun = s.gateRun := rfl
@[simp] theorem setMsg_path (s : State) (f : MessageUnit → MessageUnit) :
    (setMsg s f).path = s.path := rfl
@[simp] theorem setMsg_comp (s : State) (f : MessageUnit → MessageUnit) :
    (setMsg s f).comp = s.comp := rfl
@[simp] theorem setMsg_rot (s : State) (f : MessageUnit → MessageUnit) :
    (setMsg s f).rot = s.rot := rfl
@[simp] theorem setMsg_clock (s : State) (f : MessageUnit → MessageUnit) :
    (setMsg s f).clock = s.clock := rfl
@[simp] theorem setMsg_score (s : State) (f : MessageUnit → MessageUnit) :
    (setMsg s f).score = s.score := rfl
@[simp] theorem setMsg_replay (s : State) (f : MessageUnit → MessageUnit) :
    (setMsg s f).replay = s.replay := rfl
@[simp] theorem setMsg_msg (s : State) (f : MessageUnit → MessageUnit) :
    (setMsg s f).msg = f s.msg := rfl
@[simp] theorem setMsg_ticker (s : State) (f : MessageUnit → MessageUnit) :
    (setMsg s f).ticker = s.ticker := rfl
@[simp] theorem setMsg_report (s : State) (f : MessageUnit → MessageUnit) :
    (setMsg s f).report = s.report := rfl

@[simp] theorem setTicker_pending (s : State) (f : TickerUnit → TickerUnit) :
    (setTicker s f).pending = s.pending := rfl
@[simp] theorem setTicker_gateRun (s : State) (f : TickerUnit → TickerUnit) :
    (setTicker s f).gateRun = s.gateRun := rfl
@[simp] theorem setTicker_path (s : State) (f : TickerUnit → TickerUnit) :
    (setTicker s f).path = s.path := rfl
@[simp] theorem setTicker_comp (s : State) (f : TickerUnit → TickerUnit) :
    (setTicker s f).comp = s.comp := rfl
@[simp] theorem setTicker_rot (s : State) (f : TickerUnit → TickerUnit) :
    (setTicker s f).rot = s.rot := rfl
@[simp] theorem setTicker_clock (s : State) (f : TickerUnit → TickerUnit) :
    (setTicker s f).clock = s.clock := rfl
@[simp] theorem setTicker_score (s : State) (f : TickerUnit → TickerUnit) :
    (setTicker s f).score = s.score := rfl
@[simp] theorem setTicker_replay (s : State) (f : TickerUnit → TickerUnit) :
    (setTicker s f).replay = s.replay := rfl
@[simp] theorem setTicker_msg (s : State) (f : TickerUnit → TickerUnit) :
    (setTicker s f).msg = s.msg := rfl
@[simp] theorem setTicker_ticker (s : State) (f : TickerUnit → TickerUnit) :
    (setTicker s f).ticker = f s.ticker := rfl
@[simp] theorem setTicker_report (s : State) (f : TickerUnit → TickerUnit) :
    (setTicker s f).report = s.report := rfl

@[simp] theorem setReport_pending (s : State) (f : ReportUnit → ReportUnit) :
    (setReport s f).pending = s.pending := rfl
@[simp] theorem setReport_gateRun (s : State) (f : ReportUnit → ReportUnit) :
    (setReport s f).gateRun = s.gateRun := rfl
@[simp] theorem setReport_path (s : State) (f : ReportUnit → ReportUnit) :
    (setReport s f).path = s.path := rfl
@[simp] theorem setReport_comp (s : State) (f : ReportUnit → ReportUnit) :
    (setReport s f).comp = s.comp := rfl
@[simp] theorem setReport_rot (s : State) (f : ReportUnit → ReportUnit) :
    (setReport s f).rot = s.rot := rfl
@[simp] theorem setReport_clock (s : State) (f : ReportUnit → ReportUnit) :
    (setReport s f).clock = s.clock := rfl
@[simp] theorem setReport_score (s : State) (f : ReportUnit → ReportUnit) :
    (setReport s f).score = s.score := rfl
@[simp] theorem setReport_replay (s : State) (f : ReportUnit → ReportUnit) :
    (setReport s f).replay = s.replay := rfl
@[simp] theorem setReport_msg (s : State) (f : ReportUnit → ReportUnit) :
    (setReport s f).msg = s.msg := rfl
@[simp] theorem setReport_ticker (s : State) (f : ReportUnit → ReportUnit) :
    (setReport s f).ticker = s.ticker := rfl
@[simp] theorem setReport_report (s : State) (f : ReportUnit → ReportUnit) :
    (setReport s f).report = f s.report := rfl

@[simp] theorem modifyPlacement_pending (s : State) (p : Nat) (f : Placement → Placement) :
    (modifyPlacement s p f).pending = s.pending := rfl
@[simp] theorem modifyPlacement_gateRun (s : State) (p : Nat) (f : Placement → Placement) :
    (modifyPlacement s p f).gateRun = s.gateRun := rfl
@[simp] theorem modifyPlacement_path (s : State) (p : Nat) (f : Placement → Placement) :
    (modifyPlacement s p f).path = s.path := rfl
@[simp] theorem modifyPlacement_comp (s : State) (p : Nat) (f : Placement → Placement) :
    (modifyPlacement s p f).comp = s.comp := rfl
@[simp] theorem modifyPlacement_rot (s : State) (p : Nat) (f : Placement → Placement) :
    (modifyPlacement s p f).rot = { s.rot with placements := s.rot.placements.modify p f } := rfl
@[simp] theorem modifyPlacement_clock (s : State) (p : Nat) (f : Placement → Placement) :
    (modifyPlacement s p f).clock = s.clock := rfl
@[simp] theorem modifyPlacement_score (s : State) (p : Nat) (f : Placement → Placement) :
    (modifyPlacement s p f).score = s.score := rfl
@[simp] theorem modifyPlacement_replay (s : State) (p : Nat) (f : Placement → Placement) :
    (modifyPlacement s p f).replay = s.replay := rfl
@[simp] theorem modifyPlacement_msg (s : State) (p : Nat) (f : Placement → Placement) :
    (modifyPlacement s p f).msg = s.msg := rfl
@[simp] theorem modifyPlacement_ticker (s : State) (p : Nat) (f : Placement → Placement) :
    (modifyPlacement s p f).ticker = s.ticker := rfl
@[simp] theorem modifyPlacement_report (s : State) (p : Nat) (f : Placement → Placement) :
    (modifyPlacement s p f).report = s.report := rfl

@[simp] theorem modifySponsor_pending (s : State) (i : Nat) (f : Sponsor → Sponsor) :
    (modifySponsor s i f).pending = s.pending := rfl
@[simp] theorem modifySponsor_gateRun (s : State) (i : Nat) (f : Sponsor → Sponsor) :
    (modifySponsor s i f).gateRun = s.gateRun := rfl
@[simp] theorem modifySponsor_path (s : State) (i : Nat) (f : Sponsor → Sponsor) :
    (modifySponsor s i f).path = s.path := rfl
@[simp] theorem modifySponsor_comp (s : State) (i : Nat) (f : Sponsor → Sponsor) :
    (modifySponsor s i f).comp = s.comp := rfl
@[simp] theorem modifySponsor_rot (s : State) (i : Nat) (f : Sponsor → Sponsor) :
    (modifySponsor s i f).rot = { s.rot with sponsors := s.rot.sponsors.modify i f } := rfl
@[simp] theorem modifySponsor_clock (s : State) (i : Nat) (f : Sponsor → Sponsor) :
    (modifySponsor s i f).clock = s.clock := rfl
@[simp] theorem modifySponsor_score (s : State) (i : Nat) (f : Sponsor → Sponsor) :
    (modifySponsor s i f).score = s.score := rfl
@[simp] theorem modifySponsor_replay (s : State) (i : Nat) (f : Sponsor → Sponsor) :
    (modifySponsor s i f).replay = s.replay := rfl
@[simp] theorem modifySponsor_msg (s : State) (i : Nat) (f : Sponsor → Sponsor) :
    (modifySponsor s i f).msg = s.msg := rfl
@[simp] theorem modifySponsor_ticker (s : State) (i : Nat) (f : Sponsor → Sponsor) :
    (modifySponsor s i f).ticker = s.ticker := rfl
@[simp] theorem modifySponsor_report (s : State) (i : Nat) (f : Sponsor → Sponsor) :
    (modifySponsor s i f).report = s.report := rfl

@[simp] theorem modifySlot_pending (s : State) (k : Nat) (f : Slot → Slot) :
    (modifySlot s k f).pending = s.pending := rfl
@[simp] theorem modifySlot_gateRun (s : State) (k : Nat) (f : Slot → Slot) :
    (modifySlot s k f).gateRun = s.gateRun := rfl
@[simp] theorem modifySlot_path (s : State) (k : Nat) (f : Slot → Slot) :
    (modifySlot s k f).path = s.path := rfl
@[simp] theorem modifySlot_comp (s : State) (k : Nat) (f : Slot → Slot) :
    (modifySlot s k f).comp = s.comp := rfl
@[simp] theorem modifySlot_rot (s : State) (k : Nat) (f : Slot → Slot) :
    (modifySlot s k f).rot = s.rot := rfl
@[simp] theorem modifySlot_clock (s : State) (k : Nat) (f : Slot → Slot) :
    (modifySlot s k f).clock = s.clock := rfl
@[simp] theorem modifySlot_score (s : State) (k : Nat) (f : Slot → Slot) :
    (modifySlot s k f).score = s.score := rfl
@[simp] theorem modifySlot_replay (s : State) (k : Nat) (f : Slot → Slot) :
    (modifySlot s k f).replay = { s.replay with slots := s.replay.slots.modify k f } := rfl
@[simp] theorem modifySlot_msg (s : State) (k : Nat) (f : Slot → Slot) :
    (modifySlot s k f).msg = s.msg := rfl
@[simp] theorem modifySlot_ticker (s : State) (k : Nat) (f : Slot → Slot) :
    (modifySlot s k f).ticker = s.ticker := rfl
@[simp] theorem modifySlot_report (s : State) (k : Nat) (f : Slot → Slot) :
    (modifySlot s k f).report = s.report := rfl

@[simp] theorem modifyClip_pending (s : State) (c : Nat) (f : Clip → Clip) :
    (modifyClip s c f).pending = s.pending := rfl
@[simp] theorem modifyClip_gateRun (s : State) (c : Nat) (f : Clip → Clip) :
    (modifyClip s c f).gateRun = s.gateRun := rfl
@[simp] theorem modifyClip_path (s : State) (c : Nat) (f : Clip → Clip) :
    (modifyClip s c f).path = s.path := rfl
@[simp] theorem modifyClip_comp (s : State) (c : Nat) (f : Clip → Clip) :
    (modifyClip s c f).comp = s.comp := rfl
@[simp] theorem modifyClip_rot (s : State) (c : Nat) (f : Clip → Clip) :
    (modifyClip s c f).rot = s.rot := rfl
@[simp] theorem modifyClip_clock (s : State) (c : Nat) (f : Clip → Clip) :
    (modifyClip s c f).clock = s.clock := rfl
@[simp] theorem modifyClip_score (s : State) (c : Nat) (f : Clip → Clip) :
    (modifyClip s c f).score = s.score := rfl
@[simp] theorem modifyClip_replay (s : State) (c : Nat) (f : Clip → Clip) :
    (modifyClip s c f).replay = { s.replay with clips := s.replay.clips.modify c f } := rfl
@[simp] theorem modifyClip_msg (s : State) (c : Nat) (f : Clip → Clip) :
    (modifyClip s c f).msg = s.msg := rfl
@[simp] theorem modifyClip_ticker (s : State) (c : Nat) (f : Clip → Clip) :
    (modifyClip s c f).ticker = s.ticker := rfl
@[simp] theorem modifyClip_report (s : State) (c : Nat) (f : Clip → Clip) :
    (modifyClip s c f).report = s.report := rfl

@[simp] theorem raiseReport_pending (s : State) (r : Report) :
    (raiseReport s r).pending = s.pending := rfl
@[simp] theorem raiseReport_gateRun (s : State) (r : Report) :
    (raiseReport s r).gateRun = s.gateRun := rfl
@[simp] theorem raiseReport_path (s : State) (r : Report) :
    (raiseReport s r).path = s.path := rfl
@[simp] theorem raiseReport_comp (s : State) (r : Report) :
    (raiseReport s r).comp = s.comp := rfl
@[simp] theorem raiseReport_rot (s : State) (r : Report) :
    (raiseReport s r).rot = s.rot := rfl
@[simp] theorem raiseReport_clock (s : State) (r : Report) :
    (raiseReport s r).clock = s.clock := rfl
@[simp] theorem raiseReport_score (s : State) (r : Report) :
    (raiseReport s r).score = s.score := rfl
@[simp] theorem raiseReport_replay (s : State) (r : Report) :
    (raiseReport s r).replay = s.replay := rfl
@[simp] theorem raiseReport_msg (s : State) (r : Report) :
    (raiseReport s r).msg = s.msg := rfl
@[simp] theorem raiseReport_ticker (s : State) (r : Report) :
    (raiseReport s r).ticker = s.ticker := rfl
@[simp] theorem raiseReport_report (s : State) (r : Report) :
    (raiseReport s r).report = { s.report with raised := s.report.raised ++ [r] } := rfl

@[simp] theorem raise_pending (s : State) (k : NoticeKind) (d : List (Nat × List Byte)) :
    (raise s k d).pending = s.pending := rfl
@[simp] theorem raise_gateRun (s : State) (k : NoticeKind) (d : List (Nat × List Byte)) :
    (raise s k d).gateRun = s.gateRun := rfl
@[simp] theorem raise_path (s : State) (k : NoticeKind) (d : List (Nat × List Byte)) :
    (raise s k d).path = s.path := rfl
@[simp] theorem raise_comp (s : State) (k : NoticeKind) (d : List (Nat × List Byte)) :
    (raise s k d).comp = s.comp := rfl
@[simp] theorem raise_rot (s : State) (k : NoticeKind) (d : List (Nat × List Byte)) :
    (raise s k d).rot = s.rot := rfl
@[simp] theorem raise_clock (s : State) (k : NoticeKind) (d : List (Nat × List Byte)) :
    (raise s k d).clock = s.clock := rfl
@[simp] theorem raise_score (s : State) (k : NoticeKind) (d : List (Nat × List Byte)) :
    (raise s k d).score = s.score := rfl
@[simp] theorem raise_replay (s : State) (k : NoticeKind) (d : List (Nat × List Byte)) :
    (raise s k d).replay = s.replay := rfl
@[simp] theorem raise_msg (s : State) (k : NoticeKind) (d : List (Nat × List Byte)) :
    (raise s k d).msg = s.msg := rfl
@[simp] theorem raise_ticker (s : State) (k : NoticeKind) (d : List (Nat × List Byte)) :
    (raise s k d).ticker = s.ticker := rfl
@[simp] theorem raise_report (s : State) (k : NoticeKind) (d : List (Nat × List Byte)) :
    (raise s k d).report = { s.report with raised := s.report.raised ++ [.occurrence k (layout 16 d)] } := rfl

@[simp] theorem refreshDue_pending (s : State) (c : RefreshCause) :
    (refreshDue s c).pending = s.pending := rfl
@[simp] theorem refreshDue_gateRun (s : State) (c : RefreshCause) :
    (refreshDue s c).gateRun = s.gateRun := rfl
@[simp] theorem refreshDue_path (s : State) (c : RefreshCause) :
    (refreshDue s c).path = s.path := rfl
@[simp] theorem refreshDue_comp (s : State) (c : RefreshCause) :
    (refreshDue s c).comp = s.comp := rfl
@[simp] theorem refreshDue_rot (s : State) (c : RefreshCause) :
    (refreshDue s c).rot = s.rot := rfl
@[simp] theorem refreshDue_clock (s : State) (c : RefreshCause) :
    (refreshDue s c).clock = s.clock := rfl
@[simp] theorem refreshDue_score (s : State) (c : RefreshCause) :
    (refreshDue s c).score = s.score := rfl
@[simp] theorem refreshDue_replay (s : State) (c : RefreshCause) :
    (refreshDue s c).replay = s.replay := rfl
@[simp] theorem refreshDue_msg (s : State) (c : RefreshCause) :
    (refreshDue s c).msg = s.msg := rfl
@[simp] theorem refreshDue_ticker (s : State) (c : RefreshCause) :
    (refreshDue s c).ticker = s.ticker := rfl
@[simp] theorem refreshDue_report (s : State) (c : RefreshCause) :
    (refreshDue s c).report =
      { s.report with held := heldAfter s.comp.plan.isSome s.report.held c } := rfl

@[simp] theorem issue_pending (s : State) (d : DownTxn) :
    (issue s d).pending = s.pending := rfl
@[simp] theorem issue_gateRun (s : State) (d : DownTxn) :
    (issue s d).gateRun = s.gateRun := rfl
@[simp] theorem issue_path (s : State) (d : DownTxn) :
    (issue s d).path = { s.path with issued := s.path.issued ++ [d] } := rfl
@[simp] theorem issue_comp (s : State) (d : DownTxn) :
    (issue s d).comp = s.comp := rfl
@[simp] theorem issue_rot (s : State) (d : DownTxn) :
    (issue s d).rot = s.rot := rfl
@[simp] theorem issue_clock (s : State) (d : DownTxn) :
    (issue s d).clock = s.clock := rfl
@[simp] theorem issue_score (s : State) (d : DownTxn) :
    (issue s d).score = s.score := rfl
@[simp] theorem issue_replay (s : State) (d : DownTxn) :
    (issue s d).replay = s.replay := rfl
@[simp] theorem issue_msg (s : State) (d : DownTxn) :
    (issue s d).msg = s.msg := rfl
@[simp] theorem issue_ticker (s : State) (d : DownTxn) :
    (issue s d).ticker = s.ticker := rfl
@[simp] theorem issue_report (s : State) (d : DownTxn) :
    (issue s d).report = s.report := rfl

@[simp] theorem setOutcomeRow_pending (s : State) (w : ReqWord) (f : OutcomeRow → OutcomeRow) :
    (setOutcomeRow s w f).pending = s.pending := rfl
@[simp] theorem setOutcomeRow_gateRun (s : State) (w : ReqWord) (f : OutcomeRow → OutcomeRow) :
    (setOutcomeRow s w f).gateRun = s.gateRun := rfl
@[simp] theorem setOutcomeRow_path (s : State) (w : ReqWord) (f : OutcomeRow → OutcomeRow) :
    (setOutcomeRow s w f).path = s.path := rfl
@[simp] theorem setOutcomeRow_comp (s : State) (w : ReqWord) (f : OutcomeRow → OutcomeRow) :
    (setOutcomeRow s w f).comp = s.comp := rfl
@[simp] theorem setOutcomeRow_rot (s : State) (w : ReqWord) (f : OutcomeRow → OutcomeRow) :
    (setOutcomeRow s w f).rot = s.rot := rfl
@[simp] theorem setOutcomeRow_clock (s : State) (w : ReqWord) (f : OutcomeRow → OutcomeRow) :
    (setOutcomeRow s w f).clock = s.clock := rfl
@[simp] theorem setOutcomeRow_score (s : State) (w : ReqWord) (f : OutcomeRow → OutcomeRow) :
    (setOutcomeRow s w f).score = s.score := rfl
@[simp] theorem setOutcomeRow_replay (s : State) (w : ReqWord) (f : OutcomeRow → OutcomeRow) :
    (setOutcomeRow s w f).replay = s.replay := rfl
@[simp] theorem setOutcomeRow_msg (s : State) (w : ReqWord) (f : OutcomeRow → OutcomeRow) :
    (setOutcomeRow s w f).msg = s.msg := rfl
@[simp] theorem setOutcomeRow_ticker (s : State) (w : ReqWord) (f : OutcomeRow → OutcomeRow) :
    (setOutcomeRow s w f).ticker = s.ticker := rfl
@[simp] theorem setOutcomeRow_report (s : State) (w : ReqWord) (f : OutcomeRow → OutcomeRow) :
    (setOutcomeRow s w f).report = { s.report with outcomes := s.report.outcomes.modify w.code f } := rfl

@[simp] theorem mergeCapture_pending (s : State) (b : List (Nat × Byte)) :
    (mergeCapture s b).pending = s.pending := rfl
@[simp] theorem mergeCapture_gateRun (s : State) (b : List (Nat × Byte)) :
    (mergeCapture s b).gateRun = s.gateRun := rfl
@[simp] theorem mergeCapture_path (s : State) (b : List (Nat × Byte)) :
    (mergeCapture s b).path = { s.path with shadow := writeAll s.path.shadow b } := rfl
@[simp] theorem mergeCapture_comp (s : State) (b : List (Nat × Byte)) :
    (mergeCapture s b).comp = s.comp := rfl
@[simp] theorem mergeCapture_rot (s : State) (b : List (Nat × Byte)) :
    (mergeCapture s b).rot = s.rot := rfl
@[simp] theorem mergeCapture_clock (s : State) (b : List (Nat × Byte)) :
    (mergeCapture s b).clock = s.clock := rfl
@[simp] theorem mergeCapture_score (s : State) (b : List (Nat × Byte)) :
    (mergeCapture s b).score = s.score := rfl
@[simp] theorem mergeCapture_replay (s : State) (b : List (Nat × Byte)) :
    (mergeCapture s b).replay = s.replay := rfl
@[simp] theorem mergeCapture_msg (s : State) (b : List (Nat × Byte)) :
    (mergeCapture s b).msg = s.msg := rfl
@[simp] theorem mergeCapture_ticker (s : State) (b : List (Nat × Byte)) :
    (mergeCapture s b).ticker = s.ticker := rfl
@[simp] theorem mergeCapture_report (s : State) (b : List (Nat × Byte)) :
    (mergeCapture s b).report = s.report := rfl

@[simp] theorem enterOrder_pending (s : State) (id : BitVec 8) (dir : Dir) (k : EntryKind) (n m : Nat) (a : Option UpResp) :
    (enterOrder s id dir k n m a).pending = s.pending := rfl
@[simp] theorem enterOrder_gateRun (s : State) (id : BitVec 8) (dir : Dir) (k : EntryKind) (n m : Nat) (a : Option UpResp) :
    (enterOrder s id dir k n m a).gateRun = s.gateRun := rfl
@[simp] theorem enterOrder_path (s : State) (id : BitVec 8) (dir : Dir) (k : EntryKind) (n m : Nat) (a : Option UpResp) :
    (enterOrder s id dir k n m a).path = { s.path with
      order := s.path.order ++
        [{ key := s.path.nextKey, id := id, dir := dir, kind := k, bytes := n, beats := m, answer := a }],
      nextKey := s.path.nextKey + 1 } := rfl
@[simp] theorem enterOrder_comp (s : State) (id : BitVec 8) (dir : Dir) (k : EntryKind) (n m : Nat) (a : Option UpResp) :
    (enterOrder s id dir k n m a).comp = s.comp := rfl
@[simp] theorem enterOrder_rot (s : State) (id : BitVec 8) (dir : Dir) (k : EntryKind) (n m : Nat) (a : Option UpResp) :
    (enterOrder s id dir k n m a).rot = s.rot := rfl
@[simp] theorem enterOrder_clock (s : State) (id : BitVec 8) (dir : Dir) (k : EntryKind) (n m : Nat) (a : Option UpResp) :
    (enterOrder s id dir k n m a).clock = s.clock := rfl
@[simp] theorem enterOrder_score (s : State) (id : BitVec 8) (dir : Dir) (k : EntryKind) (n m : Nat) (a : Option UpResp) :
    (enterOrder s id dir k n m a).score = s.score := rfl
@[simp] theorem enterOrder_replay (s : State) (id : BitVec 8) (dir : Dir) (k : EntryKind) (n m : Nat) (a : Option UpResp) :
    (enterOrder s id dir k n m a).replay = s.replay := rfl
@[simp] theorem enterOrder_msg (s : State) (id : BitVec 8) (dir : Dir) (k : EntryKind) (n m : Nat) (a : Option UpResp) :
    (enterOrder s id dir k n m a).msg = s.msg := rfl
@[simp] theorem enterOrder_ticker (s : State) (id : BitVec 8) (dir : Dir) (k : EntryKind) (n m : Nat) (a : Option UpResp) :
    (enterOrder s id dir k n m a).ticker = s.ticker := rfl
@[simp] theorem enterOrder_report (s : State) (id : BitVec 8) (dir : Dir) (k : EntryKind) (n m : Nat) (a : Option UpResp) :
    (enterOrder s id dir k n m a).report = s.report := rfl

@[simp] theorem returnResponses_pending (s : State) :
    (returnResponses s).pending = s.pending := rfl
@[simp] theorem returnResponses_gateRun (s : State) :
    (returnResponses s).gateRun = s.gateRun := rfl
@[simp] theorem returnResponses_path (s : State) :
    (returnResponses s).path = { s.path with
      order := (drain [] s.path.order).1,
      returned := s.path.returned ++ (drain [] s.path.order).2 } := rfl
@[simp] theorem returnResponses_comp (s : State) :
    (returnResponses s).comp = s.comp := rfl
@[simp] theorem returnResponses_rot (s : State) :
    (returnResponses s).rot = s.rot := rfl
@[simp] theorem returnResponses_clock (s : State) :
    (returnResponses s).clock = s.clock := rfl
@[simp] theorem returnResponses_score (s : State) :
    (returnResponses s).score = s.score := rfl
@[simp] theorem returnResponses_replay (s : State) :
    (returnResponses s).replay = s.replay := rfl
@[simp] theorem returnResponses_msg (s : State) :
    (returnResponses s).msg = s.msg := rfl
@[simp] theorem returnResponses_ticker (s : State) :
    (returnResponses s).ticker = s.ticker := rfl
@[simp] theorem returnResponses_report (s : State) :
    (returnResponses s).report = s.report := rfl

@[simp] theorem modifyEntry_pending (s : State) (k : Nat) (f : Entry → Entry) :
    (modifyEntry s k f).pending = s.pending := rfl
@[simp] theorem modifyEntry_gateRun (s : State) (k : Nat) (f : Entry → Entry) :
    (modifyEntry s k f).gateRun = s.gateRun := rfl
@[simp] theorem modifyEntry_path (s : State) (k : Nat) (f : Entry → Entry) :
    (modifyEntry s k f).path = { s.path with
      order := s.path.order.map fun e => if e.key = k then f e else e } := rfl
@[simp] theorem modifyEntry_comp (s : State) (k : Nat) (f : Entry → Entry) :
    (modifyEntry s k f).comp = s.comp := rfl
@[simp] theorem modifyEntry_rot (s : State) (k : Nat) (f : Entry → Entry) :
    (modifyEntry s k f).rot = s.rot := rfl
@[simp] theorem modifyEntry_clock (s : State) (k : Nat) (f : Entry → Entry) :
    (modifyEntry s k f).clock = s.clock := rfl
@[simp] theorem modifyEntry_score (s : State) (k : Nat) (f : Entry → Entry) :
    (modifyEntry s k f).score = s.score := rfl
@[simp] theorem modifyEntry_replay (s : State) (k : Nat) (f : Entry → Entry) :
    (modifyEntry s k f).replay = s.replay := rfl
@[simp] theorem modifyEntry_msg (s : State) (k : Nat) (f : Entry → Entry) :
    (modifyEntry s k f).msg = s.msg := rfl
@[simp] theorem modifyEntry_ticker (s : State) (k : Nat) (f : Entry → Entry) :
    (modifyEntry s k f).ticker = s.ticker := rfl
@[simp] theorem modifyEntry_report (s : State) (k : Nat) (f : Entry → Entry) :
    (modifyEntry s k f).report = s.report := rfl

@[simp] theorem discard_pending (s : State) (x : Stale) :
    (discard s x).pending = s.pending := rfl
@[simp] theorem discard_gateRun (s : State) (x : Stale) :
    (discard s x).gateRun = s.gateRun := rfl
@[simp] theorem discard_path (s : State) (x : Stale) :
    (discard s x).path = { s.path with stale := s.path.stale.erase x } := rfl
@[simp] theorem discard_comp (s : State) (x : Stale) :
    (discard s x).comp = s.comp := rfl
@[simp] theorem discard_rot (s : State) (x : Stale) :
    (discard s x).rot = s.rot := rfl
@[simp] theorem discard_clock (s : State) (x : Stale) :
    (discard s x).clock = s.clock := rfl
@[simp] theorem discard_score (s : State) (x : Stale) :
    (discard s x).score = s.score := rfl
@[simp] theorem discard_replay (s : State) (x : Stale) :
    (discard s x).replay = s.replay := rfl
@[simp] theorem discard_msg (s : State) (x : Stale) :
    (discard s x).msg = s.msg := rfl
@[simp] theorem discard_ticker (s : State) (x : Stale) :
    (discard s x).ticker = s.ticker := rfl
@[simp] theorem discard_report (s : State) (x : Stale) :
    (discard s x).report = s.report := rfl

@[simp] theorem giveAnswer_pending (s : State) (k : Nat) (r : UpResp) :
    (giveAnswer s k r).pending = s.pending := rfl
@[simp] theorem giveAnswer_gateRun (s : State) (k : Nat) (r : UpResp) :
    (giveAnswer s k r).gateRun = s.gateRun := rfl
@[simp] theorem giveAnswer_path (s : State) (k : Nat) (r : UpResp) :
    (giveAnswer s k r).path = (returnResponses (modifyEntry s k fun e => { e with answer := some r })).path := rfl
@[simp] theorem giveAnswer_comp (s : State) (k : Nat) (r : UpResp) :
    (giveAnswer s k r).comp = s.comp := rfl
@[simp] theorem giveAnswer_rot (s : State) (k : Nat) (r : UpResp) :
    (giveAnswer s k r).rot = s.rot := rfl
@[simp] theorem giveAnswer_clock (s : State) (k : Nat) (r : UpResp) :
    (giveAnswer s k r).clock = s.clock := rfl
@[simp] theorem giveAnswer_score (s : State) (k : Nat) (r : UpResp) :
    (giveAnswer s k r).score = s.score := rfl
@[simp] theorem giveAnswer_replay (s : State) (k : Nat) (r : UpResp) :
    (giveAnswer s k r).replay = s.replay := rfl
@[simp] theorem giveAnswer_msg (s : State) (k : Nat) (r : UpResp) :
    (giveAnswer s k r).msg = s.msg := rfl
@[simp] theorem giveAnswer_ticker (s : State) (k : Nat) (r : UpResp) :
    (giveAnswer s k r).ticker = s.ticker := rfl
@[simp] theorem giveAnswer_report (s : State) (k : Nat) (r : UpResp) :
    (giveAnswer s k r).report = s.report := rfl

end Sys2Proof.Machine
end

