-- ==== Sys2Proof/Laws/Settle.lean ====
section
/-! SUPPORT. What the end of a command does and what it leaves as it was. -/

namespace Sys2Proof.Machine

@[simp] theorem aside_writeNotice (s : State) (i : Nat) : aside (writeNotice s i) = aside s := rfl

@[simp] theorem aside_takeOccurrence (s : State) (k : NoticeKind) (d : List Byte) :
    aside (takeOccurrence s k d) = aside s := by
  unfold takeOccurrence
  split <;> rfl

@[simp] theorem aside_takeReport (s : State) (r : Report) : aside (takeReport s r) = aside s := by
  cases r with
  | occurrence k d => exact aside_takeOccurrence s k d
  | consume v => rfl

theorem aside_foldl_takeReport (l : List Report) (s : State) :
    aside (l.foldl takeReport s) = aside s := by
  induction l generalizing s with
  | nil => rfl
  | cons r l ih => rw [List.foldl_cons, ih, aside_takeReport]

@[simp] theorem aside_takeRaised (s : State) : aside (takeRaised s) = aside s := by
  rw [takeRaised, aside_foldl_takeReport]
  rfl

@[simp] theorem aside_refreshStart (s : State) : aside (refreshStart s) = aside s := by
  unfold refreshStart
  split <;> rfl

/-- The end of a command touches the notice ring, the refresh and the downstream record only. -/
@[simp] theorem aside_settle (s : State) : aside (settle s) = aside s := by simp [settle]

@[simp] theorem aside_raise (s : State) (k : NoticeKind) (d : List (Nat × List Byte)) :
    aside (raise s k d) = aside s := rfl

@[simp] theorem aside_refreshDue (s : State) (c : RefreshCause) : aside (refreshDue s c) = aside s :=
  rfl

section
variable {s t : State} (h : aside s = aside t)
include h

theorem pending_of_aside : s.pending = t.pending := congrArg (fun x => x.pending) h
theorem gateRun_of_aside : s.gateRun = t.gateRun := congrArg (fun x => x.gateRun) h
theorem comp_of_aside : s.comp = t.comp := congrArg (fun x => x.comp) h
theorem rot_of_aside : s.rot = t.rot := congrArg (fun x => x.rot) h
theorem clock_of_aside : s.clock = t.clock := congrArg (fun x => x.clock) h
theorem score_of_aside : s.score = t.score := congrArg (fun x => x.score) h
theorem replay_of_aside : s.replay = t.replay := congrArg (fun x => x.replay) h
theorem msg_of_aside : s.msg = t.msg := congrArg (fun x => x.msg) h
theorem ticker_of_aside : s.ticker = t.ticker := congrArg (fun x => x.ticker) h
theorem shadow_of_aside : s.path.shadow = t.path.shadow := congrArg (fun x => x.path.shadow) h
theorem geom_of_aside : s.path.geom = t.path.geom := congrArg (fun x => x.path.geom) h
theorem tbase_of_aside : s.path.tbase = t.path.tbase := congrArg (fun x => x.path.tbase) h
theorem order_of_aside : s.path.order = t.path.order := congrArg (fun x => x.path.order) h
theorem returned_of_aside : s.path.returned = t.path.returned :=
  congrArg (fun x => x.path.returned) h
theorem mode_of_aside : s.report.mode = t.report.mode := congrArg (fun x => x.report.mode) h
theorem pendingMode_of_aside : s.report.pendingMode = t.report.pendingMode :=
  congrArg (fun x => x.report.pendingMode) h
theorem outcomes_of_aside : s.report.outcomes = t.report.outcomes :=
  congrArg (fun x => x.report.outcomes) h

end

@[simp] theorem settle_pending (s : State) : (settle s).pending = s.pending :=
  pending_of_aside (aside_settle s)
@[simp] theorem settle_gateRun (s : State) : (settle s).gateRun = s.gateRun :=
  gateRun_of_aside (aside_settle s)
@[simp] theorem settle_comp (s : State) : (settle s).comp = s.comp := comp_of_aside (aside_settle s)
@[simp] theorem settle_rot (s : State) : (settle s).rot = s.rot := rot_of_aside (aside_settle s)
@[simp] theorem settle_clock (s : State) : (settle s).clock = s.clock :=
  clock_of_aside (aside_settle s)
@[simp] theorem settle_score (s : State) : (settle s).score = s.score :=
  score_of_aside (aside_settle s)
@[simp] theorem settle_replay (s : State) : (settle s).replay = s.replay :=
  replay_of_aside (aside_settle s)
@[simp] theorem settle_msg (s : State) : (settle s).msg = s.msg := msg_of_aside (aside_settle s)
@[simp] theorem settle_ticker (s : State) : (settle s).ticker = s.ticker :=
  ticker_of_aside (aside_settle s)
@[simp] theorem settle_shadow (s : State) : (settle s).path.shadow = s.path.shadow :=
  shadow_of_aside (aside_settle s)
@[simp] theorem settle_geom (s : State) : (settle s).path.geom = s.path.geom :=
  geom_of_aside (aside_settle s)
@[simp] theorem settle_tbase (s : State) : (settle s).path.tbase = s.path.tbase :=
  tbase_of_aside (aside_settle s)
@[simp] theorem settle_mode (s : State) : (settle s).report.mode = s.report.mode :=
  mode_of_aside (aside_settle s)

/-! ### Quiet states -/

/-- Whether a state is quiet depends on its report unit alone. -/
theorem Quiet.of_report {s t : State} (h : Quiet s) (e : t.report = s.report) : Quiet t := by
  unfold Quiet at h ⊢
  rw [e]
  exact h

theorem takeRaised_of_none (s : State) (h : s.report.raised = []) : takeRaised s = s := by
  obtain ⟨pe, ga, pa, co, ro, cl, sc, re, ms, ti, rp⟩ := s
  obtain ⟨a, b, c, d, e, f, g, p, q, raised, w⟩ := rp
  simp only at h
  subst h
  rfl

theorem refreshStart_of_quiet (s : State)
    (h : s.report.held = none ∨ s.report.snapshot.isSome = true) : refreshStart s = s := by
  unfold refreshStart
  split
  · next cause h1 h2 => rcases h with h | h <;> simp_all
  · rfl

/-- A command that raised nothing and made no refresh start ends as it stands. -/
theorem settle_of_quiet (s : State) (h : Quiet s) : settle s = s := by
  rw [settle, takeRaised_of_none s h.1, refreshStart_of_quiet s h.2]

theorem takeReport_raised (s : State) (r : Report) :
    (takeReport s r).report.raised = s.report.raised := by
  cases r with
  | occurrence k d => simp only [takeReport, takeOccurrence]; split <;> rfl
  | consume v => rfl

theorem foldl_takeReport_raised (l : List Report) (s : State) :
    (l.foldl takeReport s).report.raised = s.report.raised := by
  induction l generalizing s with
  | nil => rfl
  | cons r l ih => rw [List.foldl_cons, ih, takeReport_raised]

@[simp] theorem takeRaised_raised (s : State) : (takeRaised s).report.raised = [] := by
  rw [takeRaised, foldl_takeReport_raised]
  rfl

/-- Every command that ends by settling leaves a quiet state. -/
theorem quiet_settle (s : State) : Quiet (settle s) := by
  unfold settle refreshStart
  split
  · exact ⟨takeRaised_raised s, .inl rfl⟩
  · next h =>
    refine ⟨takeRaised_raised s, ?_⟩
    cases h1 : (takeRaised s).report.snapshot with
    | some x => exact .inr rfl
    | none =>
      cases h2 : (takeRaised s).report.held with
      | none => exact .inl rfl
      | some c => exact absurd h2 (h c h1)

/-- One occurrence on a quiet state is taken at the end of the command. -/
theorem settle_raise (s : State) (h : Quiet s) (k : NoticeKind) (d : List (Nat × List Byte)) :
    settle (raise s k d) = refreshStart (takeOccurrence s k (layout 16 d)) := by
  obtain ⟨pe, ga, pa, co, ro, cl, sc, re, ms, ti, rp⟩ := s
  obtain ⟨a, b, c, d, e, f, g, p, q, raised, w⟩ := rp
  obtain ⟨h1, h2⟩ := h
  simp only at h1
  subst h1
  rfl

theorem takeOccurrence_held (s : State) (k : NoticeKind) (d : List Byte) :
    (takeOccurrence s k d).report.held = s.report.held := by
  unfold takeOccurrence
  split <;> rfl

theorem takeOccurrence_snapshot (s : State) (k : NoticeKind) (d : List Byte) :
    (takeOccurrence s k d).report.snapshot = s.report.snapshot := by
  unfold takeOccurrence
  split <;> rfl

/-- One occurrence on a quiet state is all the command ends with. -/
theorem settle_raise_quiet (s : State) (h : Quiet s) (k : NoticeKind)
    (d : List (Nat × List Byte)) : settle (raise s k d) = takeOccurrence s k (layout 16 d) := by
  rw [settle_raise s h, refreshStart_of_quiet]
  rw [takeOccurrence_held, takeOccurrence_snapshot]
  exact h.2

end Sys2Proof.Machine
end

