-- ==== Sys2Proof/Laws/Request.lean ====
section
/-! SUPPORT. A whole-word write takes exactly one request, made from its 16 bytes. -/

namespace Sys2Proof.Machine

theorem leNat_leBytes (n v : Nat) : leNat (leBytes n v) = v % 256 ^ n := by
  induction n generalizing v with
  | zero => simp [leBytes, leNat, Nat.mod_one]
  | succ n ih =>
    rw [leBytes, leNat, ih, BitVec.toNat_ofNat, Nat.pow_succ 256 n, Nat.mul_comm (256 ^ n) 256,
      Nat.mod_mul]

@[simp] theorem leBytes_length (n v : Nat) : (leBytes n v).length = n := by
  induction n generalizing v with
  | zero => rfl
  | succ n ih => simp [leBytes, ih]

@[simp] theorem padTo_length (n : Nat) (l : List Byte) : (padTo n l).length = n := by
  simp [padTo]
  omega

theorem wordBytes_length (code : Byte) (params : List Byte) (tag : Byte) :
    (wordBytes code params tag).length = 16 := by
  simp [wordBytes]

theorem wordOffset_mod (w : ReqWord) : wordOffset w % 16 = 0 := by cases w <;> rfl

theorem exists_sixteen {α : Type} (l : List α) (h : l.length = 16) :
    ∃ a b c d e f g i j k m n p q r t, l = [a, b, c, d, e, f, g, i, j, k, m, n, p, q, r, t] := by
  match l, h with
  | [a, b, c, d, e, f, g, i, j, k, m, n, p, q, r, t], _ =>
    exact ⟨a, b, c, d, e, f, g, i, j, k, m, n, p, q, r, t, rfl⟩

/-- The enabled bytes of one full beat at an aligned address. -/
theorem writeBytes_word (s : State) (id : BitVec 8) (w : ReqWord) (bytes : List Byte)
    (h : bytes.length = 16) :
    writeBytes (wordWrite s id w bytes) = (List.range' (tableBase s + wordOffset w) 16).zip bytes := by
  have hm : (tableBase s + wordOffset w) % 16 = 0 := by
    have := wordOffset_mod w
    simp only [tableBase]
    omega
  obtain ⟨k, hk⟩ : ∃ k, tableBase s + wordOffset w = 16 * k := ⟨_, (Nat.mul_div_cancel'
    (Nat.dvd_of_mod_eq_zero hm)).symm⟩
  obtain ⟨a, b, c, d, e, f, g, i, j, l, m, n, p, q, r, t, rfl⟩ := exists_sixteen bytes h
  have hb : beatBytes (16 * k) 4 .incr 1 0 = List.range' (16 * k) 16 := by
    have : 16 * k / 2 ^ 4 * 2 ^ 4 + 2 ^ 4 - 16 * k = 16 := by omega
    simp only [beatBytes, beatAddr, if_true, this]
  simp only [writeBytes, wordWrite, hk, List.length_singleton, enabledFrom, hb, beatEnabled,
    List.append_nil]
  have e0 : ∀ x, x < 16 → (16 * k + x) % 16 = x := by intro x hx; omega
  simp [List.range', Nat.add_assoc, e0, Nat.mul_mod_right]

theorem capturedOffset_word (w : ReqWord) (i : Nat) (h : i < 16) :
    capturedOffset (wordOffset w + i) = true := by
  have : 0x1000 ≤ wordOffset w + i ∧ wordOffset w + i < 0x1080 := by
    cases w <;> simp [wordOffset, ReqWord.code] <;> omega
  simp [capturedOffset, inRange]
  omega

/-- What a whole-word write captures. -/
theorem captureBytes_word (s : State) (id : BitVec 8) (w : ReqWord) (bytes : List Byte)
    (h : bytes.length = 16) : captureBytes s (wordWrite s id w bytes) = wordCells w bytes := by
  rw [captureBytes, writeBytes_word s id w bytes h, wordCells]
  obtain ⟨a, b, c, d, e, f, g, i, j, l, m, n, p, q, r, t, rfl⟩ := exists_sixteen bytes h
  have e1 : ∀ x, x < 16 → inCaptured s (tableBase s + wordOffset w + x) = true := by
    intro x hx
    have := capturedOffset_word w x hx
    simp [inCaptured, Nat.add_assoc, this]
  have e0 := e1 0 (by omega)
  have e2 : ∀ x, tableBase s + wordOffset w + x - tableBase s = wordOffset w + x := by
    intro x; omega
  have e3 := e2 0
  simp only [Nat.add_zero] at e0 e3
  simp [List.range', e0, e3, Nat.add_assoc]
  simp only [← Nat.add_assoc]
  simp [e1, e2]

/-- A word's bytes reach no range that lies outside the word. -/
theorem reaches_word (w : ReqWord) (bytes : List Byte) (off n : Nat) (h : bytes.length = 16)
    (ho : off + n ≤ wordOffset w ∨ wordOffset w + 16 ≤ off) :
    reaches (wordCells w bytes) off n = false := by
  rw [reaches, List.any_eq_false]
  intro x hx
  have : x.1 ∈ (wordCells w bytes).map Prod.fst := List.mem_map_of_mem hx
  rw [wordCells, List.map_fst_zip (by simp [h]), List.mem_range'] at this
  simp only [inRange, Bool.and_eq_true, decide_eq_true_eq, not_and]
  omega

theorem reaches_word_last (w : ReqWord) (bytes : List Byte) (h : bytes.length = 16) :
    reaches (wordCells w bytes) (wordOffset w + 15) 1 = true := by
  obtain ⟨a, b, c, d, e, f, g, i, j, l, m, n, p, q, r, u, rfl⟩ := exists_sixteen bytes h
  cases w <;> rfl

theorem wordOffset_bounds (w : ReqWord) : 0x1000 ≤ wordOffset w ∧ wordOffset w ≤ 0x1050 := by
  cases w <;> simp [wordOffset, ReqWord.code]

theorem reachesGeometry_word (w : ReqWord) (bytes : List Byte) (h : bytes.length = 16) :
    reachesGeometry (wordCells w bytes) = false := by
  rw [reachesGeometry, List.any_eq_false]
  intro f hf
  have hb := wordOffset_bounds w
  have : f.off + f.width ≤ 0x1000 := by
    revert f
    decide
  rw [reaches_word w bytes f.off f.width h (.inl (by omega))]
  simp

theorem reachedEntries_word (w : ReqWord) (bytes : List Byte) (h : bytes.length = 16) :
    reachedEntries (wordCells w bytes) = [] := by
  rw [reachedEntries, List.filter_eq_nil_iff]
  intro i _
  have hb := wordOffset_bounds w
  rw [reaches_word w bytes (sponsorOffset i) 256 h (.inr (by simp only [sponsorOffset]; omega))]
  simp

theorem completedWords_word (w : ReqWord) (bytes : List Byte) (h : bytes.length = 16) :
    completedWords (wordCells w bytes) = [w] := by
  have ho : ∀ v, v ≠ w → reaches (wordCells w bytes) (wordOffset v + 15) 1 = false := by
    intro v hv
    refine reaches_word w bytes _ _ h ?_
    cases v <;> cases w <;> simp_all [wordOffset, ReqWord.code]
  have hl := reaches_word_last w bytes h
  cases w <;> simp [completedWords, hl, ho]

/-- What every request and every settling keeps, the requests of a capture keep. -/
theorem takeRequests_keeps {P : State → Prop} (request : ∀ w s, P s → P (takeRequest s w))
    (settles : ∀ s, P s → P (settle s)) (ws : List ReqWord) (s : State) (h : P s) :
    P (takeRequests ws s) := by
  induction ws generalizing s with
  | nil => exact h
  | cons w ws ih =>
    cases ws with
    | nil => exact request w s h
    | cons w' ws => exact ih _ (settles _ (request w s h))

/-- Capturing a whole request word takes its request and nothing else. -/
theorem capture_word (s : State) (id : BitVec 8) (w : ReqWord) (bytes : List Byte)
    (h : bytes.length = 16) :
    capture (forwardWrite s (wordWrite s id w bytes)) (wordWrite s id w bytes) =
      takeRequest (wordTaken s id w bytes) w := by
  have hc : captureBytes (forwardWrite s (wordWrite s id w bytes)) (wordWrite s id w bytes) =
      wordCells w bytes := captureBytes_word s id w bytes h
  have hb := wordOffset_bounds w
  simp only [capture, hc, configReactions, recordReactions, wordReactions,
    reachesGeometry_word w bytes h, reachedEntries_word w bytes h, completedWords_word w bytes h,
    reaches_word w bytes 0x240 32 h (.inl (by omega)),
    reaches_word w bytes 0x2020 32 h (.inr (by omega)),
    reaches_word w bytes 0x2000 32 h (.inr (by omega)),
    reaches_word w bytes 0x1060 2 h (.inr (by omega)),
    reaches_word w bytes 0x1070 2 h (.inr (by omega)), reacting, List.foldl_nil,
    Bool.false_eq_true, if_false]
  rfl

/-- The arrival of a whole request word. -/
theorem arriveWrite_word (s : State) (id : BitVec 8) (w : ReqWord) (bytes : List Byte)
    (h : bytes.length = 16) (hc : WordCaptured s id w) :
    arriveWrite s (wordWrite s id w bytes) = some (takeRequest (wordTaken s id w bytes) w) := by
  simp only [arriveWrite, hc bytes h, capture_word s id w bytes h]

theorem wordCells_nodup (w : ReqWord) (bytes : List Byte) (h : bytes.length = 16) :
    ((wordCells w bytes).map Prod.fst).Nodup := by
  rw [wordCells, List.map_fst_zip (by simp [h])]
  exact List.nodup_range'

/-- The word taken is the word written. -/
theorem readWord_taken (s : State) (id : BitVec 8) (w : ReqWord) (bytes : List Byte)
    (h : bytes.length = 16) (hm : Memory.wf s.path.shadow = true) :
    readWord (wordTaken s id w bytes) w = { bytes := bytes } := by
  have hr : ∀ x ∈ wordCells w bytes, readByte (wordTaken s id w bytes).path.shadow x.1 = x.2 :=
    fun x hx => readByte_writeAll_mem (wordCells w bytes) s.path.shadow hm
      (wordCells_nodup w bytes h) x hx
  generalize wordTaken s id w bytes = t at hr
  obtain ⟨a, b, c, d, e, f, g, i, j, l, m, n, p, q, r, u, rfl⟩ := exists_sixteen bytes h
  simp only [wordCells, List.range', List.zip_cons_cons, List.zip_nil_left, List.forall_mem_cons]
    at hr
  simp [readWord, List.range, List.range.loop]
  simp_all [Nat.add_assoc]

/-- Taking a whole request word: the owner's answer is recorded under the word's tag and code. -/
theorem takeRequest_word (s : State) (id : BitVec 8) (w : ReqWord) (bytes : List Byte)
    (h : bytes.length = 16) (hm : Memory.wf s.path.shadow = true) :
    takeRequest (wordTaken s id w bytes) w =
      recordOutcome (answerRequest (wordTaken s id w bytes) w { bytes := bytes }).1 w
        (bytes.getD 15 0) (bytes.getD 0 0).toNat
        (answerRequest (wordTaken s id w bytes) w { bytes := bytes }).2 := by
  rw [takeRequest]
  simp only [readWord_taken s id w bytes h hm]
  obtain ⟨a, b, c, d, e, f, g, i, j, l, m, n, p, q, r, u, rfl⟩ := exists_sixteen bytes h
  simp [RequestWord.tag, RequestWord.code, RequestWord.num, leNat]

/-- A request command: the owner's answer to the word it writes, recorded, then settled. -/
theorem asking_eq (s : State) (id : BitVec 8) (w : ReqWord) (code : Byte) (params : List Byte)
    (tag : Byte) (hc : WordCaptured s id w) (hm : Memory.wf s.path.shadow = true) :
    asking id w code params tag s =
      .next (settle (recordOutcome
        (answerRequest (wordTaken s id w (wordBytes code params tag)) w
          { bytes := wordBytes code params tag }).1 w tag code.toNat
        (answerRequest (wordTaken s id w (wordBytes code params tag)) w
          { bytes := wordBytes code params tag }).2)) := by
  have hl := wordBytes_length code params tag
  have hp := padTo_length 13 params
  rw [asking, arriveWrite_word s id w _ hl hc, takeRequest_word s id w _ hl hm]
  have h0 : (wordBytes code params tag).getD 0 0 = code := rfl
  have h15 : (wordBytes code params tag).getD 15 0 = tag := by
    simp [wordBytes, hp]
  rw [h0, h15]
  rfl

/-- Forwarding and merging a word leaves a quiet state quiet. -/
theorem quiet_wordTaken (s : State) (id : BitVec 8) (w : ReqWord) (bytes : List Byte) (h : Quiet s) :
    Quiet (wordTaken s id w bytes) := h

/-- The merged shadow is canonical. -/
theorem wordTaken_wf (s : State) (id : BitVec 8) (w : ReqWord) (bytes : List Byte)
    (h : Memory.wf s.path.shadow = true) : Memory.wf (wordTaken s id w bytes).path.shadow = true :=
  writeAll_wf _ _ h

/-- The merge leaves every byte outside the word. -/
theorem readByte_wordTaken (s : State) (id : BitVec 8) (w : ReqWord) (bytes : List Byte) (a : Nat)
    (h : Memory.wf s.path.shadow = true) (hl : bytes.length = 16)
    (ha : a < wordOffset w ∨ wordOffset w + 16 ≤ a) :
    readByte (wordTaken s id w bytes).path.shadow a = readByte s.path.shadow a := by
  refine readByte_writeAll_other (wordCells w bytes) s.path.shadow a h fun x hx => ?_
  have : x.1 ∈ (wordCells w bytes).map Prod.fst := List.mem_map_of_mem hx
  rw [wordCells, List.map_fst_zip (by simp [hl]), List.mem_range'] at this
  omega

/-! ### When the write of a word is captured -/

theorem mem_word (s : State) (id : BitVec 8) (w : ReqWord) (bytes : List Byte)
    (h : bytes.length = 16) (b : Nat × Byte) (hb : b ∈ writeBytes (wordWrite s id w bytes)) :
    tableBase s + wordOffset w ≤ b.1 ∧ b.1 < tableBase s + wordOffset w + 16 := by
  rw [writeBytes_word s id w bytes h] at hb
  have : b.1 ∈ ((List.range' (tableBase s + wordOffset w) 16).zip bytes).map Prod.fst :=
    List.mem_map_of_mem hb
  rw [List.map_fst_zip (by simp [h]), List.mem_range'] at this
  omega

/-- The write of a word is captured when no locked sector holds a byte of it and it is no ingest
write. -/
theorem wordCaptured_of (s : State) (id : BitVec 8) (w : ReqWord)
    (hl : ∀ j ∈ s.comp.lock, ∀ a, tableBase s + wordOffset w ≤ a →
      a < tableBase s + wordOffset w + 16 → inSector s.path.geom j a = false)
    (hi : s.report.mode = .pass ∨ masterTag id ≠ s.path.geom.ingestTag) : WordCaptured s id w := by
  intro bytes h
  have hm := mem_word s id w bytes h
  have h1 : lockedSector s (writeBytes (wordWrite s id w bytes)) = none := by
    rw [lockedSector, List.find?_eq_none]
    intro j hj
    rw [Bool.not_eq_true, List.any_eq_false]
    intro b hb
    rw [hl j hj b.1 (hm b hb).1 (hm b hb).2]
    simp
  have hw := wordOffset_bounds w
  have h2 : (writeBytes (wordWrite s id w bytes)).any (fun b => inPartOwned s b.1) = false := by
    rw [List.any_eq_false]
    intro b hb
    have := hm b hb
    simp only [inPartOwned, inRange, Bool.or_eq_true, Bool.and_eq_true, decide_eq_true_eq]
    simp only [statusBase, noticeBase]
    omega
  have h3 : (writeBytes (wordWrite s id w bytes)).any (fun b => inCaptured s b.1) = true := by
    rw [List.any_eq_true]
    obtain ⟨a, b, c, d, e, f, g, i, j, k, m, n, p, q, r, t, rfl⟩ := exists_sixteen bytes h
    refine ⟨(tableBase s + wordOffset w, a), ?_, ?_⟩
    · rw [writeBytes_word s id w _ h]
      simp [List.range']
    · simp only [inCaptured, Nat.add_sub_cancel_left, Bool.and_eq_true, decide_eq_true_eq]
      exact ⟨by omega, capturedOffset_word w 0 (by omega)⟩
  simp only [classifyWrite, h1, h2, h3, Bool.false_eq_true, if_false, if_true]
  rw [if_neg]
  have hid : (wordWrite s id w bytes).id = id := rfl
  rw [hid]
  rcases hi with hi | hi
  · simp [hi]
  · simp [hi]

/-! ### The state in which a request is taken -/

section
variable (s : State) (id : BitVec 8) (w : ReqWord) (code : Byte) (params : List Byte) (tag : Byte)

@[simp] theorem asked_pending : (asked s id w code params tag).pending = s.pending := by
  unfold asked
  rfl
@[simp] theorem asked_gateRun : (asked s id w code params tag).gateRun = s.gateRun := by
  unfold asked
  rfl
@[simp] theorem asked_comp : (asked s id w code params tag).comp = s.comp := by
  unfold asked
  rfl
@[simp] theorem asked_rot : (asked s id w code params tag).rot = s.rot := by
  unfold asked
  rfl
@[simp] theorem asked_clock : (asked s id w code params tag).clock = s.clock := by
  unfold asked
  rfl
@[simp] theorem asked_score : (asked s id w code params tag).score = s.score := by
  unfold asked
  rfl
@[simp] theorem asked_replay : (asked s id w code params tag).replay = s.replay := by
  unfold asked
  rfl
@[simp] theorem asked_msg : (asked s id w code params tag).msg = s.msg := by
  unfold asked
  rfl
@[simp] theorem asked_ticker : (asked s id w code params tag).ticker = s.ticker := by
  unfold asked
  rfl
@[simp] theorem asked_report : (asked s id w code params tag).report = s.report := by
  unfold asked
  rfl
@[simp] theorem asked_tbase : (asked s id w code params tag).path.tbase = s.path.tbase := by
  unfold asked
  rfl
@[simp] theorem asked_geom : (asked s id w code params tag).path.geom = s.path.geom := by
  unfold asked
  rfl
@[simp] theorem asked_returned : (asked s id w code params tag).path.returned = s.path.returned := by
  unfold asked
  rfl

theorem asked_quiet (h : Quiet s) : Quiet (asked s id w code params tag) :=
  h.of_report (asked_report s id w code params tag)

theorem asked_wf (h : Memory.wf s.path.shadow = true) :
    Memory.wf (asked s id w code params tag).path.shadow = true := by
  unfold asked
  exact wordTaken_wf s id w _ h

/-- The merge of the word leaves every byte outside the word. -/
theorem readByte_asked (a : Nat) (h : Memory.wf s.path.shadow = true)
    (ha : a < wordOffset w ∨ wordOffset w + 16 ≤ a) :
    readByte (asked s id w code params tag).path.shadow a = readByte s.path.shadow a := by
  unfold asked
  exact readByte_wordTaken s id w _ a h (wordBytes_length code params tag) ha

theorem readByte_asked_low (a : Nat) (h : Memory.wf s.path.shadow = true) (ha : a < 0x1000) :
    readByte (asked s id w code params tag).path.shadow a = readByte s.path.shadow a :=
  readByte_asked s id w code params tag a h (.inl (by have := wordOffset_bounds w; omega))

theorem readByte_asked_high (a : Nat) (h : Memory.wf s.path.shadow = true) (ha : 0x1060 ≤ a) :
    readByte (asked s id w code params tag).path.shadow a = readByte s.path.shadow a :=
  readByte_asked s id w code params tag a h (.inr (by have := wordOffset_bounds w; omega))

end

/-! ### How a request command ends -/

/-- The owner's answer, recorded, then settled. -/
theorem asking_answer (s : State) (id : BitVec 8) (w : ReqWord) (code : Byte) (params : List Byte)
    (tag : Byte) (t : State) (v : Verdict) (h : WordReady s id w)
    (ha : answerRequest (asked s id w code params tag) w { bytes := wordBytes code params tag } =
      (t, v)) :
    asking id w code params tag s = .next (settle (recordOutcome t w tag code.toNat v)) := by
  rw [asking_eq s id w code params tag h.2.2 h.2.1]
  rw [asked] at ha
  rw [ha]

/-- A request that is not refused and leaves nothing to settle: its effect, recorded. -/
theorem asking_taken (s : State) (id : BitVec 8) (w : ReqWord) (code : Byte) (params : List Byte)
    (tag : Byte) (t : State) (o : ReqOutcome) (waits : Bool) (v : Verdict)
    (h : WordReady s id w)
    (ha : answerRequest (asked s id w code params tag) w { bytes := wordBytes code params tag } =
      (t, v))
    (hv : v.outcome = o ∧ v.waits = waits) (ho : o.refused = false) (hq : Quiet t) :
    asking id w code params tag s = .next (recorded t w tag o waits) := by
  obtain ⟨rfl, rfl⟩ := hv
  rw [asking_answer s id w code params tag t v h ha]
  simp only [recordOutcome, ho, Bool.false_eq_true, if_false]
  exact congrArg _ (settle_of_quiet _ hq)

/-- A refused request: recorded, REQUEST_REFUSED taken. -/
theorem asking_refused (s : State) (id : BitVec 8) (w : ReqWord) (code : Byte) (params : List Byte)
    (tag : Byte) (o : ReqOutcome) (value offset : Nat) (h : WordReady s id w)
    (ha : answerRequest (asked s id w code params tag) w { bytes := wordBytes code params tag } =
      (asked s id w code params tag,
        { outcome := o, waits := false, value := value, offset := offset }))
    (ho : o.refused = true) :
    asking id w code params tag s =
      .next (refusedWith (asked s id w code params tag) w tag code o value offset) := by
  rw [asking_answer s id w code params tag _ _ h ha]
  simp only [recordOutcome, ho, if_true]
  rw [settle_raise_quiet]
  · have : leBytes 1 code.toNat = [code] := by simp [leBytes]
    rw [this]
    rfl
  · exact asked_quiet s id w code params tag h.1

end Sys2Proof.Machine
end

