-- ==== Sys2Proof/Laws/Answers.lean ====
section
/-! SUPPORT. Which owner's operation answers each request word, with its parameters as the word spells
them. -/

namespace Sys2Proof.Machine

variable (s : State) (tag : Byte)

theorem two_bytes (v : BitVec 16) : v.toNat % 256 + 256 * (v.toNat / 256 % 256) = v.toNat := by
  have := v.isLt
  omega

theorem four_bytes (v : BitVec 32) :
    v.toNat % 256 + 256 * (v.toNat / 256 % 256 + 256 * (v.toNat / 256 / 256 % 256 +
      256 * (v.toNat / 256 / 256 / 256 % 256))) = v.toNat := by
  have := v.isLt
  omega

theorem answer_goLive : answerRequest s .showWord { bytes := wordBytes 1 [] tag } =
    goLiveRequest s tag := rfl
theorem answer_goPass : answerRequest s .showWord { bytes := wordBytes 2 [] tag } =
    goPassRequest s tag := rfl
theorem answer_clearGame : answerRequest s .showWord { bytes := wordBytes 3 [] tag } =
    clearGameRequest s := rfl
theorem answer_clearExposure : answerRequest s .showWord { bytes := wordBytes 4 [] tag } =
    clearExposureRequest s := rfl

theorem answer_runEnable : answerRequest s .clockWord { bytes := wordBytes 1 [] tag } =
    softRequest s true := rfl
theorem answer_runDisable : answerRequest s .clockWord { bytes := wordBytes 2 [] tag } =
    softRequest s false := rfl
theorem answer_clockSet (v : BitVec 32) :
    answerRequest s .clockWord { bytes := wordBytes 3 (leBytes 4 v.toNat) tag } =
      setRequest s v.toNat := by
  change setRequest s _ = _
  congr 1
  simp [RequestWord.num, wordBytes, padTo, leBytes, leNat, four_bytes]
theorem answer_clockAdjust (v : BitVec 32) :
    answerRequest s .clockWord { bytes := wordBytes 4 (leBytes 4 v.toNat) tag } =
      adjustRequest s (signed32 v.toNat) := by
  change adjustRequest s (signed32 _) = _
  congr 2
  simp [RequestWord.num, wordBytes, padTo, leBytes, leNat, four_bytes]
theorem answer_periodNext : answerRequest s .clockWord { bytes := wordBytes 5 [] tag } =
    periodNextRequest s := rfl
theorem answer_shotReset : answerRequest s .clockWord { bytes := wordBytes 6 [] tag } =
    shotResetRequest s := rfl
theorem answer_shotSet (v : BitVec 32) :
    answerRequest s .clockWord { bytes := wordBytes 7 (leBytes 4 v.toNat) tag } =
      shotSetRequest s v.toNat := by
  change shotSetRequest s _ = _
  congr 1
  simp [RequestWord.num, wordBytes, padTo, leBytes, leNat, four_bytes]
theorem answer_shotEnable : answerRequest s .clockWord { bytes := wordBytes 8 [] tag } =
    shotSwitchRequest s true := rfl
theorem answer_shotDisable : answerRequest s .clockWord { bytes := wordBytes 9 [] tag } =
    shotSwitchRequest s false := rfl
theorem answer_horn (ms : BitVec 16) :
    answerRequest s .clockWord { bytes := wordBytes 10 (leBytes 2 ms.toNat) tag } =
      hornRequest s ms.toNat := by
  change hornRequest s _ = _
  congr 1
  simp [RequestWord.num, wordBytes, padTo, leBytes, leNat, two_bytes]

theorem answer_spot (i p c : Byte) (d : BitVec 16) :
    answerRequest s .sponsorWord
      { bytes := wordBytes 1 ([i, p, 0] ++ leBytes 2 d.toNat ++ [0, 0, c]) tag } =
      spotRequest s spotWordOffsets i.toNat p.toNat d.toNat c.toNat := by
  change spotRequest s spotWordOffsets _ _ _ _ = _
  congr 1
  simp [RequestWord.num, wordBytes, padTo, leBytes, leNat, two_bytes]
theorem answer_setLowest (i p : Byte) :
    answerRequest s .sponsorWord { bytes := wordBytes 2 [i, p] tag } =
      setLowestRequest s i.toNat p.toNat := rfl
theorem answer_end (p : Byte) : answerRequest s .sponsorWord { bytes := wordBytes 3 [0, p] tag } =
    endRequest s p.toNat := rfl
theorem answer_suspend (i : Byte) : answerRequest s .sponsorWord { bytes := wordBytes 4 [i] tag } =
    suspendRequest s i.toNat true := rfl
theorem answer_sponsorResume (i : Byte) :
    answerRequest s .sponsorWord { bytes := wordBytes 5 [i] tag } =
      suspendRequest s i.toNat false := rfl

theorem answer_arm (c rate flags bf bi : Byte) (inP outP : BitVec 32) :
    answerRequest s .replayWord
      { bytes := wordBytes 1
          ([c, rate, flags] ++ leBytes 4 inP.toNat ++ leBytes 4 outP.toNat ++ [bf, bi]) tag } =
      armRequest s
        { clip := c.toNat, rate := rate.toNat, flags := flags.toNat, inPoint := inP.toNat,
          outPoint := outP.toNat, bumperFrames := bf.toNat, bumperIndex := bi.toNat } := by
  change armRequest s (armParams _) = _
  congr 1
  simp [armParams, RequestWord.num, wordBytes, padTo, leBytes, leNat, four_bytes]
theorem answer_disarm (c : Byte) : answerRequest s .replayWord { bytes := wordBytes 2 [c] tag } =
    disarmRequest s c.toNat := rfl
theorem answer_resetRing : answerRequest s .replayWord { bytes := wordBytes 3 [] tag } =
    resetRingRequest s := rfl
theorem answer_play (c : Byte) : answerRequest s .replayWord { bytes := wordBytes 4 [c] tag } =
    playRequest s c.toNat := rfl
theorem answer_freeze : answerRequest s .replayWord { bytes := wordBytes 5 [] tag } =
    freezeRequest s := rfl
theorem answer_replayResume : answerRequest s .replayWord { bytes := wordBytes 6 [] tag } =
    replayResumeRequest s := rfl
theorem answer_step (d : Byte) : answerRequest s .replayWord { bytes := wordBytes 7 [d] tag } =
    stepRequest s d.toNat := rfl
theorem answer_takeLive : answerRequest s .replayWord { bytes := wordBytes 8 [] tag } =
    takeLiveRequest s := rfl

theorem answer_purge : answerRequest s .tickerWord { bytes := wordBytes 1 [] tag } =
    purgeRequest s := rfl
theorem answer_pause : answerRequest s .tickerWord { bytes := wordBytes 2 [] tag } =
    pauseRequest s := rfl
theorem answer_tickerResume : answerRequest s .tickerWord { bytes := wordBytes 3 [] tag } =
    tickerResumeRequest s := rfl
theorem answer_spare (code : Byte) :
    answerRequest s .spareWord { bytes := wordBytes code [] tag } = unknown s := rfl

/-- A code that the word's table does not list. -/
theorem answer_unlisted (word : CodedWord) (code : Byte) (h : word.lists code = false) :
    answerRequest s (codedWord word) { bytes := wordBytes code [] tag } = unknown s := by
  have hc : ({ bytes := wordBytes code [] tag } : RequestWord).code = code.toNat := by
    simp [RequestWord.code, RequestWord.num, wordBytes, leNat]
  simp only [CodedWord.lists, Bool.and_eq_false_iff, decide_eq_false_iff_not] at h
  cases word <;>
    simp only [codedWord, answerRequest, showRequest, clockRequest, sponsorRequest, replayRequest,
      tickerRequest, hc, CodedWord.lastCode] at h ⊢ <;>
    split <;> first | rfl | omega

end Sys2Proof.Machine
end

