-- ==== Sys2Proof/Laws/Clock.lean ====
section
/-! SUPPORT. What a stop of the game clock comes to at the end of its command. -/

namespace Sys2Proof.Machine

/-- One occurrence, whatever refresh is held: it is taken, then a due refresh starts. -/
theorem settle_raise_of_none (t : State) (h : t.report.raised = []) (k : NoticeKind)
    (d : List (Nat × List Byte)) :
    settle (raise t k d) = refreshStart (takeOccurrence t k (layout 16 d)) := by
  obtain ⟨pe, ga, pa, co, ro, cl, sc, re, ms, ti, rp⟩ := t
  obtain ⟨a, b, c, d, e, f, g, p, q, raised, w⟩ := rp
  simp only at h
  subst h
  rfl

/-- A stop without a pending configuration: the clock unit's record, CLOCK_STOPPED, the refresh. -/
theorem stopClock_eq (t : State) (target : GameState) (cause : ClockCause)
    (h : t.clock.configPending = false) :
    stopClock t target cause =
      raise (refreshDue { t with clock := stopped t.clock t.comp.frame target cause } .clockStop)
        .clockStopped
        [(0, leBytes 1 cause.code), (1, leBytes 1 t.clock.period), (4, leBytes 4 t.clock.value)] := by
  have h2 : ({ t.clock with state := target, stopRec := clockRecord t cause } :
      ClockUnit).configPending = false := h
  simp only [stopClock, setClock, refreshDue, raise, raiseReport, h2, Bool.false_eq_true, if_false]
  rfl

theorem addedFor_eq (new : ClockConfig) (v : Nat) :
    addedFor new v = decide (new.mode = .up ∧ new.setPoint ≤ v) := by
  cases h : new.mode <;> simp [addedFor, h]

/-- The attempt to start changes the clock unit only (R64). -/
theorem tryStart_eq (t : State) (cause : ClockCause) :
    tryStart t cause = { t with
      clock := if t.clock.state = .stopped ∧ t.clock.soft = true ∧
          (t.gateRun = true ∨ t.clock.config.gateOverride = true) then
        (if t.clock.config.mode = .down ∧ t.clock.value = 0 then { t.clock with state := .expired }
          else started t.clock t.comp.frame cause) else t.clock } := by
  simp only [tryStart, runWanted, Bool.and_eq_true, Bool.or_eq_true]
  split
  · split <;> rfl
  · rfl

/-- Taking a configuration changes the clock unit only, as `configured` says (R78). -/
theorem takeConfig_eq (t : State) :
    takeConfig t = { t with
      clock := configured t.gateRun t.comp.frame (readClockConfig t.path.shadow) t.clock } := by
  simp only [takeConfig, tryStart_eq, configured, setClock, adoptConfig, addedFor_eq]
  split
  · rename_i e
    simp only [e, true_and]
  · rename_i e
    simp only [e, false_and, if_false]

/-- A stop with a pending configuration: the same, and the configuration taken into the stopped clock. -/
theorem stopClock_pending_eq (t : State) (target : GameState) (cause : ClockCause)
    (h : t.clock.configPending = true) :
    stopClock t target cause =
      raise
        (refreshDue
          { t with
            clock := configured t.gateRun t.comp.frame (readClockConfig t.path.shadow)
              (stopped t.clock t.comp.frame target cause) }
          .clockStop)
        .clockStopped
        [(0, leBytes 1 cause.code), (1, leBytes 1 t.clock.period), (4, leBytes 4 t.clock.value)] := by
  have h2 : ({ t.clock with state := target, stopRec := clockRecord t cause } :
      ClockUnit).configPending = true := h
  simp only [stopClock, setClock, refreshDue, raise, raiseReport, h2, if_true, takeConfig_eq]
  rfl

/-- A stop that a request brought about ends with the request recorded and the stop reported. -/
theorem settle_recorded_stop (t : State) (w : ReqWord) (tag : Byte) (code : Nat) (v : Verdict)
    (h : t.report.raised = []) (hv : v.outcome.refused = false)
    (d : List (Nat × List Byte)) :
    settle (recordOutcome (raise (refreshDue t .clockStop) .clockStopped d) w tag code v) =
      refreshStart (takeOccurrence (refreshDue (recorded t w tag v.outcome v.waits) .clockStop)
        .clockStopped (layout 16 d)) := by
  rw [← settle_raise_of_none]
  · simp only [recordOutcome, hv, Bool.false_eq_true, if_false]
    rfl
  · exact h

end Sys2Proof.Machine
end

