-- ==== Sys2Proof/Laws/Page.lean ====
section
/-! SUPPORT. What stands where on the status page: the page section by section, the fields of a record, the
records of a list, and the zeros beside them. -/

namespace Sys2Proof.Machine

/-! ### Bytes in place -/

theorem StandsAt.getElem? {page bytes : List Byte} {off i : Nat} (h : StandsAt page off bytes)
    (hi : i < bytes.length) : page[off + i]? = bytes[i]? := by
  have := congrArg (·[i]?) h
  simpa [List.getElem?_take, hi] using this

theorem standsAt_iff {page bytes : List Byte} {off : Nat} :
    StandsAt page off bytes ↔ ∀ i < bytes.length, page[off + i]? = bytes[i]? := by
  refine ⟨fun h i hi => h.getElem? hi, fun h => List.ext_getElem? fun i => ?_⟩
  by_cases hi : i < bytes.length
  · simpa [List.getElem?_take, hi] using h i hi
  · simp [hi]

/-- What stands in a section stands on the page. -/
theorem StandsAt.trans {page part bytes : List Byte} {off o : Nat} (h : StandsAt page off part)
    (g : StandsAt part o bytes) (hn : o + bytes.length ≤ part.length) :
    StandsAt page (off + o) bytes := by
  rw [standsAt_iff] at *
  intro i hi
  rw [← g i hi, Nat.add_assoc]
  exact h (o + i) (by omega)

theorem standsAt_append (a b c : List Byte) {off : Nat} (h : a.length = off) :
    StandsAt (a ++ (b ++ c)) off b := by
  subst h
  simp [StandsAt]

/-! ### Records -/

@[simp] theorem layout_length (n : Nat) (fields : List (Nat × List Byte)) :
    (layout n fields).length = n := by simp [layout]

@[simp] theorem layout_getElem? (n i : Nat) (fields : List (Nat × List Byte)) (h : i < n) :
    (layout n fields)[i]? = some (layoutByte fields i) := by simp [layout, h]

/-- A field that those before it do not cover holds its place in a record (R191). -/
theorem layoutByte_field (before after : List (Nat × List Byte)) (off i : Nat) (bytes : List Byte)
    (hb : ∀ f ∈ before, f.1 + f.2.length ≤ off ∨ off + bytes.length ≤ f.1) (hi : i < bytes.length) :
    layoutByte (before ++ (off, bytes) :: after) (off + i) = bytes.getD i 0 := by
  induction before with
  | nil => simp [layoutByte, hi]
  | cons f fs ih =>
    have hf := hb f List.mem_cons_self
    have : ¬(f.1 ≤ off + i ∧ off + i < f.1 + f.2.length) := by omega
    simpa [layoutByte, this] using ih fun g hg => hb g (List.mem_cons_of_mem _ hg)

/-- The fields of a record stand at their offsets, where none covers another (R191). -/
theorem standsAt_layout {n off : Nat} {fields before after : List (Nat × List Byte)} {bytes : List Byte}
    (h : fields = before ++ (off, bytes) :: after)
    (hb : ∀ f ∈ before, f.1 + f.2.length ≤ off ∨ off + bytes.length ≤ f.1)
    (hn : off + bytes.length ≤ n) : StandsAt (layout n fields) off bytes := by
  subst h
  rw [standsAt_iff]
  intro i hi
  rw [layout_getElem? _ _ _ (by omega), layoutByte_field before after off i bytes hb hi]
  simp [hi]

/-- Every field of a record whose fields do not meet stands at its offset (R191). -/
theorem fieldsAt_layout {n : Nat} {fields : List (Nat × List Byte)}
    (hp : fields.Pairwise fun f g => f.1 + f.2.length ≤ g.1 ∨ g.1 + g.2.length ≤ f.1)
    (hn : ∀ f ∈ fields, f.1 + f.2.length ≤ n) : FieldsAt (layout n fields) 0 fields := by
  intro f hf
  obtain ⟨before, after, rfl⟩ := List.append_of_mem hf
  rw [Nat.zero_add]
  exact standsAt_layout rfl (fun g hg => (List.pairwise_append.mp hp).2.2 g hg f List.mem_cons_self) (hn f hf)

/-- The fields of a record that stands on the page stand there. -/
theorem FieldsAt.trans {page record : List Byte} {off : Nat} {fields : List (Nat × List Byte)}
    (g : FieldsAt record 0 fields) (h : StandsAt page off record)
    (hn : ∀ f ∈ fields, f.1 + f.2.length ≤ record.length) : FieldsAt page off fields := by
  intro f hf
  have := g f hf
  rw [Nat.zero_add] at this
  exact h.trans this (hn f hf)

/-- A byte that no field of a record covers is 0 (R191). -/
theorem layoutByte_zero (fields : List (Nat × List Byte)) (i : Nat)
    (h : ∀ f ∈ fields, i < f.1 ∨ f.1 + f.2.length ≤ i) : layoutByte fields i = 0 := by
  induction fields with
  | nil => rfl
  | cons f fs ih =>
    have hf := h f List.mem_cons_self
    have : ¬(f.1 ≤ i ∧ i < f.1 + f.2.length) := by omega
    simpa [layoutByte, this] using ih fun g hg => h g (List.mem_cons_of_mem _ hg)

/-- The fields of a record that stands on the page stand there, where none meets another (R191). -/
theorem FieldsAt.of_layout {page : List Byte} {n off : Nat} {fields : List (Nat × List Byte)}
    (h : StandsAt page off (layout n fields))
    (hp : fields.Pairwise fun f g => f.1 + f.2.length ≤ g.1 ∨ g.1 + g.2.length ≤ f.1)
    (hn : ∀ f ∈ fields, f.1 + f.2.length ≤ n) : FieldsAt page off fields :=
  (fieldsAt_layout hp hn).trans h (by simpa using hn)

/-- Bytes that no field of a record covers are 0 (R191). -/
theorem zerosAt_layout {n off size : Nat} {fields : List (Nat × List Byte)} (hn : off + size ≤ n)
    (h : ∀ f ∈ fields, off + size ≤ f.1 ∨ f.1 + f.2.length ≤ off) : ZerosAt (layout n fields) off size := by
  rw [ZerosAt, standsAt_iff]
  intro i hi
  simp only [List.length_replicate] at hi
  rw [layout_getElem? _ _ _ (by omega), layoutByte_zero _ _ fun f hf => by have := h f hf; omega]
  simp [hi]

/-- What is 0 in a section is 0 on the page. -/
theorem ZerosAt.of_section {page part : List Byte} {off o size : Nat} (h : StandsAt page off part)
    (g : ZerosAt part o size) (hn : o + size ≤ part.length) : ZerosAt page (off + o) size :=
  h.trans g (by simpa using hn)

theorem ZerosAt.getElem? {page : List Byte} {off size i : Nat} (h : ZerosAt page off size)
    (h1 : off ≤ i) (h2 : i < off + size) : page[i]? = some 0 := by
  have := StandsAt.getElem? h (i := i - off) (by simp; omega)
  rw [show off + (i - off) = i by omega] at this
  simpa [List.getElem?_replicate, show i - off < size by omega] using this

/-! ### Padded lists of records -/

theorem padTo_getElem? (n i : Nat) (l : List Byte) (h : i < n) :
    (padTo n l)[i]? = some (l.getD i 0) := by
  by_cases hi : i < l.length
  · have : i < (l.take n).length := by simp; omega
    rw [padTo, List.getElem?_append_left this]
    simp [h, hi]
  · have : (l.take n).length ≤ i := by simp; omega
    rw [padTo, List.getElem?_append_right this, List.getElem?_replicate]
    simp [List.getElem?_eq_none (show l.length ≤ i by omega)]
    omega

/-- What stands in a list stands in the padded one. -/
theorem StandsAt.padTo {l bytes : List Byte} {off n : Nat} (h : StandsAt l off bytes)
    (hn : off + bytes.length ≤ n) : StandsAt (padTo n l) off bytes := by
  rw [standsAt_iff] at *
  intro i hi
  rw [padTo_getElem? n _ _ (by omega)]
  have := h i hi
  rw [List.getElem?_eq_getElem hi] at *
  simp [this]

/-- What stands in a list stands where the padded one stands. -/
theorem StandsAt.of_padTo {page l bytes : List Byte} {off n o : Nat}
    (h : StandsAt page off (Machine.padTo n l))
    (g : StandsAt l o bytes) (hn : o + bytes.length ≤ n) : StandsAt page (off + o) bytes :=
  h.trans (g.padTo hn) (by simpa using hn)

/-- A record alone in a padded area stands where the area does. -/
theorem StandsAt.of_padded {page l : List Byte} {off n : Nat} (h : StandsAt page off (Machine.padTo n l))
    (hn : l.length ≤ n) : StandsAt page off l :=
  h.of_padTo (o := 0) (by simp [StandsAt]) (by simpa using hn)

/-- Beyond its list a padded area is 0 (R191). -/
theorem zerosAt_padTo {l : List Byte} {off size n : Nat} (h : l.length ≤ off) (hn : off + size ≤ n) :
    ZerosAt (padTo n l) off size := by
  rw [ZerosAt, standsAt_iff]
  intro i hi
  simp only [List.length_replicate] at hi
  rw [padTo_getElem? n _ _ (by omega)]
  simp [hi, List.getElem?_eq_none (show l.length ≤ off + i by omega)]

theorem flatMap_length {α : Type} (f : α → List Byte) (n : Nat) (hf : ∀ x, (f x).length = n) (l : List α) :
    (l.flatMap f).length = n * l.length := by
  induction l with
  | nil => simp
  | cons x xs ih =>
    rw [List.flatMap_cons, List.length_append, ih, hf, List.length_cons, Nat.mul_succ, Nat.add_comm]

/-- Record `k` of a list of records of one size stands at `k` times that size. -/
theorem standsAt_flatMap {α : Type} (f : α → List Byte) (n : Nat) (hf : ∀ x, (f x).length = n)
    {l : List α} {k : Nat} {x : α} (h : l[k]? = some x) : StandsAt (l.flatMap f) (n * k) (f x) := by
  induction l generalizing k with
  | nil => simp at h
  | cons y ys ih =>
    cases k with
    | zero =>
      have : y = x := by simpa using h
      subst this
      simp [StandsAt]
    | succ k =>
      have := ih (k := k) (by simpa using h)
      rw [standsAt_iff] at *
      intro i hi
      rw [← this i hi, List.flatMap_cons, List.getElem?_append_right (by rw [hf, Nat.mul_succ]; omega), hf]
      congr 1
      rw [Nat.mul_succ]
      omega

/-- Record `k` of a padded list of records of one size, or zeros where the list has none (R191). -/
theorem padTo_record {α : Type} (f : α → List Byte) (n total : Nat) (hf : ∀ x, (f x).length = n)
    (l : List α) (k : Nat) (hk : n * k + n ≤ total) :
    match l[k]? with
    | none => ZerosAt (padTo total (l.flatMap f)) (n * k) n
    | some x => StandsAt (padTo total (l.flatMap f)) (n * k) (f x) := by
  cases h : l[k]? with
  | none =>
    refine zerosAt_padTo ?_ hk
    rw [flatMap_length f n hf]
    exact Nat.mul_le_mul_left n (by simpa using h)
  | some x => exact (standsAt_flatMap f n hf h).padTo (by rw [hf]; exact hk)

/-! ### The lock set -/

theorem bitsOf_testBit (l : List Bool) (j : Nat) : (bitsOf l).testBit j = l.getD j false := by
  induction l generalizing j with
  | nil => simp [bitsOf]
  | cons b bs ih =>
    cases j with
    | zero => cases b <;> simp [bitsOf, Nat.testBit_zero]
    | succ j =>
      have : (bitsOf (b :: bs)) / 2 = bitsOf bs := by cases b <;> (simp [bitsOf]; try omega)
      rw [Nat.testBit_succ, this, ih]
      simp

theorem bitsOf_lt (l : List Bool) : bitsOf l < 2 ^ l.length := by
  induction l with
  | nil => simp [bitsOf]
  | cons b bs ih => cases b <;> (simp [bitsOf, Nat.pow_succ]; omega)

/-! ### Sizes of the records (R191) -/

@[simp] theorem descriptorBytes_length (d : Descriptor) : (descriptorBytes d).length = 16 := by
  simp [descriptorBytes]

@[simp] theorem rowBytes_length (r : OutcomeRow) : (rowBytes r).length = 4 := by
  simp [rowBytes, placeBytes, byteOf]

@[simp] theorem recordFields_length (r : ClockRecord) : (recordFields r).length = 16 := by
  simp [recordFields]

@[simp] theorem gateFields_length (g : GateStamp) : (gateFields g).length = 16 := by simp [gateFields]

@[simp] theorem clockConfigBytes_length (c : ClockConfig) : (clockConfigBytes c).length = 32 := by
  simp [clockConfigBytes]

@[simp] theorem teamBytes_length (m : Memory) (t : Team) : (teamBytes m t).length = 32 := by
  simp [teamBytes]

@[simp] theorem flashBytes_length (f : Option Flash) : (flashBytes f).length = 4 := by
  cases f <;> simp [flashBytes, byteOf]

@[simp] theorem scoreBytes_length (s : State) : (scoreBytes s).length = 128 := by simp [scoreBytes]

@[simp] theorem entryBytes_length (e : StackEntry) : (entryBytes e).length = 32 := by simp [entryBytes]

@[simp] theorem spotBytes_length (x : Spot) : (spotBytes x).length = 4 := by simp [spotBytes, byteOf]

@[simp] theorem placementBytes_length (p : Placement) : (placementBytes p).length = 256 := by
  simp [placementBytes]

@[simp] theorem sponsorBytes_length (s : State) (i : Nat) : (sponsorBytes s i).length = 32 := by
  simp [sponsorBytes]

@[simp] theorem playbackBytes_length (s : State) : (playbackBytes s).length = 64 := by
  simp [playbackBytes]

@[simp] theorem bumperBytes_length (d : Option Descriptor) : (bumperBytes d).length = 16 := by
  cases d <;> simp [bumperBytes]

@[simp] theorem clipBytes_length (c : Clip) : (clipBytes c).length = 32 := by simp [clipBytes]

@[simp] theorem slotBytes_length (clips : List Clip) (x : Slot) : (slotBytes clips x).length = 32 := by
  simp [slotBytes]

@[simp] theorem outcomeBytes_length (s : State) : (outcomeBytes s).length = 32 := by simp [outcomeBytes]

@[simp] theorem messageUnitBytes_length (s : State) : (messageUnitBytes s).length = 256 := by
  simp [messageUnitBytes]

@[simp] theorem messageBytes_length (m : Message) : (messageBytes m).length = 256 := by
  rw [messageBytes, layout_length]

@[simp] theorem bandBytes_length (e : BandEntry) : (bandBytes e).length = 256 := by
  rw [bandBytes, layout_length]

/-! ### Sections of the page (R191) -/

@[simp] theorem headerBytes_length (s : State) (c : RefreshCause) : (headerBytes s c).length = 16 := by
  simp [headerBytes]

@[simp] theorem modeBytes_length (s : State) : (modeBytes s).length = 16 := by simp [modeBytes]

@[simp] theorem geometryBytes_length (g : Geometry) : (geometryBytes g).length = 64 := by
  simp [geometryBytes]

@[simp] theorem clockBytes_length (c : ClockUnit) : (clockBytes c).length = 256 := by simp [clockBytes]

@[simp] theorem tickerBytes_length (t : TickerUnit) : (tickerBytes t).length = 256 := by
  simp [tickerBytes]

@[simp] theorem pageBody_length (s : State) : (pageBody s).length = 65504 := by simp [pageBody]

/-- The page is 65,536 bytes long (R184). -/
@[simp] theorem statusPage_length (s : State) (c : RefreshCause) : (statusPage s c).length = 65536 := by
  simp [statusPage]

/-- The sections of the page from 0000h to FFF0h, each with its offset. -/
def pageSections (s : State) (c : RefreshCause) : List (Nat × List Byte) :=
  [(0x0000, headerBytes s c), (0x0010, modeBytes s), (0x0020, geometryBytes s.path.geom),
    (0x0060, padTo 0xA0 (outcomeBytes s)), (0x0100, clockBytes s.clock),
    (0x0200, padTo 0x200 (scoreBytes s)),
    (0x0400, padTo 0x400 ((List.range 4).flatMap fun p => placementBytes (placementAt s p))),
    (0x0800, padTo 0x800 ((List.range 32).flatMap (sponsorBytes s))),
    (0x1000, padTo 0x100 (playbackBytes s)),
    (0x1100, padTo 0xF00 ((List.range 16).flatMap fun k => clipBytes (clipAt s k))),
    (0x2000, padTo 0x8000 ((s.replay.slots.take 1024).flatMap (slotBytes s.replay.clips))),
    (0xA000, padTo 0x1000 (messageUnitBytes s)),
    (0xB000, padTo 0x2000 ((s.msg.queue.take 32).flatMap messageBytes)), (0xD000, tickerBytes s.ticker),
    (0xD100, padTo 0x2EF0 (padTo 0x800 (s.ticker.band.flatMap bandBytes))), (0xFFF0, headerBytes s c)]

/-- Sections that stand one after another, the first at `off`. -/
theorem standsAt_sections (sections : List (Nat × List Byte)) (page : List Byte) (off : Nat)
    (hc : sections.IsChain fun f g => f.1 + f.2.length = g.1)
    (h0 : ∀ f, sections.head? = some f → f.1 = off)
    (hp : page.drop off = sections.flatMap Prod.snd) : FieldsAt page 0 sections := by
  induction sections generalizing off with
  | nil => simp [FieldsAt]
  | cons f fs ih =>
    have hf : f.1 = off := h0 f rfl
    rw [List.flatMap_cons] at hp
    intro g hg
    rw [Nat.zero_add]
    rcases List.mem_cons.mp hg with rfl | hg
    · simp [StandsAt, hf, hp]
    · have := ih (off + f.2.length) hc.tail
        (fun x hx => by
          cases fs with
          | nil => simp at hx
          | cons y ys =>
            have : y = x := by simpa using hx
            have := (List.isChain_cons_cons.mp hc).1
            subst_vars
            omega)
        (by rw [← List.drop_drop, hp]; simp) g hg
      rwa [Nat.zero_add] at this

/-- Each section stands at its offset of the page (R191). -/
theorem statusPage_sections (s : State) (c : RefreshCause) :
    FieldsAt (statusPage s c) 0 (pageSections s c) := by
  refine standsAt_sections _ _ 0 ?_ (by simp [pageSections]) ?_
  · simp [pageSections]
  · simp [statusPage, pageBody, pageSections]

/-- A section stands at its offset of the page (R191). -/
theorem statusPage_section {s : State} {c : RefreshCause} {off : Nat} {bytes : List Byte}
    (h : (off, bytes) ∈ pageSections s c) : StandsAt (statusPage s c) off bytes := by
  simpa using statusPage_sections s c _ h

end Sys2Proof.Machine
end

