-- ==== Sys2Proof/Laws/Path.lean ====
section
/-! SUPPORT. What answering a transaction, and the composited reads that it releases, can do. -/

namespace Sys2Proof.Machine

/-- Nothing but the response order, the returned responses, and the compositor's reads, marks and
weights differs. -/
def SameButAnswers (s t : State) : Prop :=
  t = { s with
    path := { s.path with order := t.path.order, returned := t.path.returned },
    comp := { s.comp with reads := t.comp.reads, marks := t.comp.marks, weights := t.comp.weights } }

theorem SameButAnswers.refl (s : State) : SameButAnswers s s := rfl

theorem SameButAnswers.trans {s t u : State} (a : SameButAnswers s t) (b : SameButAnswers t u) :
    SameButAnswers s u := by
  unfold SameButAnswers at *
  rw [b, a]

theorem giveAnswer_same (s : State) (key : Nat) (r : UpResp) :
    SameButAnswers s (giveAnswer s key r) := rfl

theorem countRead_same (s : State) (c : CompRead) (overlay : List OverlayByte) :
    SameButAnswers s (countRead s c overlay) := by
  unfold countRead
  split
  · split <;> rfl
  · rfl

theorem dropRead_same (s : State) (key : Nat) : SameButAnswers s (dropRead s key) := rfl

theorem modifyRead_same (s : State) (key : Nat) (f : CompRead → CompRead) :
    SameButAnswers s (modifyRead s key f) := rfl

theorem answerRead_same (s : State) (c : CompRead) (f : Fetched) :
    SameButAnswers s (answerRead s c f) :=
  ((countRead_same s c f.overlay).trans (dropRead_same _ _)).trans (giveAnswer_same _ _ _)

theorem releaseReads_same (n : Nat) (s : State) : SameButAnswers s (releaseReads n s) := by
  induction n generalizing s with
  | zero => rfl
  | succ n ih =>
    unfold releaseReads
    split
    · exact (answerRead_same s _ _).trans (ih _)
    · exact .refl s

/-- Answering the reads that are ready touches only what an answer touches (R12, R16, R17). -/
theorem release_same (s : State) : SameButAnswers s (release s) := releaseReads_same _ s

theorem answerKey_same (s : State) (key : Nat) (r : UpResp) : SameButAnswers s (answerKey s key r) :=
  (giveAnswer_same s key r).trans (release_same _)

theorem failRead_same (s : State) (c : CompRead) : SameButAnswers s (failRead s c) :=
  answerKey_same _ _ _

/-- Everything a completed composited read can do to the part (R12, R15, R16). -/
theorem completeRead_same (s : State) (c : CompRead) (f : Fetched) :
    SameButAnswers s (completeRead s c f) := by
  unfold completeRead
  split
  · exact dropRead_same s _
  · split
    · exact .refl s
    · split
      · exact (dropRead_same s _).trans (failRead_same _ c)
      · exact (modifyRead_same s _ _).trans (release_same _)

/-- With nothing ready, nothing is released. -/
theorem release_of_none (s : State) (h : readyRead s = none) : release s = s := by
  unfold release
  cases s.comp.reads.length with
  | zero => rfl
  | succ n => simp [releaseReads, h]

end Sys2Proof.Machine
end

