-- ==== Sys2Proof/Laws/Score.lean ====
section
/-! SUPPORT. What the rendered texts of the bug's fields are (R92 to R95). -/

namespace Sys2Proof.Machine

theorem decimalFrom_spec (fuel n : Nat) (h : n < fuel) : DecimalOf n (decimalFrom fuel n) := by
  induction fuel generalizing n with
  | zero => omega
  | succ fuel ih =>
    unfold decimalFrom
    split
    · refine ⟨by simp, by simp; omega, by simp, fun e => ?_⟩
      simp at e
      simp [e]
    · obtain ⟨ne, digit, value, lead⟩ := ih (n / 10) (by omega)
      refine ⟨by simp, fun c m => ?_, by simp [value]; omega, fun e => ?_⟩
      · rcases List.mem_append.1 m with m | m
        · exact digit c m
        · simp at m
          omega
      · rw [List.head?_append_of_ne_nil _ ne] at e
        rw [lead e] at value
        simp at value
        omega

/-- R92: a number is written in decimal without leading zeros. -/
theorem decimal_spec (n : Nat) : DecimalOf n (decimal n) := decimalFrom_spec (n + 1) n (by omega)

/-- R94. -/
theorem minutesText_spec (sec : Nat) : MinutesOf sec (minutesText sec) :=
  ⟨_, decimal_spec _, by
    have : sec % 60 / 10 % 10 = sec % 60 / 10 := by omega
    simp [minutesText, twoDigits, colonCode, this]⟩

/-- R94, R95. -/
theorem tenthsText_spec (v : Nat) : TenthsOf v (tenthsText v) :=
  ⟨_, decimal_spec _, by simp [tenthsText, periodCode]⟩

/-- R94: the clock format. -/
theorem clockText_spec (mode : ClockMode) (v : Nat) : ClockTextOf mode v (clockText mode v) := by
  refine ⟨?_, ?_, ?_⟩ <;> rintro rfl
  · intro h
    simpa [clockText, h] using minutesText_spec _
  · intro h
    simpa [clockText, Nat.not_le.2 h] using tenthsText_spec v
  · exact minutesText_spec _

/-- R95: the shot format. -/
theorem shotText_spec (v : Nat) : ShotTextOf v (shotText v) :=
  ⟨fun h => by simpa [shotText, h] using decimal_spec _,
    fun h => by simpa [shotText, Nat.not_le.2 h] using tenthsText_spec v⟩

end Sys2Proof.Machine
end

