-- ==== Sys2Proof/Tests/Slice0.lean ====
section
/-! SUPPORT. Tests: the WellFormed smoke, the manual's worked figures, and a witness for every statement
that has hypotheses. -/

namespace Sys2Proof.Tests

open Sys2Proof.Machine

/-! ### WellFormed: an ill-formed operand for each check -/

/-- Lanes with these bytes set, by lane number. -/
def lanes (l : List (Nat × Byte)) : Beat :=
  (List.range 16).map fun i => (l.find? fun b => b.1 == i).map Prod.snd

/-- A write of one beat with these bytes set. -/
def oneBeat (id : BitVec 8) (addr : Nat) (l : List (Nat × Byte)) : WriteReq :=
  { id := id, addr := addr / 16 * 16, burst := .incr, size := 4, beats := [lanes l] }

/-- A write of one byte. -/
def oneByte (id : BitVec 8) (addr : Nat) (v : Byte) : WriteReq := oneBeat id addr [(addr % 16, v)]

def readOf (id : BitVec 8) (addr size beats : Nat) : ReadReq :=
  { id := id, addr := addr, burst := .incr, size := size, beats := beats }

theorem test_wf_read : (Instr.compositedRead (readOf 0x10 0x1000 4 16)).wf = true := by decide
theorem test_wf_refuses_17_beats : (Instr.compositedRead (readOf 0x10 0 4 17)).wf = false := by decide
theorem test_wf_refuses_no_beat : (Instr.windowRead (readOf 0x10 0 4 0)).wf = false := by decide
theorem test_wf_refuses_32_byte_beats :
    (Instr.forwardedTransaction (.read (readOf 0x10 0 5 1))).wf = false := by decide
theorem test_wf_refuses_address_beyond_40_bits :
    (Instr.windowRead (readOf 0x10 0x10000000000 0 1)).wf = false := by decide
theorem test_wf_refuses_burst_past_the_end :
    (Instr.windowRead (readOf 0x10 0xFFFFFFFFF0 4 2)).wf = false := by decide
theorem test_wf_refuses_wrap_of_three :
    (Instr.compositedRead { readOf 0x10 0 4 3 with burst := .wrap }).wf = false := by decide
theorem test_wf_refuses_unaligned_wrap :
    (Instr.compositedRead { readOf 0x10 8 4 4 with burst := .wrap }).wf = false := by decide
theorem test_wf_refuses_15_lanes :
    (Instr.ingestWrite { oneByte 0x20 0 1 with beats := [List.replicate 15 none] }).wf = false := by
  decide
theorem test_wf_refuses_write_without_beats :
    (Instr.capturedWrite { oneByte 0x20 0 1 with beats := [] }).wf = false := by decide
theorem test_wf_refuses_layer_8 : (Instr.overlayFetchError { id := 0x10, nth := 0 } 8 0).wf = false := by decide
theorem test_wf_refuses_fetch_address_beyond_40_bits :
    (Instr.overlayFetchError { id := 0x10, nth := 3 } 7 0x10000000000).wf = false := by decide
theorem test_wf_refuses_overlay_byte_of_layer_8 :
    (Instr.compositedReadAnswer { id := 0x10, nth := 0 } [] [{ layer := 8, addr := 0, byte := 0 }] []).wf = false := by
  decide
theorem test_wf_refuses_read_response_without_beats :
    (Instr.forwardedResponse .read 0x10 [] []).wf = false := by decide
theorem test_wf_refuses_read_response_of_17_beats :
    (Instr.forwardedResponse .read 0x10 [] (List.replicate 17 .okay)).wf = false := by decide
theorem test_wf_refuses_write_response_with_data :
    (Instr.forwardedResponse .write 0x10 [1] [.okay]).wf = false := by decide
theorem test_wf_refuses_write_response_of_two_codes :
    (Instr.forwardedResponse .write 0x10 [] [.okay, .okay]).wf = false := by decide
theorem test_wf_refuses_short_record : (Instr.intakeFetchComplete false [1, 0]).wf = false := by decide
theorem test_wf_refuses_listed_code :
    (Instr.unknownRequestCode 0x30 1 .tickerWord 3).wf = false ∧
    (Instr.unknownRequestCode 0x30 1 .tickerWord 4).wf = true := by decide

/-! ### The manual's figures -/

/-- R24, the table of exact limits. -/
theorem test_effective_alpha :
    effAlpha 255 255 = 255 ∧ effAlpha 255 254 = 254 ∧ effAlpha 127 1 = 0 ∧ effAlpha 128 1 = 1 ∧
    effAlpha 255 192 = 192 ∧ effAlpha 200 192 = 151 := by decide

/-- Ch. 2, a panel partly under the ticker: colour 49, weights 192 and 63. -/
theorem test_blend_and_weight :
    blendStep 255 200 17 = 200 ∧ blendStep 192 0 200 = 49 ∧ visible 192 255 = 192 ∧
    transmit 192 255 = 63 ∧ visible 255 63 = 63 ∧ transmit 255 63 = 0 := by decide

/-- Ch. 2, the exposures of the three worked panels that are given in full: 849 and 679. -/
theorem test_exposure :
    exposure { weight := 51984000, area := 240000, named := .sponsor 4, drawn := true } = 849 ∧
    exposure { weight := 41600000, area := 240000, named := .sponsor 11, drawn := true } = 679 := by
  decide

/-- R32, the table of fades. -/
theorem test_bumper_fade :
    (List.range 7).map (bumperFade · 7) = [72, 145, 218, 255, 218, 145, 72] ∧
    (List.range 10).map (bumperFade · 10) = [51, 102, 153, 204, 255, 255, 204, 153, 102, 51] ∧
    (List.range 3).map (bumperFade · 3) = [170, 255, 170] ∧ bumperFade 0 1 = 255 ∧
    bumperFade 0 120 = 4 := by decide

/-- R94, DOWN: digit d is code d + 1, the colon 11, the period 12 (R89). -/
theorem test_clock_text_down :
    clockText .down 5999999 = [2, 1, 1, 11, 1, 1] ∧ clockText .down 719999 = [2, 3, 11, 1, 1] ∧
    clockText .down 60001 = [2, 11, 1, 2] ∧ clockText .down 59999 = [6, 10, 12, 10] ∧
    clockText .down 1050 = [2, 12, 1] ∧ clockText .down 99 = [1, 12, 1] := by decide

/-- R94, UP. -/
theorem test_clock_text_up :
    clockText .up 0 = [1, 11, 1, 1] ∧ clockText .up 59999 = [1, 11, 6, 10] ∧
    clockText .up 2700000 = [5, 6, 11, 1, 1] ∧ clockText .up 5999999 = [10, 10, 11, 6, 10] := by decide

/-- R95. -/
theorem test_shot_text :
    shotText 99999 = [2, 1, 1] ∧ shotText 23001 = [3, 5] ∧ shotText 5001 = [7] ∧
    shotText 5000 = [6] ∧ shotText 4999 = [5, 12, 10] ∧ shotText 100 = [1, 12, 2] ∧
    shotText 0 = [1, 12, 1] := by decide

/-- Ch. 9, the worked ticker pixel: 167, 167, 182, key 200. -/
theorem test_ticker_pixel :
    glyphOver { r := 255, g := 255, b := 255, k := 160 } { r := 20, g := 20, b := 60, k := 200 } =
      { r := 167, g := 167, b := 182, k := 200 } := by decide

/-- R60: house time wraps. -/
theorem test_reached_over_the_wrap :
    reached 1 0xFFFFFFFF = true ∧ reached 0xFFFFFFFF 1 = false ∧ reached 7 7 = true := by decide

/-- R190: little-endian, two's complement. -/
theorem test_fields :
    readLE [(4, 0x34), (5, 0x12)] 4 2 = 0x1234 ∧ signed16 0xFFFF = -1 ∧ signed32 0x80000000 = -2147483648 ∧
    leBytes 4 0x01020304 = [4, 3, 2, 1] := by decide

/-- AXI4: a wrapping burst turns at its boundary, an unaligned first beat ends at its container. -/
theorem test_beats :
    (readBytes { readOf 0x10 12 2 4 with burst := .wrap }).map Prod.snd =
      [12, 13, 14, 15, 0, 1, 2, 3, 4, 5, 6, 7, 8, 9, 10, 11] ∧
    (readBytes (readOf 0x10 5 2 2)).map Prod.snd = [5, 6, 7, 8, 9, 10, 11] := by decide

/-- A layer on line 0 with this rank. -/
def ranked (rank : Nat) : PlanLayer :=
  { drawn := true, rank := rank, x := 0, y := 0, w := 100, h := 40, content := .nothing,
    opacity := 255, sponsor := .nobody }

/-- R13, the worked line of section 1.5: FLASH is seventh and is left out. -/
theorem test_line_limit :
    (lineLayers
      { frame := 1, mode := .live, source := .liveCanvas, erred := [],
        layers := [ranked 2, ranked 2, ranked 3, ranked 4, ranked 8, ranked 5, ranked 1,
          { ranked 1 with drawn := false }] } 1920 [] 0).map Prod.fst = [0, 1, 2, 3, 5, 4] := by decide

/-! ### One command on a small state -/

/-- A part of the next state. -/
def after {α : Type} (c : Instr) (s : State) (f : State → α) : Option α :=
  match exec c s with
  | .next t => some (f t)
  | _ => none

/-- LIVE, everything else as after reset. -/
def lit : State := { State.reset with report := { ReportUnit.reset with mode := .live } }

/-- A frame has begun: a plan that draws nothing is in force. -/
def framed (s : State) : State :=
  { s with comp := { s.comp with
      plan := some { frame := 0, mode := .live, source := .liveCanvas, layers := [], erred := [] } } }

/-- LIVE with this clock unit. -/
def timed (c : ClockUnit) : State := { lit with clock := c }

/-- LIVE with this replay unit. -/
def replaying (r : ReplayUnit) : State := { lit with replay := r }

/-- A DOWN clock that runs on INTERNAL, soft enable on, gate overridden. -/
def ticking (v : Nat) : ClockUnit :=
  { ClockUnit.reset with
    value := v, state := .running, soft := true, source := .internal,
    config := { ClockConfig.zero with gateOverride := true } }

def filled (q : Nat) : Slot := { Slot.emptied with state := .filled, seq := q }

/-- The ring of ch. 6's worked example after step 1. -/
def ring : ReplayUnit :=
  { ReplayUnit.reset with
    slots := [filled 17, filled 18, filled 19, filled 20, { Slot.emptied with state := .filling },
      filled 6, filled 7, filled 8, filled 9, filled 10, filled 11, filled 12, filled 13, filled 14,
      filled 15, filled 16],
    fill := some 4, captureSeq := 21 }

/-- What stands in the latest place of the REPLAY word's row. -/
def replayOutcome (t : State) : Option ReqOutcome := (t.report.outcomes.getD 3 ⟨.none, .none⟩).latest.outcome

/-- Ch. 6, step 2: ARM(0, 3 to 10) is CLAMPED to 6. -/
theorem test_arm_clamps_to_the_run_start :
    after (.arm 0x30 1 0 2 1 3 10 10 0) (replaying ring) (fun t =>
      (replayOutcome t, (clipAt t 0).inPoint, (clipAt t 0).outPoint, slotHeld t 5, slotHeld t 10)) =
      some (some .clamped, 6, 10, true, false) := by decide

/-- Ch. 6, step 7: an out-point above the newest sequence is NOT_YET. -/
theorem test_arm_not_yet :
    after (.arm 0x30 1 1 1 0 20 23 0 0) (replaying ring) replayOutcome = some (some .notYet) := by
  decide

/-- The clip of ch. 7's worked replay, PLAYING. -/
def playing : Clip :=
  { Clip.emptied with
    state := .playing, inPoint := 6, outPoint := 10, rate := 2, endAction := .returnLive,
    bumperFrames := 10 }

/-- The ring of ch. 6 with that clip on air, frozen at a position. -/
def frozenAt (q : Nat) : State :=
  replaying { ring with
    clips := playing :: List.replicate 15 .emptied, playback := .frozen, clip := some 0,
    position := q }

/-- Ch. 7, frame 1020: STEP(+1) from 7 goes to 8. -/
theorem test_step_forward :
    after (.stepReplay 0x30 1 1) (frozenAt 7) (fun t => t.replay.position) = some 8 := by decide

/-- R130: a step past the in-point is CLAMPED. -/
theorem test_step_back_at_the_in_point :
    after (.stepReplay 0x30 1 255) (frozenAt 6) (fun t => (replayOutcome t, t.replay.position)) =
      some (some .clamped, 6) := by decide

/-- Ch. 7, frame 1025: RESUME goes on with the counter at rate − 1. -/
theorem test_replay_resume :
    after (.replayResume 0x30 1) (frozenAt 8) (fun t => (t.replay.playback, t.replay.counter)) =
      some (.onAir, 1) := by decide

/-- R67, R72: the tick to 0 expires the clock and sounds the horn for the 100 ms of the least length. -/
theorem test_expiry :
    let t := tickArrival (timed (ticking 1))
    (t.clock.state, t.clock.value, t.clock.hornGame, t.clock.stopRec.cause) =
      (.expired, 0, some 101, .expiry) := by decide

/-- R60: a house-time advance is a tick on INTERNAL. -/
theorem test_internal_tick :
    after .houseTimeAdvance (timed (ticking 5)) (fun t => (t.clock.house, t.clock.value)) =
      some (1, 4) := by decide

/-- R75: ADJUST below 0 is held at 0. -/
theorem test_adjust_clamps :
    after (.clockAdjust 0x30 1 0xFFFFFFF0) (timed { ClockUnit.reset with value := 5 }) (fun t =>
      (t.clock.value, t.clock.state, (t.report.outcomes.getD 1 ⟨.none, .none⟩).latest.outcome)) =
      some (0, .expired, some .clamped) := by decide

/-- R77: SHOT_SET takes its four bytes, lowest first. -/
theorem test_shot_set :
    after (.shotSet 0x30 1 99999) lit (fun t => t.clock.shotValue) = some 99999 := by decide

/-- R63: the eighth returning edge restores EXTERNAL. -/
theorem test_restore :
    after .timebaseRestore
      (timed { ClockUnit.reset with source := .internal, returns := 7, lastReturn := 0, house := 3 })
      (fun t => (t.clock.source, t.clock.returns)) = some (.external, 0) := by decide

/-- R135, R136: ch. 8's overrun: head 100, tail 170, head becomes 106. -/
theorem test_overrun :
    after (.intakeTailCapture (oneBeat 0x30 0x1070 [(0, 170), (1, 0)]))
      { lit with msg := { MessageUnit.reset with
          head := 100, tail := 100, fetch := none,
          queue := List.replicate 32 { id := 1, cls := .general, text := [], queued := 0, deadline := 0 } } }
      (fun t => (t.msg.head, t.msg.tail, t.msg.fetch, irq t)) = some (106, 170, none, true) := by decide

/-- R169, R170: a captured byte reads back from the shadow. -/
theorem test_capture :
    after (.capturedWrite (oneByte 0x30 0x4FFF 0xA5)) lit (fun t => readByte t.path.shadow 0x4FFF) =
      some 0xA5 := by decide

/-- R175: the first byte of the status page is part-owned, the byte before it is not. -/
theorem test_part_owned :
    classifyWrite lit (oneByte 0x30 0x80000 1) = .partOwned ∧
    classifyWrite lit (oneByte 0x30 0x7FFFF 1) = .forwarded := by decide

/-- R83: a rise of the home score asks for the home flash when the flash is enabled. -/
theorem test_score_rise :
    after (.teamRecordCapture (oneBeat 0x30 0x2000 [(0, 3), (1, 0)]))
      { lit with path := { PathUnit.reset 0 [] with shadow := [(0x260, 1)] } }
      (fun t => (t.score.flashAsk, teamScore t.path.shadow .home)) = some (some .home, 3) := by decide

/-- The queue is first in, first out: step takes the front command and leaves the rest waiting. -/
theorem test_step_takes_the_front :
    (match step { State.reset with pending := [.houseTimeAdvance, .frameStart] } with
      | .next t => (t.clock.house, t.pending)
      | _ => (0, [])) = (1, [.frameStart]) := by decide

/-! ### Witnesses: requests

Each theorem shows, for one statement, states and operands that meet its hypotheses, clause by clause,
boundary values where a clause has a range. -/

theorem quiet (s : State) (h : s.report.raised = []) (k : s.report.held = none) : Quiet s :=
  ⟨h, .inl k⟩

/-- An empty notice ring is in order. -/
theorem ringOk_empty (s : State) (h : s.report.ring.length = 32)
    (p : s.report.produce = s.report.consume) : RingOk s := by
  have z : noticeCount s.report = 0 := by simp [noticeCount, p]
  exact ⟨h, by omega, fun j l => by omega, fun i l => by omega⟩

/-- Every record of a blank notice ring stands at its place. -/
theorem placesOk_blank (s : State) (h : s.report.ring = List.replicate 32 .zero) : PlacesOk s := by
  intro i _ x hx
  obtain rfl : x = .zero := List.eq_of_mem_replicate (h ▸ List.mem_of_getElem? hx)
  exact fun k => absurd k (by decide)

/-- A request of master 3 is followed in full where no sector is locked and ingest is another master. -/
theorem ready_of (s : State) (w : ReqWord) (h : s.report.raised = []) (k : s.report.held = none)
    (m : Memory.wf s.path.shadow = true) (l : s.comp.lock = []) (i : s.path.geom.ingestTag ≠ 3) :
    WordReady s 0x30 w :=
  ⟨quiet s h k, m, wordCaptured_of s 0x30 w (by simp [l]) (.inr fun e => i (by rw [← e]; rfl))⟩

/-- The same where path and compositor stand as after reset. -/
theorem ready (s : State) (w : ReqWord) (p : s.path = .reset 0 []) (c : s.comp = .reset)
    (h : s.report.raised = []) (k : s.report.held = none) : WordReady s 0x30 w :=
  ready_of s w h k (by rw [p]; rfl) (by rw [c]; rfl) (by rw [p]; decide)

theorem witness_SetLowestMovesTheLowestMark :
    WordReady lit 0x30 .sponsorWord ∧
    ((31 : Byte).toNat ≤ 31 ∧ (3 : Byte).toNat ≤ 3) ∧ 31 < (32 : Byte).toNat ∧
    ((31 : Byte).toNat ≤ 31 ∧ 3 < (4 : Byte).toNat) := ⟨ready _ _ rfl rfl rfl rfl, by decide⟩

/-- Placement 3 with this stack and these spots, sponsor 31 a member. -/
def placed (stack : List StackEntry) (spots : List Spot) : State :=
  { lit with rot := { RotationUnit.reset with
      placements := List.replicate 3 .reset ++
        [{ Placement.reset with
            stack := stack, spots := spots,
            fields := { Placement.reset.fields with members := 0x80000000 } }] } }

def waitingSpot : Spot := { sponsor := 31, creative := 7, dwell := 1 }

theorem witness_SpotJoinsThePendingSet :
    (∀ l, WordReady (placed [] l) 0x30 .sponsorWord) ∧
    (31 : Byte).toNat ≤ 31 ∧ (3 : Byte).toNat ≤ 3 ∧ (1 : BitVec 16) ≠ 0 ∧
    ((7 : Byte).toNat ≤ 7 ∨ (7 : Byte).toNat = 15) ∧ ((15 : Byte).toNat ≤ 7 ∨ (15 : Byte).toNat = 15) ∧
    (∀ l ∈ [[], [waitingSpot]], (placed [] l).report.mode = .live ∧
      (placementAt (placed [] l) 3).fields.bound = false ∧
      (placementAt (placed [] l) 3).fields.member 31 = true ∧
      sponsorSuspended (placed [] l).path.shadow 31 = false ∧
      inStack (placementAt (placed [] l) 3).stack 31 = false) ∧
    (∀ x ∈ (placementAt (placed [] []) 3).spots, x.sponsor ≠ 31) ∧
    ∃ x ∈ (placementAt (placed [] [waitingSpot]) 3).spots, x.sponsor = 31 :=
  ⟨fun _ => ready _ _ rfl rfl rfl rfl, by decide⟩

def entryOf (kind : EntryClass) (mark : Bool) : StackEntry :=
  { kind := kind, sponsor := some 31, creative := .zero, dwell := some 2, endMark := mark }

/-- The placement of `placed`, with this shadow and these fields. -/
def fielded (stack : List StackEntry) (m : Memory) (f : PlacementFields → PlacementFields) : State :=
  { placed stack [] with
    path := { PathUnit.reset 0 [] with shadow := m },
    rot := { (placed stack []).rot with
      placements := (placed stack []).rot.placements.map fun x => { x with fields := f x.fields } } }

theorem witness_SpotIsRefused :
    WordReady State.reset 0x30 .sponsorWord ∧ WordReady lit 0x30 .sponsorWord ∧
    WordReady (placed [entryOf .rotation false] []) 0x30 .sponsorWord ∧
    WordReady (fielded [] [(0x4F00, 1)] id) 0x30 .sponsorWord ∧
    WordReady (fielded [] [] fun f => { f with bound := true }) 0x30 .sponsorWord ∧
    31 < (32 : Byte).toNat ∧ 3 < (4 : Byte).toNat ∧
    (∀ c ∈ [(8 : Byte), 14, 16, 255], 7 < c.toNat ∧ c.toNat ≠ 15) ∧ State.reset.report.mode = .pass ∧
    (placementAt (fielded [] [] fun f => { f with bound := true }) 3).fields.bound = true ∧
    (placementAt lit 3).fields.member 31 = false ∧
    ((placementAt (fielded [] [(0x4F00, 1)] id) 3).fields.member 31 = true ∧
      sponsorSuspended (fielded [] [(0x4F00, 1)] id).path.shadow 31 = true) ∧
    inStack (placementAt (placed [entryOf .rotation false] []) 3).stack 31 = true :=
  ⟨ready _ _ rfl rfl rfl rfl, ready _ _ rfl rfl rfl rfl, ready _ _ rfl rfl rfl rfl,
    ready_of _ _ rfl rfl rfl rfl (by decide), ready_of _ _ rfl rfl rfl rfl (by decide), by decide⟩

theorem witness_EndMarksTheTopEntry :
    (∀ l, WordReady (placed l []) 0x30 .sponsorWord) ∧ (3 : Byte).toNat ≤ 3 ∧ 3 < (4 : Byte).toNat ∧
    (∃ below e, (placementAt (placed [entryOf .rotation false, entryOf .spot false] []) 3).stack =
      below ++ [e] ∧ e.kind ≠ .replay ∧ e.endMark = false) ∧
    (∃ below e, (placementAt (placed [entryOf .fallback true] []) 3).stack = below ++ [e] ∧
      e.kind ≠ .replay ∧ e.endMark = true) ∧
    (∃ below e, (placementAt (placed [entryOf .replay false] []) 3).stack = below ++ [e] ∧
      e.kind = .replay) ∧
    (placementAt (placed [] []) 3).stack = [] :=
  ⟨fun _ => ready _ _ rfl rfl rfl rfl, by decide, by decide,
    ⟨[entryOf .rotation false], entryOf .spot false, by decide⟩, ⟨[], entryOf .fallback true, by decide⟩,
    ⟨[], entryOf .replay false, by decide⟩, rfl⟩

/-- LIVE with this shadow. -/
def shadowed (m : Memory) : State := { lit with path := { PathUnit.reset 0 [] with shadow := m } }

theorem witness_SuspendAndResumeWriteTheFlag :
    WordReady lit 0x30 .sponsorWord ∧ WordReady (shadowed [(0x4F00, 1)]) 0x30 .sponsorWord ∧
    (31 : Byte).toNat ≤ 31 ∧ 31 < (32 : Byte).toNat ∧ sponsorSuspended lit.path.shadow 31 = false ∧
    sponsorSuspended (shadowed [(0x4F00, 1)]).path.shadow 31 = true ∧
    ∃ a : Nat, a ≠ sponsorOffset 31 :=
  ⟨ready _ _ rfl rfl rfl rfl, ready_of _ _ rfl rfl rfl rfl (by decide), by decide, by decide, by decide,
    by decide, 0x4F01, by decide⟩

theorem witness_ClearRequestsZeroExposureAndGame :
    WordReady lit 0x30 .showWord ∧ lit.clock.state ≠ .running ∧ lit.clock.config.timeouts ≤ 9 ∧
    (∃ a, ∀ x : Team, a < teamOffset x ∨ teamOffset x + 4 ≤ a) ∧
    WordReady (timed (ticking 9)) 0x30 .showWord ∧ (timed (ticking 9)).clock.state = .running :=
  ⟨ready _ _ rfl rfl rfl rfl, by decide, by decide, ⟨0x2004, fun x => by cases x <;> decide⟩,
    ready _ _ rfl rfl rfl rfl, rfl⟩

/-- This clock, a configuration pending. -/
def awaiting (c : ClockUnit) : ClockUnit := { c with configPending := true }

theorem witness_ClearGameTakesThePendingConfiguration :
    WordReady (timed (awaiting (ticking 9))) 0x30 .showWord ∧ (awaiting (ticking 9)).state = .running ∧
    (awaiting (ticking 9)).configPending = true :=
  ⟨ready _ _ rfl rfl rfl rfl, rfl, rfl⟩

/-- A geometry at the lower ends of the ranges, no two regions of which meet. -/
def plain : Geometry :=
  { canvasBase := 0x10000000, width := 640, height := 360, stride := 2560, scanTag := 1,
    ingestTag := 2, windowBase := 0x20000000, poolBase := 0x30000000, slotCount := 16,
    assetBase := 0x40000000, sectorSize := 65536 }

/-- This geometry taken, this mode in force, this one pending. -/
def moded (g : Geometry) (m : Mode) (pend : Option (Mode × Byte)) : State :=
  { State.reset with
    path := { PathUnit.reset 0 [] with geom := g },
    report := { ReportUnit.reset with mode := m, pendingMode := pend } }

theorem witness_ModeRequestsSetThePendingMode :
    (∀ g m pend, g.ingestTag = 2 → WordReady (moded g m pend) 0x30 .showWord) ∧
    (geometryRefusal (moded plain .pass none) = none ∧
      (moded plain .pass none).report.mode = .pass ∧
      (moded plain .pass none).report.pendingMode = none) ∧
    (geometryRefusal (moded plain .pass (some (.live, 1))) = none ∧
      (moded plain .pass (some (.live, 1))).report.pendingMode ≠ none) ∧
    (geometryRefusal (moded plain .live (some (.pass, 1))) = none ∧
      (moded plain .live (some (.pass, 1))).report.mode = .live ∧
      (moded plain .live (some (.pass, 1))).report.pendingMode ≠ none) ∧
    (moded plain .live none).report.mode = .live ∧ (moded plain .live none).report.pendingMode = none ∧
    badField (moded { plain with width := 624 } .pass none) = some 0x08 ∧
    badField (moded { plain with windowBase := 0x10000000 + 2560 * 360 - 256 } .pass none) = none ∧
    badPair (moded { plain with windowBase := 0x10000000 + 2560 * 360 - 256 } .pass none) = some (0, 1) :=
  ⟨fun g m pend h => ready_of _ _ rfl rfl rfl rfl (by
      show g.ingestTag ≠ 3
      omega),
    by decide⟩

theorem witness_AcceptedLayoutsAreDisjoint : geometryRefusal (moded plain .pass none) = none := by decide

/-- LIVE, the GATE_RUN line at this level, this clock unit. -/
def gated (g : Bool) (c : ClockUnit) : State := { timed c with gateRun := g }

/-- A DOWN clock STOPPED at a value, the soft enable so. -/
def stoppedAt (v : Nat) (soft : Bool) : ClockUnit := { ClockUnit.reset with value := v, soft := soft }

def overridden (c : ClockUnit) : ClockUnit :=
  { c with config := { c.config with gateOverride := true } }

def expiredAt0 (soft : Bool) : ClockUnit := { stoppedAt 0 soft with state := .expired }

theorem ready_gated (g : Bool) (c : ClockUnit) : WordReady (gated g c) 0x30 .clockWord :=
  ready _ _ rfl rfl rfl rfl

theorem witness_RunSwitchFollowsTheRunCondition :
    (∀ g c, WordReady (gated g c) 0x30 .clockWord) ∧
    (gated true (ticking 1)).clock.soft = true ∧
    ((expiredAt0 false).soft = false ∧ (expiredAt0 false).state = .expired) ∧
    ((stoppedAt 1 false).soft = false ∧ (stoppedAt 1 false).state = .stopped ∧
      ¬((gated false (stoppedAt 1 false)).gateRun = true ∨
        (stoppedAt 1 false).config.gateOverride = true)) ∧
    ((gated true (stoppedAt 1 false)).gateRun = true ∧
      ¬((stoppedAt 1 false).config.mode = .down ∧ (stoppedAt 1 false).value = 0)) ∧
    ((overridden (stoppedAt 0 false)).config.gateOverride = true ∧
      (stoppedAt 0 false).config.mode = .down ∧ (stoppedAt 0 false).value = 0) ∧
    ((stoppedAt 1 true).soft = true ∧ (stoppedAt 1 true).state ≠ .running) ∧
    ((ticking 1).soft = true ∧ (ticking 1).state = .running ∧ (ticking 1).configPending = false) ∧
    ((awaiting (ticking 1)).soft = true ∧ (awaiting (ticking 1)).state = .running ∧
      (awaiting (ticking 1)).configPending = true) := ⟨ready_gated, by decide⟩

theorem witness_SetLoadsTheGameClock :
    (∀ g c, WordReady (gated g c) 0x30 .clockWord) ∧
    (1 ≤ (1 : BitVec 32).toNat ∧ (5999999 : BitVec 32).toNat ≤ 5999999) ∧
    ((stoppedAt 0 true).state ≠ .running ∧
      ¬((stoppedAt 0 true).soft = true ∧ ((gated false (stoppedAt 0 true)).gateRun = true ∨
        (stoppedAt 0 true).config.gateOverride = true))) ∧
    ((stoppedAt 0 true).soft = true ∧ (gated true (stoppedAt 0 true)).gateRun = true) ∧
    (ticking 1).state = .running ∧ 5999999 < (6000000 : BitVec 32).toNat :=
  ⟨ready_gated, by decide⟩

theorem witness_AdjustMovesTheGameClock :
    (∀ g c, WordReady (gated g c) 0x30 .clockWord) ∧
    ({ ClockConfig.zero with mode := .up }).mode = .up ∧
    ((stoppedAt 1 true).config.mode = .down ∧ (stoppedAt 1 true).state ≠ .expired ∧
      (max 0 (min 5999999 (((stoppedAt 1 true).value : Int) + (1 : BitVec 32).toInt))).toNat ≠ 0) ∧
    ((max 0 (min 5999999 (((stoppedAt 1 true).value : Int) + (0xFFFFFFFF : BitVec 32).toInt))).toNat = 0 ∧
      (stoppedAt 1 true).state ≠ .running) ∧
    ((expiredAt0 true).state = .expired ∧
      ¬((expiredAt0 true).soft = true ∧ ((gated false (expiredAt0 true)).gateRun = true ∨
        (expiredAt0 true).config.gateOverride = true)) ∧
      (max 0 (min 5999999 (((expiredAt0 true).value : Int) + (1 : BitVec 32).toInt))).toNat ≠ 0) ∧
    (gated true (expiredAt0 true)).gateRun = true ∧
    ((ticking 1).state = .running ∧ (ticking 1).configPending = false ∧
      (max 0 (min 5999999 (((ticking 1).value : Int) + (0x80000000 : BitVec 32).toInt))).toNat = 0) ∧
    ((awaiting (ticking 1)).state = .running ∧ (awaiting (ticking 1)).configPending = true ∧
      (awaiting (ticking 1)).config.mode = .down ∧ (max 0 (min 5999999
        (((awaiting (ticking 1)).value : Int) + (0xFFFFFFFF : BitVec 32).toInt))).toNat = 0) :=
  ⟨ready_gated, by decide⟩

theorem witness_PeriodNextStartsTheNextPeriod :
    (∀ g c, WordReady (gated g c) 0x30 .clockWord) ∧ (stoppedAt 1 true).state ≠ .running ∧
    (ticking 1).state = .running ∧ (ticking 1).configPending = false ∧
    (awaiting (ticking 1)).state = .running ∧ (awaiting (ticking 1)).configPending = true :=
  ⟨ready_gated, by decide⟩

theorem witness_ShotAndHornRequestsActOnTheirPartOnly :
    (∀ g c, WordReady (gated g c) 0x30 .clockWord) ∧ (99999 : BitVec 32).toNat ≤ 99999 ∧
    99999 < (100000 : BitVec 32).toNat ∧ ClockUnit.reset.shotOn = false ∧
    ({ ClockUnit.reset with shotOn := true }).shotOn = true ∧
    (100 ≤ (100 : BitVec 16).toNat ∧ (5000 : BitVec 16).toNat ≤ 5000) ∧ (99 : BitVec 16).toNat < 100 ∧
    5000 < (5001 : BitVec 16).toNat := ⟨ready_gated, by decide⟩

theorem ready_replaying (r : ReplayUnit) : WordReady (replaying r) 0x30 .replayWord :=
  ready _ _ rfl rfl rfl rfl

theorem witness_ArmSetsTheClip :
    WordReady (replaying ring) 0x30 .replayWord ∧ (15 : Byte).toNat ≤ 15 ∧ (1 : BitVec 32) ≠ 0 ∧
    (20 : BitVec 32) ≠ 0 ∧ 1 ≤ (1 : Byte).toNat ∧ (8 : Byte).toNat ≤ 8 ∧ (0x81 : Byte).toNat % 4 ≤ 1 ∧
    (120 : Byte).toNat ≤ 120 ∧ (3 : Byte).toNat ≤ 3 ∧ (clipAt (replaying ring) 15).state ≠ .playing ∧
    (1 : BitVec 32).toNat ≤ (10 : BitVec 32).toNat ∧ present (replaying ring) 10 = true ∧
    3 ≤ unheldCount (replaying ring) ((replaying ring).replay.clips.modify 15 fun _ =>
      { state := .armed, inPoint := max 1 (runStart (replaying ring) 10), outPoint := 10, rate := 8,
        endAction := .returnLive, bumperFrames := 120,
        bumper := some (bumperDescriptor (replaying ring).path.shadow 3), autoDisarm := true }) :=
  ⟨ready_replaying _, by decide⟩

/-- The ring, the sequences 6 to 8 and 11 to 20 of it held by two armed clips. -/
def heldRing : ReplayUnit :=
  { ring with
    clips := [{ Clip.emptied with state := .armed, inPoint := 6, outPoint := 8 },
      { Clip.emptied with state := .armed, inPoint := 11, outPoint := 20 }] ++
      List.replicate 14 .emptied }

theorem witness_ArmIsRefused :
    (∀ r, WordReady (replaying r) 0x30 .replayWord) ∧ 15 < (16 : Byte).toNat ∧
    (∀ r ∈ [(0 : Byte), 9], r = 0 ∨ 8 < r.toNat) ∧ (∀ f ∈ [(2 : Byte), 3], 1 < f.toNat % 4) ∧
    120 < (121 : Byte).toNat ∧ 3 < (4 : Byte).toNat ∧
    (clipAt (replaying { ring with clips := [{ Clip.emptied with state := .playing }] }) 0).state =
      .playing ∧
    ((19 : BitVec 32).toNat < (20 : BitVec 32).toNat ∧ (clipAt (replaying ring) 0).state ≠ .playing) ∧
    (present (replaying ring) 5 = false ∧ ∃ x ∈ filledSeqs (replaying ring), 5 ≤ x) ∧
    (∀ x ∈ filledSeqs (replaying ring), x < 21) ∧
    present (replaying heldRing) 10 = true ∧ runStart (replaying heldRing) 10 = 6 :=
  ⟨ready_replaying, by decide, by decide, by decide, by decide, by decide, by decide, by decide,
    by decide, by decide, by decide, by decide⟩

theorem witness_ArmFindsNoRoom (clip : Clip) (a : clip.state = .armed) (o : clip.outPoint = 10)
    (i : clip.inPoint = max 9 (runStart (replaying heldRing) 10)) :
    unheldCount (replaying heldRing)
      ((replaying heldRing).replay.clips.modify 15 fun _ => clip) < 3 := by
  obtain ⟨state, inPoint, outPoint, rate, endAction, bumperFrames, bumper, autoDisarm⟩ := clip
  subst a o i
  exact Nat.lt_of_le_of_lt (Nat.le_of_eq (m := 1) rfl) (by decide)

/-- The replay unit with clip 15 so. -/
def clip15 (x : Clip) : ReplayUnit := { ring with clips := List.replicate 15 .emptied ++ [x] }

def armedClip : Clip := { playing with state := .armed }

theorem witness_DisarmAndResetRingReleaseTheSlots :
    (∀ r, WordReady (replaying r) 0x30 .replayWord) ∧ (15 : Byte).toNat ≤ 15 ∧ 15 < (16 : Byte).toNat ∧
    ((clipAt (replaying (clip15 armedClip)) 15).state = .armed ∧
      ∃ k, slotHeld (replaying (clip15 armedClip)) k = true ∧
        ∀ b, b ≠ 15 → (clipAt (replaying (clip15 armedClip)) b).holds
          (slotAt (replaying (clip15 armedClip)) k).seq = false) ∧
    (clipAt (replaying ring) 15).state = .empty ∧
    (clipAt (replaying (clip15 playing)) 15).state = .playing ∧
    (∀ x ∈ (clip15 armedClip).clips, x.state ≠ .playing) ∧
    ∃ x ∈ (clip15 playing).clips, x.state = .playing := by
  refine ⟨ready_replaying, by decide, by decide, ⟨by decide, 9, by decide, ?_⟩, by decide, by decide,
    by decide, playing, by decide, by decide⟩
  intro b hb
  have h : clipAt (replaying (clip15 armedClip)) b = .emptied := by
    by_cases h : b < 15
    · have : ∀ b < 15, clipAt (replaying (clip15 armedClip)) b = .emptied := by decide
      exact this b h
    · have : 16 ≤ b := by omega
      simp [clipAt, replaying, clip15, List.getD_eq_getElem?_getD, this]
  rw [h]
  rfl

theorem witness_PlayBecomesTheWaitingRequest :
    (∀ r, WordReady (replaying r) 0x30 .replayWord) ∧
    WordReady State.reset 0x30 .replayWord ∧
    (15 : Byte).toNat ≤ 15 ∧ 15 < (16 : Byte).toNat ∧ lit.report.mode = .live ∧
    State.reset.report.mode = .pass ∧ (clipAt (replaying (clip15 armedClip)) 15).state = .armed ∧
    (clipAt (replaying ring) 15).state ≠ .armed ∧ (clip15 armedClip).waiting = none ∧
    ({ clip15 armedClip with waiting := some (.play 15) }).waiting = some (.play (15 : Byte).toNat) ∧
    ({ clip15 armedClip with waiting := some .takeLive }).waiting ≠ none ∧
    ({ clip15 armedClip with waiting := some .takeLive }).waiting ≠ some (.play (15 : Byte).toNat) :=
  ⟨ready_replaying, ready _ _ rfl rfl rfl rfl, by decide⟩

theorem witness_TakeLiveBecomesTheWaitingRequest :
    (∀ r, WordReady (replaying r) 0x30 .replayWord) ∧
    ((frozenAt 6).replay.playback = .frozen ∧ (frozenAt 6).replay.waiting = none) ∧
    (ring.playback = .live ∧ ({ ring with waiting := some (.play 0) }).waiting = some (.play 0)) ∧
    ({ ring with playback := .leaving }).playback = .leaving ∧
    ({ ring with waiting := some .takeLive }).waiting = some .takeLive ∧ ring.waiting = none :=
  ⟨ready_replaying, by decide⟩

theorem witness_FreezeAndResumeActAtOnce :
    (∀ r, WordReady (replaying r) 0x30 .replayWord) ∧
    ({ ring with playback := .onAir }).playback = .onAir ∧
    ((frozenAt 6).replay.playback = .frozen ∧ (frozenAt 6).replay.clip = some 0) ∧
    ring.playback = .live := ⟨ready_replaying, by decide⟩

theorem witness_StepMovesAFrozenReplay :
    (∀ r, WordReady (replaying r) 0x30 .replayWord) ∧
    (∀ q, (frozenAt q).replay.playback = .frozen ∧ (frozenAt q).replay.clip = some 0) ∧
    (frozenAt 9).replay.position < (clipAt (frozenAt 9) 0).outPoint ∧
    (clipAt (frozenAt 10) 0).outPoint ≤ (frozenAt 10).replay.position ∧
    (clipAt (frozenAt 7) 0).inPoint < (frozenAt 7).replay.position ∧
    (frozenAt 6).replay.position ≤ (clipAt (frozenAt 6) 0).inPoint ∧
    ((0 : Byte) ≠ 1 ∧ (0 : Byte) ≠ 255) ∧ ({ ring with playback := .onAir }).playback = .onAir ∧
    ring.playback = .live := ⟨ready_replaying, fun _ => ⟨rfl, rfl⟩, by decide⟩

/-- LIVE with this message unit and band. -/
def ticked (m : MessageUnit) (k : TickerUnit) : State := { lit with msg := m, ticker := k }

def aMessage : Message := { id := 7, cls := .general, text := [1], queued := 0, deadline := 1000 }

/-- One message queued, the counts so. -/
def queueing (head tail : BitVec 16) (fetch : Option (BitVec 16)) : MessageUnit :=
  { MessageUnit.reset with head := head, tail := tail, fetch := fetch, queue := [aMessage] }

/-- The band in a state, with this prior state. -/
def bandIn (b : BandState) (prior : Option BandState) : TickerUnit :=
  { TickerUnit.reset with state := b, prior := prior }

theorem witness_TickerRequestsActAtOnce :
    (∀ m k, WordReady (ticked m k) 0x30 .tickerWord) ∧
    ((queueing 0 0 none).queue ≠ [] ∧ outstanding (ticked (queueing 0 0 none) .reset) = 0) ∧
    ((queueing 65535 0 none).queue ≠ [] ∧ (queueing 65535 0 none).fetch = none ∧
      0 < outstanding (ticked (queueing 65535 0 none) .reset)) ∧
    (queueing 0 1 (some 0)).fetch.isSome = true ∧ MessageUnit.reset.queue = [] ∧
    (bandIn .running none).state = .running ∧ (bandIn .paused none).state = .paused ∧
    (bandIn .hidden none).state = .hidden ∧
    (∀ b, (bandIn .suppressed (some b)).state = .suppressed ∧
      (bandIn .suppressed (some b)).prior = some b) :=
  ⟨fun _ _ => ready _ _ rfl rfl rfl rfl, by decide, by decide, by decide, by decide, by decide, by decide,
    by decide, fun _ => ⟨rfl, rfl⟩⟩

theorem witness_UnlistedCodesAreUnknown :
    (∀ w, WordReady lit 0x30 w) ∧
    ∀ w : CodedWord, w.lists 0 = false ∧ w.lists (BitVec.ofNat 8 (w.lastCode + 1)) = false ∧
      w.lists 255 = false :=
  ⟨fun _ => ready _ _ rfl rfl rfl rfl, fun w => by cases w <;> decide⟩

/-! ### Witnesses: lines, time, FRAME_START -/

theorem quiet_gated (g : Bool) (c : ClockUnit) : Quiet (gated g c) := quiet _ rfl rfl

/-- A DOWN clock that runs on EXTERNAL under a high gate. -/
def running (v : Nat) : ClockUnit :=
  { ClockUnit.reset with value := v, state := .running, soft := true }

theorem witness_GateEdgeStartsAndStopsTheClock :
    (∀ g c, Quiet (gated g c)) ∧
    ((stoppedAt 1 true).state = .stopped ∧ (stoppedAt 1 true).soft = true ∧
      ¬((stoppedAt 1 true).config.mode = .down ∧ (stoppedAt 1 true).value = 0)) ∧
    ((stoppedAt 0 true).config.mode = .down ∧ (stoppedAt 0 true).value = 0) ∧
    ((gated true (running 1)).gateRun = true ∧ (running 1).state = .running ∧
      (running 1).config.gateOverride = false ∧ (running 1).configPending = false) ∧
    ((gated true (awaiting (running 1))).gateRun = true ∧ (awaiting (running 1)).state = .running ∧
      (awaiting (running 1)).config.gateOverride = false ∧
      (awaiting (running 1)).configPending = true) ∧
    (expiredAt0 true).state = .expired ∧
    ((stoppedAt 1 false).soft = false ∧ (stoppedAt 1 false).state = .stopped) ∧
    ((ticking 1).config.gateOverride = true ∧ (ticking 1).soft = true ∧ (ticking 1).state = .running) ∧
    ((gated true (stoppedAt 0 true)).gateRun = true ∧ (stoppedAt 0 true).state = .stopped ∧
      (stoppedAt 0 true).config.gateOverride = false) := ⟨quiet_gated, by decide⟩

/-- An UP clock that runs on EXTERNAL, its set-point this. -/
def counting (v setPoint : Nat) : ClockUnit :=
  { running v with config := { ClockConfig.zero with mode := .up, setPoint := setPoint } }

theorem witness_PlainEdgesAndAdvances :
    (∀ g c, Quiet (gated g c)) ∧
    ((stoppedAt 0 false).source = .external ∧ (stoppedAt 0 false).state ≠ .running) ∧
    ((running 2).source = .external ∧ (running 2).config.mode = .down ∧ 2 ≤ (running 2).value) ∧
    ShotRunsOn (running 2) ∧ ShotRunsOn { running 2 with shotOn := true, shotValue := 2 } ∧
    ((counting 5999997 1).value + 1 < 5999999 ∧
      (counting 5999997 1).value + 1 ≠ (counting 5999997 1).config.setPoint) ∧
    ((ticking 2).source = .internal ∧ (ticking 2).returns = 0 ∧
      lossDue (gated false (ticking 2)) = false ∧ hornDue (gated false (ticking 2)) = false ∧
      expiryDue (gated false (ticking 2)) = false ∧ 2 ≤ (ticking 2).value) ∧
    (({ ticking 2 with returns := 6 }).returns ≠ 0 ∧ ({ ticking 2 with returns := 6 }).returns ≠ 7) ∧
    ((3 : HouseTime) - ClockUnit.reset.lastReturn).toNat ≤ 3 ∧
    3 < ((4 : HouseTime) - ClockUnit.reset.lastReturn).toNat ∧
    (lossDue (gated false (stoppedAt 0 false)) = false ∧ hornDue (gated false (stoppedAt 0 false)) = false ∧
      expiryDue (gated false (stoppedAt 0 false)) = false) :=
  ⟨quiet_gated, by decide, by decide, .inl rfl, .inr (by decide),
    ⟨by decide, (show (5999998 : Nat) ≠ 1 by omega)⟩, by decide, by decide, by decide, by decide, by decide⟩

/-- R60, R61: an advance on INTERNAL is a tick of an UP clock. -/
theorem witness_InternalTicksCountUp :
    let s := gated false { counting 5999997 1 with source := .internal }
    s.clock.state = .running ∧ s.clock.config.mode = .up ∧ s.clock.value + 1 < 5999999 ∧
    hornDue s = false ∧ expiryDue s = false ∧
    after .houseTimeAdvance s (fun t => t.clock.value) = some 5999998 := by decide

/-- TB_IN has been silent for two milliseconds, the shot clock at this value. -/
def silent (c : ClockUnit) (shot : Nat) : State :=
  gated true { c with watch := some 0, house := 2, shotOn := true, shotValue := shot }

/-- R62, R67, R68, R70: three ticks at once on an UP clock, past its set-point and to its limit, on a DOWN
clock at 2, and with the shot clock at 1 and at 3. -/
theorem witness_LossCountsEveryClock :
    (∀ c ∈ [counting 5 3, counting 5999995 1, counting 4 8, counting 4 7, counting 4 5,
        counting 5999996 1, counting 5999999 1, running 4, running 3, running 1], ∀ n ∈ [0, 1, 3, 4],
      let s := silent c n;
      s.clock.state = .running ∧ s.clock.source = .external ∧ s.clock.watch = some 0 ∧
      reached (s.clock.house + 1) (0 + 3) = true ∧ hornDue s = false ∧ expiryDue s = false ∧
      periodSpotEnable s.path.shadow = false) ∧
    ∀ x ∈ [(counting 5 3, 1, 8, 0, GameState.running), (counting 4 7, 9, 7, 6, .running),
        (counting 5999997 1, 9, 5999999, 7, .stopped), (running 2, 9, 0, 7, .expired)],
      let t := houseAdvance (silent x.1 x.2.1);
      (t.clock.value, t.clock.shotValue, t.clock.state) = x.2.2 := by decide

theorem witness_TimebaseIsLostAndRestored :
    (∀ g c, Quiet (gated g c)) ∧
    (let c := { running 4 with watch := some 0, house := 2, shotOn := true, shotValue := 4 };
      c.state = .running ∧ c.source = .external ∧ c.watch = some 0 ∧
      reached (c.house + 1) (0 + 3) = true ∧ hornDue (gated true c) = false ∧
      expiryDue (gated true c) = false ∧ c.config.mode = .down ∧ 4 ≤ c.value ∧ 4 ≤ c.shotValue) ∧
    (let c := { ticking 4 with returns := 7, house := 3 };
      c.source = .internal ∧ c.returns = 7 ∧ (c.house - c.lastReturn).toNat ≤ 3) :=
  ⟨quiet_gated, by decide⟩

/-- The clock stands still, the message unit is this. -/
def waitingFor (m : MessageUnit) (c : ClockUnit) : State := { timed c with msg := m }

theorem witness_AdvancesEndHornsAndExpireMessages :
    (∀ m c, Quiet (waitingFor m c)) ∧
    (let s := waitingFor .reset { ClockUnit.reset with hornGame := some 1 };
      lossDue s = false ∧ ¬(s.clock.state = .running ∧ s.clock.source = .internal) ∧
      hornDue s = true ∧ expiryDue s = false) ∧
    (let s := waitingFor (queueing 0 0 none) { ClockUnit.reset with house := 999 };
      lossDue s = false ∧ ¬(s.clock.state = .running ∧ s.clock.source = .internal) ∧
      expiryDue s = true ∧ hornDue s = false ∧ s.msg.queue = [] ++ aMessage :: [] ∧
      reached (s.clock.house + 1) aMessage.deadline = true) :=
  ⟨fun _ _ => quiet _ rfl rfl, by decide⟩

/-- R60, R61: one advance ends a horn, expires a message and ticks an UP clock on INTERNAL. -/
theorem witness_AdvancesDoAllAtOnce :
    let s := waitingFor (queueing 0 0 none)
      { counting 5 9 with house := 999, source := .internal, hornGame := some 1000 }
    lossDue s = false ∧ (s.clock.state = .running ∧ s.clock.source = .internal) ∧ ShotRunsOn s.clock ∧
    (s.clock.config.mode = .up ∧ s.clock.value + 1 < 5999999 ∧
      s.clock.value + 1 ≠ s.clock.config.setPoint) ∧
    hornDue s = true ∧ expiryDue s = true ∧
    after .hornEnd s (fun t => (t.clock.value, t.clock.hornGame, t.msg.queue.length)) =
      some (6, none, 0) := by
  unfold ShotRunsOn
  decide

/-- A shadow whose period-end spot is enabled: sponsor 31 on placement 3, dwell 1. -/
def periodSpot : Memory := [(0x290, 1), (0x291, 31), (0x292, 3), (0x294, 1)]

/-- The placement of `placed`, the period-end spot enabled, this clock. -/
def expiring (c : ClockUnit) : State :=
  { placed [] [] with clock := c, path := { PathUnit.reset 0 [] with shadow := periodSpot } }

theorem witness_GameClockExpiryStopsAtZero :
    (∀ c, Quiet (expiring c)) ∧ (∀ g c, Quiet (gated g c)) ∧
    (OnlyATick (expiring (running 1)) ∧ OnlyATick (gated false (ticking 0))) ∧
    ShotRunsOn (running 1) ∧
    ((running 1).state = .running ∧ (running 1).config.mode = .down ∧ (running 1).value ≤ 1 ∧
      (ticking 0).value ≤ 1) ∧
    (let s := expiring (running 1);
      let m := s.path.shadow;
      let x := placementAt s (periodSpotPlacement m);
      periodSpotEnable m = true ∧ periodSpotSponsor m ≤ 31 ∧ periodSpotPlacement m ≤ 3 ∧
      periodSpotDwell m ≠ 0 ∧ s.report.mode = .live ∧
      periodSpotPlacement m < s.rot.placements.length ∧ x.fields.bound = false ∧
      x.fields.member (periodSpotSponsor m) = true ∧
      sponsorSuspended m (periodSpotSponsor m) = false ∧
      inStack x.stack (periodSpotSponsor m) = false ∧
      ∀ y ∈ x.spots, y.sponsor ≠ periodSpotSponsor m) ∧
    ((running 1).configPending = false ∧ periodSpotEnable lit.path.shadow = false) :=
  ⟨fun _ => quiet _ rfl rfl, quiet_gated, ⟨.inl rfl, .inr (by decide)⟩, .inl rfl, by decide⟩

theorem witness_ShotClockExpirySoundsItsHorn :
    (∀ g c, Quiet (gated g c)) ∧ (∀ c : ClockUnit, c.source = .external → OnlyATick (gated true c)) ∧
    (let c := { running 2 with shotOn := true, shotValue := 1 };
      c.source = .external ∧ c.state = .running ∧ c.shotOn = true ∧ c.shotValue = 1 ∧
      c.config.mode = .down ∧ 2 ≤ c.value) ∧
    (let c := { counting 5999997 1 with shotOn := true, shotValue := 1 };
      c.source = .external ∧ c.state = .running ∧ c.shotOn = true ∧ c.shotValue = 1 ∧
      c.config.mode = .up ∧ c.value + 1 < 5999999 ∧ c.value + 1 ≠ c.config.setPoint) :=
  ⟨quiet_gated, fun _ h => .inl h, by decide⟩

theorem witness_UpClockSetPointAndLimit :
    (∀ g c, Quiet (gated g c)) ∧ (∀ c : ClockUnit, c.source = .external → OnlyATick (gated true c)) ∧
    ((counting 5999997 5999998).state = .running ∧ (counting 5999997 5999998).source = .external ∧
      (counting 5999997 5999998).config.mode = .up) ∧ ShotRunsOn (counting 5999997 5999998) ∧
    ((counting 5999997 5999998).value + 1 = (counting 5999997 5999998).config.setPoint ∧
      (counting 5999997 5999998).value + 1 < 5999999) ∧
    (∀ v ∈ [5999998, 5999999], 5999998 ≤ (counting v 1).value ∧ (counting v 1).value ≤ 5999999 ∧
      (counting v 1).config.setPoint ≠ 5999999) ∧
    (counting 5999999 5999999).value = 5999999 ∧
    (awaiting (counting 5999999 5999999)).configPending = true :=
  ⟨quiet_gated, fun _ h => .inl h, by decide, .inl rfl, by decide⟩

theorem witness_FrameStartBeginsAFrame : modeAhead State.reset = .pass ∧ modeAhead lit = .live ∧
    modeAhead (framed lit) = .live :=
  ⟨rfl, rfl, rfl⟩

/-- In PASS with a GO_LIVE of tag 9 pending. -/
def switching : State :=
  { State.reset with report := { ReportUnit.reset with pendingMode := some (.live, 9) } }

/-- R20, R31: a GO_LIVE before the first FRAME_START leaves frame 1 in PASS (log 30). -/
theorem test_frame_one_is_pass :
    after .frameStart switching (fun t => (t.report.mode, t.report.pendingMode)) =
      some (.pass, some (.live, 9)) ∧
    after .frameStart (framed switching) (fun t => (t.report.mode, t.report.pendingMode)) =
      some (.live, none) := by decide

/-- The least creative. -/
def dot : Descriptor := { addr := 0, stride := 16, width := 1, height := 1, dwell := 0 }

/-- Every layer from 3 on has something to draw at the next FRAME_START. -/
def drawing : State :=
  { placed [{ entryOf .rotation false with creative := dot, dwell := none }] [] with
    path := { PathUnit.reset 0 [] with
      shadow := [(0x100, 1), (0x140, 1), (0x180, 1), (0x1C0, 1), (0x200, 1), (0x306, 16), (0x308, 1),
        (0x30A, 1)] },
    ticker := bandIn .paused none,
    score := { ScoreUnit.reset with flash := some { team := .home, creative := dot, remaining := 9 } },
    replay := { ring with
      clips := { playing with bumper := some dot } :: List.replicate 15 .emptied,
      playback := .entering, clip := some 0, bumper := some (0, 10) } }

/-- R8: the record's opacity of a TRANSITION layer that is not drawn stays out of the plan. -/
theorem test_transition_opacity :
    after .frameStart (shadowed [(0x42, 9), (0x202, 9)])
      (fun t => t.comp.plan.map fun p => p.layers.map PlanLayer.opacity) =
      some (some [9, 0, 0, 0, 0, 0, 0, 0]) := by decide

theorem witness_FrameStartDrawsTheLayers :
    after .frameStart drawing (fun t => (t.comp.plan.map fun p => p.layers.map PlanLayer.drawn)) =
      some (some [false, false, false, true, true, true, true, true]) := by decide

/-- LIVE with this shadow, replay unit and band, and these messages queued. -/
def banded (m : Memory) (r : ReplayUnit) (k : TickerUnit) (q : List Message) : State :=
  { shadowed m with replay := r, ticker := k, msg := { MessageUnit.reset with queue := q } }

/-- One band entry, its left edge here. -/
def entryAt (x : Int) : BandEntry := { id := 7, text := [1], width := 8, x := x }

theorem witness_FrameStartHidesTheBand :
    ∀ k ∈ [bandIn .running none, bandIn .suppressed (some .paused)],
      let s := banded [(0x2AB, 1)] (frozenAt 7).replay k []
      after .frameStart s programSource = some (.slot 6) ∧ hideOnReplay s.path.shadow = true := by
  decide

theorem witness_FrameStartMovesTheBand :
    (∀ k ∈ [bandIn .paused none, bandIn .suppressed (some .paused), bandIn .hidden none,
        bandIn .suppressed (some .hidden), bandIn .running none, bandIn .suppressed (some .running)],
      after .frameStart (banded [] ring k []) programSource = some .liveCanvas ∧
      (k.state = .suppressed ∨ k.prior = none)) ∧
    (startLevel [] ≤ [aMessage].length ∧ ¬startLevel [] ≤ ([] : List Message).length) ∧
    ((entryAt (layerW [] 5 : Nat)).x + 8 + (bandGap [] : Int) > (layerW [] 5 : Nat)) ∧
    ¬(List.replicate 8 (entryAt 0)).length < 8 ∧ ([] : List BandEntry).length < 8 := by decide

/-- A message waits behind `n` others, the intake counts so, MSGHOLD high, marks 6 and 2. -/
def queuedBehind (n : Nat) (tail : BitVec 16) : State :=
  let s := banded [(0x2A7, 1), (0x2AC, 6), (0x2AD, 2)] .reset (bandIn .running none)
    (List.replicate (n + 1) aMessage)
  { s with msg := { s.msg with tail := tail, hold := true } }

/-- R145, the worked marks: the head leaves depth 3 and the line stays, depth 2 and it falls; R137: the
departure starts the fetch an outstanding record waits for, not one into a full queue. -/
theorem witness_FrameStartTakesTheQueueHead :
    after .frameStart (queuedBehind 3 0) (fun t => (t.msg.queue.length, t.msg.hold, t.msg.fetch)) =
      some (3, true, none) ∧
    after .frameStart (queuedBehind 2 1) (fun t => (t.msg.queue.length, t.msg.hold, t.msg.fetch)) =
      some (2, false, some 0) ∧
    after .frameStart (queuedBehind 32 1) (fun t => (t.msg.queue.length, t.msg.fetch)) =
      some (32, none) := by decide

/-- A mode pends, or none; a refresh is being written, or none. -/
def reportingTo (pend : Option (Mode × Byte)) (snapshot : Option (List Byte)) : State :=
  framed { lit with report := { lit.report with pendingMode := pend, snapshot := snapshot } }

theorem witness_FrameStartTakesModeAndRefresh :
    (∀ p s, Quiet (reportingTo p s) ∧ RingOk (reportingTo p s) ∧ PlacesOk (reportingTo p s) ∧
      (reportingTo p s).report.pendingMode = p ∧ (reportingTo p s).report.snapshot = s ∧
      (reportingTo p s).comp.plan ≠ none) ∧
    after .frameStart (reportingTo (some (.pass, 9)) (some [])) (fun t =>
      (t.report.held, t.report.produce, (t.report.ring.getD 0 .zero).detail.take 3)) =
      some (some .frameStart, 1, [1, 0, 9]) :=
  ⟨fun _ _ => ⟨quiet _ rfl rfl, ringOk_empty _ rfl rfl, placesOk_blank _ rfl, rfl, rfl, nofun⟩, by decide⟩

/-- LIVE with this flash, and this start asked for. -/
def flashing (n : Nat) (ask : Option Team) : State :=
  { lit with score := { ScoreUnit.reset with
      flash := some { team := .home, creative := .zero, remaining := n }, flashAsk := ask } }

theorem witness_FlashEndsAfterItsFrames :
    ∀ ask ∈ [none, some Team.away], modeAhead (flashing 1 ask) = .live ∧
      (flashing 1 ask).score.flash = some { team := .home, creative := .zero, remaining := 1 } ∧
      (flashing 1 ask).score.flashAsk = ask := by decide

/-- Each of the 12 bug fields shows the source of its place in R91's table, in two cells. -/
def bugTable : Memory :=
  writeAll [] (((List.range 12).flatMap fun f =>
      [(0x310 + f * 8, BitVec.ofNat 8 (f + 1)), (0x311 + f * 8, 2)]) ++
    [(0x2000, 103), (0x2002, 12), (0x2003, 3), (0x2004, 14), (0x2005, 15), (0x2006, 16), (0x2020, 7)])

/-- That bug, this shot clock beside 12:00 on a DOWN clock, and this replay. -/
def bugged (on : Bool) (shot : Nat) (r : ReplayUnit) : State :=
  { shadowed bugTable with
    clock := { ClockUnit.reset with value := 720000, shotOn := on, shotValue := shot }, replay := r }

/-- R91 to R95: 103 and 7, the abbreviations' left two codes, 3 and 0, 12 and 0, period 1, 12:00, 24, and
the stamp 0.0 of the slot on air, all in two cells; SHOT blank above the game clock and when OFF,
REPLAY_CLOCK over the live canvas. -/
theorem witness_FrameStartRendersTheFields :
    after .frameStart (bugged true 24000 (frozenAt 7).replay) (fun t =>
      t.score.fields.map RenderedField.codes) =
      some [[1, 4], [8], [14, 15], [0, 0], [4], [1], [2, 3], [1], [2], [1, 1], [3, 5], [12, 1]] ∧
    after .frameStart (bugged true 720001 ring) (fun t =>
      (t.score.fields.drop 10).map RenderedField.codes) = some [[], []] ∧
    after .frameStart (bugged false 24000 ring) (fun t =>
      (t.score.fields.drop 10).map RenderedField.codes) = some [[], []] ∧
    (bugged true 720000 ring).clock.value = 720000 := by decide

theorem witness_FlashCountsDown :
    ∀ n ∈ [2, 9], ∀ ask ∈ [none, some Team.away], modeAhead (flashing n ask) = .live ∧
      after .frameStart (flashing n none) (fun t => t.score.flash.map Flash.remaining) =
        some (some (n - 1)) := by decide

/-- The worked clip on air in this playback state. -/
def onAir (b : Playback) (bumper : Option (Nat × Nat)) (x : Clip) (q counter : Nat) : State :=
  replaying { ring with
    clips := x :: List.replicate 15 .emptied, playback := b, clip := some 0, position := q,
    counter := counter, bumper := bumper }

theorem witness_ReplayAdvancesAtItsEnds :
    (∀ b i x q n, AdvanceAhead (onAir b i x q n) ∧ (onAir b i x q n).replay.clip = some 0 ∧
      0 < (onAir b i x q n).replay.clips.length) ∧
    ((onAir .entering (some (9, 10)) playing 6 0).replay.playback = .entering ∧
      (onAir .entering (some (9, 10)) playing 6 0).replay.bumper = some (9, 10) ∧ 10 ≤ 9 + 1) ∧
    ((onAir .leaving (some (9, 10)) playing 10 0).replay.playback = .leaving ∧
      (onAir .leaving (some (9, 10)) playing 10 0).replay.bumper = some (9, 10)) ∧
    (∀ x ∈ [playing, { playing with bumperFrames := 0 }, { playing with endAction := .holdLast }],
      let s := onAir .onAir none x 10 1;
      s.replay.playback = .onAir ∧ (clipAt s 0).rate ≤ s.replay.counter + 1 ∧
      (clipAt s 0).outPoint ≤ s.replay.position ∧ present s s.replay.position = true) ∧
    (playing.endAction = .returnLive ∧ 0 < playing.bumperFrames) :=
  ⟨fun _ _ _ _ _ => ⟨⟨rfl, rfl, rfl⟩, rfl, by simp [onAir, replaying]⟩, by decide⟩

/-- Of the statement about the commands that name a FRAME_START's cases: each replay case is due. -/
theorem witness_NamedReplayCases :
    (∀ x ∈ [(Instr.enteringBumperEnd, Playback.entering, some (9, 10), Playback.onAir),
        (.leavingBumperEnd, .leaving, some (9, 10), .live), (.clipEndAction, .onAir, none, .leaving)],
      let s := onAir x.2.1 x.2.2.1 playing 10 1
      modeAhead s = .live ∧ AdvanceAhead s ∧ s.replay.clip = some 0 ∧ s.replay.bumper = x.2.2.1 ∧
      (clipAt s 0).rate ≤ s.replay.counter + 1 ∧ (clipAt s 0).outPoint ≤ s.replay.position ∧
      after x.1 s (fun t => t.replay.playback) = some x.2.2.2) := by
  unfold AdvanceAhead
  decide

/-- That replay with a request waiting, a cut pending or not. -/
def asking (b : Playback) (x : Clip) (wait : Option Waiting) (cut : Bool) : State :=
  { onAir b none x 7 0 with replay := { (onAir b none x 7 0).replay with
      clip := if b = .live then none else some 0, waiting := wait, cutPending := cut } }

theorem witness_ReplayCarriesOutRequestsAndCuts :
    (∀ b x wait cut, modeAhead (asking b x wait cut) = .live ∧ Quiet (asking b x wait cut) ∧
      RingOk (asking b x wait cut) ∧ PlacesOk (asking b x wait cut) ∧
      (asking b x wait cut).replay.waiting = wait ∧
      (asking b x wait cut).replay.cutPending = cut ∧
      (asking b x wait cut).replay.playback = b) ∧
    (∀ b, b ≠ .live → (asking b playing none true).replay.clip = some 0) ∧
    (∀ n ∈ [0, 1], let x := { armedClip with bumperFrames := n };
      (clipAt (asking .live x (some (.play 0)) false) 0).state = .armed ∧
      (clipAt (asking .frozen x (some (.play 0)) false) 0).state = .armed) ∧
    (clipAt (asking .live armedClip (some (.play 15)) false) 15).state ≠ .armed ∧
    (∀ n ∈ [0, 1], let x := { playing with bumperFrames := n };
      (clipAt (asking .onAir x (some .takeLive) false) 0).bumperFrames = n) :=
  ⟨fun b x wait cut => ⟨rfl, quiet _ rfl rfl,
      ringOk_empty _ rfl rfl, placesOk_blank _ rfl, rfl, rfl, rfl⟩,
    fun b h => by cases b <;> first | exact absurd rfl h | rfl, by decide⟩

/-- That replay in PASS, a slot filling. -/
def passing (s : State) : State := { s with report := { s.report with mode := .pass } }

/-- R131: a waiting TAKE_LIVE finds a LIVE playback. R107, R124, R133: PASS arms the playing clip, or empties
it under auto-disarm, and abandons the FILLING slot. -/
theorem witness_ReplayFindsNothingOrPass :
    after .frameStart (asking .live playing (some .takeLive) false) (fun t => t.replay.waiting) =
      some none ∧
    (∀ auto ∈ [false, true], let s := passing (asking .onAir { playing with autoDisarm := auto } none true);
      modeAhead s = .pass ∧ s.replay.clip = some 0 ∧ s.replay.fill = some 4 ∧
      after .frameStart s (fun t => ((clipAt t 0).state, (slotAt t 4).state, t.replay.position)) =
        some (if auto then .empty else .armed, .empty, 0)) ∧
    modeAhead (passing (asking .live playing none false)) = .pass := by decide

/-- Ch. 7: bumper frame 8 of 10 is followed by frame 9, the second frame of position 9 by position 10. -/
theorem witness_ReplayAdvancesInside :
    (∀ b ∈ [Playback.entering, .leaving], let s := onAir b (some (8, 10)) playing 10 0
      AdvanceAhead s ∧ s.replay.playback = b ∧ s.replay.bumper = some (8, 10) ∧
      after .frameStart s (fun t => t.replay.bumper) = some (some (9, 10))) ∧
    (∀ n ∈ [0, 1], let s := onAir .onAir none playing 9 n
      AdvanceAhead s ∧ s.replay.clip = some 0 ∧ (clipAt s 0).rate = 2 ∧
      s.replay.position < (clipAt s 0).outPoint ∧
      after .frameStart s (fun t => (t.replay.position, t.replay.counter)) =
        some (if n = 0 then (9, 1) else (10, 0))) ∧
    (AdvanceAhead lit ∧ lit.replay.playback = .live) ∧
    (AdvanceAhead (frozenAt 7) ∧ (frozenAt 7).replay.playback = .frozen ∧
      after .frameStart (frozenAt 7) (fun t => t.replay.lastShown) = some 7) := by
  unfold AdvanceAhead
  decide

/-- That replay in a frame, the REPLAY word's places and the pending mode as given. -/
def worded (s : State) (latest previous : Place) (pend : Option (Mode × Byte)) : State :=
  framed { s with report := { s.report with
      outcomes := s.report.outcomes.set 3 { latest := latest, previous := previous },
      pendingMode := pend } }

def placeOf (tag : Byte) (mark : Bool) : Place :=
  { tag := tag, outcome := some .accepted, mark := mark }

/-- The tag and the outcome of the REPLAY word's two places. -/
def replayRow (t : State) : List (Byte × Option ReqOutcome) :=
  [((outcomeRow t .replayWord).latest.tag, (outcomeRow t .replayWord).latest.outcome),
    ((outcomeRow t .replayWord).previous.tag, (outcomeRow t .replayWord).previous.outcome)]

/-- R183: the waiting PLAY of tag 40, behind a FREEZE of tag 41, is superseded by a cut and by PASS; the
PLAY of a clip not ARMED is refused under its tag, or without notice where its place is gone. -/
theorem witness_ReplayWordFollowsTheWaitingRequest :
    (∀ s p q m, Quiet s → RingOk s → PlacesOk s → Quiet (worded s p q m) ∧ RingOk (worded s p q m) ∧
      PlacesOk (worded s p q m)) ∧
    (∀ m ∈ [none, some (Mode.pass, (7 : Byte))],
      after .frameStart (worded (asking .onAir playing (some (.play 1)) m.isNone) (placeOf 41 false)
        (placeOf 40 true) m) replayRow = some [(41, some .accepted), (40, some .superseded)]) ∧
    (∀ p ∈ [(true, false), (false, true), (false, false)],
      after .frameStart (worded (asking .live .emptied (some (.play 0)) false) (placeOf 41 p.1)
          (placeOf 40 p.2) none) (fun t => (replayRow t, (t.report.ring.getD 0 .zero).detail.take 4)) =
        some (if p.1 then ([(41, some .notArmed), (40, some .accepted)], [3, 41, 4, 13])
          else if p.2 then ([(41, some .accepted), (40, some .notArmed)], [3, 40, 4, 13])
          else ([(41, some .accepted), (40, some .accepted)], [0, 0, 0, 0]))) ∧
    (∀ wait cut, (asking .live playing wait cut).replay.playback = .live) :=
  ⟨fun _ _ _ _ a b c => ⟨a, b, c⟩, by decide, by decide, fun _ _ => rfl⟩

/-- The stack of `placed` on placement 3, enabled in the shadow. -/
def rotating (e : StackEntry) : State :=
  { placed [e] [] with path := { PathUnit.reset 0 [] with shadow := [(0x100, 1)] } }

theorem witness_EndedRotationEntryRotates :
    ∀ e ∈ [entryOf .rotation true, { entryOf .rotation false with dwell := some 1 }],
      modeAhead (rotating e) = .live ∧ (rotating e).rot.placements.length = 4 ∧
      (placementAt (rotating e) 3).stack = [e] ∧ e.kind = .rotation ∧ e.sponsor = some 31 ∧
      (e.endMark = true ∨ e.dwell = some 1) ∧ layerEnable (rotating e).path.shadow 3 = true ∧
      (readPlacement (rotating e).path.shadow 3).bound = false ∧
      (placementAt (rotating e) 3).fields.bound = false ∧
      sponsorSuspended (rotating e).path.shadow 31 = false := by decide

/-- What the second part asks of a state and a placement. -/
def Turning (s : State) (q : Nat) : Prop :=
  modeAhead s = .live ∧ q < 4 ∧ s.rot.placements.length = 4 ∧ layerEnable s.path.shadow q = true ∧
  (readPlacement s.path.shadow q).bound = (placementAt s q).fields.bound

/-- Placement 3 enabled, with this stack, these spots, this much more of the shadow. -/
def turning (stack : List StackEntry) (spots : List Spot) (m : Memory) : State :=
  { placed stack spots with path := { PathUnit.reset 0 [] with shadow := (0x100, 1) :: m } }

theorem witness_PlacementsTurnAtAFrameStart :
    (∀ stack ∈ [[], [entryOf .rotation false], [entryOf .rotation true],
        [{ entryOf .rotation false with sponsor := some 30 }, entryOf .spot true]],
      ∀ m ∈ [[], [((0x4F00 : Nat), (1 : Byte))]], ∀ spots ∈ [[], [waitingSpot]],
      Turning (turning stack spots m) 3 ∧ (readPlacement (turning stack spots m).path.shadow 3).bound = false) ∧
    Quiet (turning [] [waitingSpot] []) ∧ RingOk (turning [] [waitingSpot] []) ∧
    PlacesOk (turning [] [waitingSpot] []) ∧
    (sponsorSuspended (turning [] [] [(0x4F00, 1)]).path.shadow 31 = true ∧
      sponsorSuspended (turning [] [] []).path.shadow 31 = false) ∧
    ((entryOf .rotation true).endMark = true ∧ (entryOf .rotation false).dwell = some 2) := by
  exact ⟨by unfold Turning; decide, quiet _ rfl rfl, ringOk_empty _ rfl rfl, placesOk_blank _ rfl,
    by decide, by decide⟩

/-- Placement 3 with this stack and a spot of sponsor 31, the only one that pends, over this shadow. -/
def lastSpot (stack : List StackEntry) (m : Memory) : State :=
  { placed stack [waitingSpot] with path := { PathUnit.reset 0 [] with shadow := m } }

/-- Cause and placement of the SPOT_DROPPED of the FRAME_START: the layer off (3), the sponsor SUSPENDED
(0), no member any more (1), with no usable creative over an entry that stays (2). -/
theorem witness_SpotsAreDropped :
    (∀ stack m, Quiet (lastSpot stack m) ∧ RingOk (lastSpot stack m) ∧ PlacesOk (lastSpot stack m) ∧
      (placementAt (lastSpot stack m) 3).spots = [waitingSpot]) ∧
    (∀ r < 3, (placementAt (lastSpot [] []) r).spots = []) ∧
    (∀ x ∈ [(([] : Memory), (3 : Byte)), ([(0x100, 1), (0x10F, 0x80), (0x4F00, 1)], 0),
        ([(0x100, 1)], 1), ([(0x100, 1), (0x10F, 0x80)], 2)],
      after .frameStart (lastSpot [{ entryOf .rotation false with sponsor := some 30 }] x.1) (fun t =>
        ((placementAt t 3).spots.length, (placementAt t 3).stack.length,
          (t.report.ring.getD 0 .zero).detail.take 3)) =
        some (0, if x.2 = 3 then 0 else 1, [31, 3, x.2])) ∧
    (let s := lastSpot [] [(0x100, 1), (0x111, 2)];
      layerEnable s.path.shadow 3 = true ∧
      (readPlacement s.path.shadow 3).bound ≠ (placementAt s 3).fields.bound) :=
  ⟨fun _ _ => ⟨quiet _ rfl rfl, ringOk_empty _ rfl rfl, placesOk_blank _ rfl, rfl⟩, by decide, by decide,
    by decide⟩

/-- R41, R44: placement 0, SEPARATE, passes over the sponsor on top of placement 1, which stays there, and
takes the next. -/
def separate : State :=
  { shadowed [(0x40, 1), (0x48, 16), (0x4A, 16), (0x4C, 3), (0x51, 1), (0x80, 1), (0x8C, 3), (0x3014, 16),
      (0x3018, 1), (0x301A, 1), (0x301C, 5), (0x3114, 16), (0x3118, 1), (0x311A, 1), (0x311C, 5)] with
    rot := { RotationUnit.reset with
      placements := .reset ::
        { Placement.reset with stack := [{ entryOf .rotation false with sponsor := some 0 }] } ::
        List.replicate 2 .reset } }

theorem witness_SeparatePassesOverTopsElsewhere :
    modeAhead separate = .live ∧ (readPlacement separate.path.shadow 0).separate = true ∧
    (stackAfterEnds separate false 1).map StackEntry.sponsor = [some 0] ∧
    after .frameStart separate (fun t => (List.range 4).map fun q =>
      (placementAt t q).stack.map StackEntry.sponsor) = some [[some 1], [some 0], [], []] := by decide

/-- Placement 3 enabled and bound, with this stack; the plan in force shows this source, the replay
stands as given. -/
def bound (stack : List StackEntry) (source : Source) (r : ReplayUnit) : State :=
  { fielded stack [(0x100, 1), (0x111, 2)] (fun f => { f with bound := true }) with
    replay := r,
    comp := { CompUnit.reset with
      plan := some { frame := 1, mode := .live, source := source, layers := [], erred := [] } } }

theorem witness_BoundPlacementsFollowTheReplay :
    (∀ source, modeAhead (bound [entryOf .replay false] source ring) = .live) ∧
    (∀ stack ∈ [[], [entryOf .replay false], [entryOf .fallback false]],
      Turning (bound stack (.slot 6) ring) 3 ∧
      (readPlacement (bound stack (.slot 6) ring).path.shadow 3).bound = true ∧
      (∃ p k, (bound stack (.slot 6) ring).comp.plan = some p ∧ p.source = .slot k) ∧
      after .frameStart (bound stack (.slot 6) ring) programSource = some .liveCanvas) ∧
    Turning (bound [] .liveCanvas (frozenAt 7).replay) 3 ∧
    after .frameStart (bound [] .liveCanvas (frozenAt 7).replay) programSource = some (.slot 6) := by
  refine ⟨fun _ => rfl, fun stack h => ?_, by unfold Turning; decide, by decide⟩
  simp only [List.mem_cons, List.not_mem_nil, or_false] at h
  rcases h with rfl | rfl | rfl <;>
    exact ⟨by unfold Turning; decide, by decide, ⟨_, 6, rfl, rfl⟩, by decide⟩

/-- R55: a bound placement's entry stays while the program goes on being a slot, a FALLBACK one until its
END. -/
theorem witness_BoundEntriesStay :
    (∀ e ∈ [{ entryOf .replay false with dwell := none }, { entryOf .fallback false with dwell := none }],
      let s := bound [e] (.slot 6) (frozenAt 7).replay
      Turning s 3 ∧ (placementAt s 3).stack = [e] ∧ e.dwell = none ∧
      after .frameStart s (fun t => ((placementAt t 3).stack, programSource t)) = some ([e], .slot 6)) ∧
    (let e := { entryOf .fallback true with sponsor := none, dwell := none };
      let s := bound [e] (.slot 6) (frozenAt 7).replay;
      Turning s 3 ∧ (placementAt s 3).stack = [e] ∧
      after .frameStart s (fun t => ((placementAt t 3).stack.map StackEntry.endMark, programSource t)) =
        some ([false], .slot 6)) := by
  unfold Turning
  decide

/-! ### Witnesses: traffic -/

/-- LIVE with this small geometry: a canvas and a window of 2 lines of 32 bytes, 16 slots. -/
def small : Geometry :=
  { canvasBase := 0x200000, width := 4, height := 2, stride := 32, scanTag := 1, ingestTag := 2,
    windowBase := 0x400000, poolBase := 0x500000, slotCount := 16, assetBase := 0x600000,
    sectorSize := 0x10000 }

/-- LIVE with that geometry and this compositor and replay unit. -/
def atSmall (c : CompUnit) (r : ReplayUnit) : State :=
  { lit with path := { PathUnit.reset 0 [] with geom := small }, comp := c, replay := r }

theorem quiet_small (c : CompUnit) (r : ReplayUnit) : Quiet (atSmall c r) := quiet _ rfl rfl

/-- Sectors 2 and 3 locked. -/
def locked : State := atSmall { CompUnit.reset with lock := [2, 3] } .reset

theorem witness_BlockedWritesAreAnsweredHere :
    Quiet locked ∧ locked.comp.lock = [2] ++ 3 :: [] ∧
    (∀ a ∈ [0x630000, 0x63FFFF], legalWrite (oneByte 0x30 a 1) = true ∧
      (∃ b ∈ writeBytes (oneByte 0x30 a 1), inSector locked.path.geom 3 b.1 = true) ∧
      ∀ i ∈ [2], ∀ b ∈ writeBytes (oneByte 0x30 a 1), inSector locked.path.geom i b.1 = false) ∧
    (∀ a ∈ [0x80000, 0x8FFFF, 0x90000, 0x903FF], legalWrite (oneByte 0x30 a 1) = true ∧
      (∃ b ∈ writeBytes (oneByte 0x30 a 1), inPartOwned locked b.1 = true) ∧
      ∀ i ∈ locked.comp.lock, ∀ b ∈ writeBytes (oneByte 0x30 a 1),
        inSector locked.path.geom i b.1 = false) := ⟨quiet_small _ _, by decide⟩

theorem witness_ForwardedAndWindowTraffic :
    Quiet (atSmall .reset .reset) ∧
    (legalWrite (oneByte 0x30 0x5000 1) = true ∧
      classifyWrite (atSmall .reset .reset) (oneByte 0x30 0x5000 1) = .forwarded) ∧
    (legalRead (readOf 0x30 0x400040 0 1) = true ∧
      isComposited (atSmall .reset .reset) (readOf 0x30 0x400040 0 1) = false ∧
      ∀ a ∈ (readBytes (readOf 0x30 0x400040 0 1)).map Prod.snd, inWindow small a = false) ∧
    ((∃ a ∈ (readBytes (readOf 0x30 0x40003F 0 1)).map Prod.snd, inWindow small a = true) ∧
      ((readBytes (readOf 0x30 0x40003F 0 1)).map Prod.snd).filter (fun a => !inWindow small a) = []) ∧
    (let r := readOf 0x30 0x400030 4 2;
      legalRead r = true ∧ isComposited (atSmall .reset .reset) r = false ∧
      (∃ a ∈ (readBytes r).map Prod.snd, inWindow small a = true) ∧
      ((readBytes r).map Prod.snd).filter (fun a => !inWindow small a) ≠ []) :=
  ⟨quiet_small _ _, by decide⟩

theorem witness_CapturedBytesAreMergedIntoTheShadow :
    Quiet lit ∧ Memory.wf lit.path.shadow = true ∧
    ∀ a ∈ [0x40, 0x23F, 0x260, 0xFFF, 0x1000, 0x105E, 0x1062, 0x106F, 0x1072, 0x107F],
      legalWrite (oneByte 0x30 a 1) = true ∧ classifyWrite lit (oneByte 0x30 a 1) = .captured ∧
      captureBytes lit (oneByte 0x30 a 1) = [] ++ (a, 1) :: [] ∧
      ∀ b ∈ captureBytes lit (oneByte 0x30 a 1), (0x40 ≤ b.1 ∧ b.1 < 0x240) ∨
        (0x260 ≤ b.1 ∧ b.1 < 0x1000) ∨ (0x1000 ≤ b.1 ∧ b.1 < 0x1060 ∧ b.1 % 16 ≠ 15) ∨
        (0x1062 ≤ b.1 ∧ b.1 < 0x1070) ∨ (0x1072 ≤ b.1 ∧ b.1 < 0x1080) :=
  ⟨quiet _ rfl rfl, rfl, by decide⟩

/-- A write over the SHOW and the CLOCK word, which asks for two things that no table lists. -/
def twoWords : WriteReq :=
  { id := 0x30, addr := 0x1000, burst := .incr, size := 4,
    beats := [lanes [(0, 0xE0), (15, 1)], lanes [(0, 0xE1), (15, 2)]] }

theorem witness_TwoRequestsOfOneWrite :
    Quiet lit ∧ legalWrite twoWords = true ∧ classifyWrite lit twoWords = .captured ∧
    captureBytes lit twoWords = [(0x1000, 0xE0), (0x100F, 1), (0x1010, 0xE1), (0x101F, 2)] ∧
    after (.capturedWrite twoWords) lit (fun t =>
      ((t.report.ring.getD 0 .zero).count, (t.report.ring.getD 0 .zero).detail.take 3)) =
      some (2, [1, 2, 0xE1]) := ⟨quiet _ rfl rfl, by decide⟩

/-- A write over three request words that no table lists, the consume word and the tail word. -/
def fiveWords : WriteReq :=
  { id := 0x30, addr := 0x1030, burst := .incr, size := 4,
    beats := [lanes [(0, 0xE0), (15, 1)], lanes [(0, 0xE1), (15, 2)], lanes [(0, 0xE2), (15, 3)],
      lanes [(0, 1)], lanes [(0, 70)]] }

theorem witness_RequestsBesideTailAndConsume :
    Quiet lit ∧ legalWrite fiveWords = true ∧ classifyWrite lit fiveWords = .captured ∧
    [ReqWord.replayWord, .tickerWord, .spareWord].Pairwise (fun i j => i.code < j.code) ∧
    captureBytes lit fiveWords = [(0x1030, 0xE0), (0x103F, 1), (0x1040, 0xE1), (0x104F, 2),
      (0x1050, 0xE2), (0x105F, 3), (0x1060, 1), (0x1070, 70)] ∧
    (∀ b ∈ captureBytes lit fiveWords, 0x600 ≤ b.1 ∧ b.1 < 0x1080) ∧
    (let t := tailCaptured (mergeCapture lit (captureBytes lit fiveWords));
      (t.msg.tail, t.msg.head, t.msg.fetch) = (70, 6, some 6)) := ⟨quiet _ rfl rfl, by decide⟩

/-- A creative of 2 by 1 pixels over columns 1 and 2 of line 0. -/
def patch : PlanLayer :=
  { drawn := true, rank := 1, x := 1, y := 0, w := 2, h := 1,
    content := .creative { addr := 0x600000, stride := 16, width := 2, height := 1, dwell := 0 },
    opacity := 255, sponsor := .sponsor 4 }

/-- A plan that draws it alone, on layer 0. -/
def patched : Plan :=
  { frame := 1, mode := .live, source := .slot 1, erred := [],
    layers := patch :: List.replicate 7 { patch with drawn := false } }

/-- The read of line 0's pixels. -/
def lineRead : ReadReq := readOf 0x10 0x200000 4 1

/-- That read in flight. -/
def inFlight : CompRead :=
  { key := 0, req := lineRead, plan := patched, geom := small, windowSlot := 0, without := [],
    waits := true, fetched := none, failed := false }

/-- The part with that plan and these reads in flight. -/
def scanning (reads : List CompRead) : State :=
  atSmall { CompUnit.reset with frame := 1, plan := some patched, reads := reads } .reset

theorem witness_CompositedReadsFetchProgramAndOverlays :
    Quiet (scanning []) ∧ legalRead lineRead = true ∧ (scanning []).report.mode = .live ∧
    (scanning []).comp.plan = some patched ∧ masterTag lineRead.id = (scanning []).path.geom.scanTag ∧
    (∃ b ∈ readBytes lineRead, inCanvas (scanning []).path.geom b.2 = true) ∧
    neededFor inFlight 0 = (List.range 8).map (0x600000 + ·) :=
  ⟨quiet_small _ _, by decide⟩

/-- The overlay bytes of the patch: every byte 255. -/
def patchBytes : List OverlayByte :=
  (List.range 8).map fun i => { layer := 0, addr := 0x600000 + i, byte := 255 }

/-- The place of that read in the response order, and one of a forwarded read before it. -/
def inLane (key : Nat) (kind : EntryKind) : Entry :=
  { key := key, id := 0x10, dir := .read, kind := kind, bytes := 16, beats := 1, answer := none }

/-- The read of the frame before in flight in a later one, or in its own, in this response order. -/
def ordered (frame : FrameNo) (order : List Entry) (reads : List CompRead) : State :=
  { scanning reads with
    path := { (scanning reads).path with order := order },
    comp := { (scanning reads).comp with plan := some { patched with frame := frame } } }

theorem witness_CompositedAnswersBlendAndCount :
    (∀ f order reads, Quiet (ordered f order reads) ∧
      Stale.composited 0x10 ∉ (ordered f order reads).path.stale ∧
      (ordered f order reads).comp.plan = some { patched with frame := f } ∧
      (ordered f order reads).path.order = order) ∧
    (ordered 1 [] [inFlight]).comp.reads = [] ++ inFlight :: [] ∧
    inFlight.waits = true ∧ inFlight.failed = false ∧ inFlight.fetched = none ∧
    (patched.frame = inFlight.plan.frame ∧ (2 : FrameNo) ≠ inFlight.plan.frame) ∧
    (List.replicate 16 (9 : Byte)).length = (readBytes inFlight.req).length ∧
    [Resp.okay].length = inFlight.req.beats ∧
    (∀ n, n < 8 → ∀ a ∈ neededFor inFlight n, ∃ b ∈ patchBytes, b.layer = n ∧ b.addr = a) ∧
    (∀ b ∈ readBytes inFlight.req, inCanvas inFlight.geom b.2 = true →
      respIsError ([Resp.okay].getD b.1 .okay) = false) ∧
    ([inLane 0 .composited] = [] ++ inLane 0 .composited :: [] ∧
      (inLane 0 .composited).lane = (Dir.read, masterTag inFlight.req.id) ∧
      (inLane 0 .composited).key = inFlight.key) ∧
    ([inLane 5 .forwarded, inLane 0 .composited] =
        [] ++ inLane 5 .forwarded :: [inLane 0 .composited] ∧
      (inLane 5 .forwarded).lane = (Dir.read, masterTag inFlight.req.id) ∧
      (inLane 5 .forwarded).key ≠ inFlight.key) ∧
    (readCovered inFlight patchBytes (0, 0) = [] ∧ readCovered inFlight patchBytes (1, 0) ≠ []) :=
  ⟨fun _ _ _ => ⟨quiet _ rfl rfl, by simp [ordered, scanning, atSmall, PathUnit.reset], rfl, rfl⟩, rfl,
    by decide⟩

/-- An atlas of glyphs of 2 by 1 pixels, code 1 one pixel wide. -/
def tinyAtlas : Atlas := { addr := 0x700000, cw := 2, ch := 1, stride := 128, advances := [2, 1, 2] }

/-- Codes 1 and 2 from column 3 on: the second pixel of code 2 falls on column 5, of row 4. -/
theorem witness_GlyphAt : GlyphAt tinyAtlas [1, 2] 3 4 5 4 (0x700000 + (2 * 2 + 1) * 4) :=
  ⟨[1], 2, [], 1, 0, by decide⟩

theorem witness_LayerPixels :
    inFlight.plan.layers[0]? = some patch ∧
    (∀ z ∈ readCovered inFlight patchBytes (1, 0), z.pixel = { r := 255, g := 255, b := 255, k := 255 }) ∧
    patchBytes = [] ++ { layer := 0, addr := 0x600000, byte := 255 } :: patchBytes.tail ∧
    layerPixel (fun a => if a = 0x700014 then { r := 255, g := 255, b := 255, k := 160 } else clearPixel)
      { patch with
        content := .ticker { r := 20, g := 20, b := 60, k := 200 } 0 tinyAtlas [{ codes := [1, 2], x := -1 }] }
      2 0 = { r := 167, g := 167, b := 182, k := 200 } := by decide

/-- That read, its fetches completed. -/
def fetched : CompRead :=
  { inFlight with waits := false, fetched := some { program := List.replicate 16 9, overlay := patchBytes, status := [.okay] } }

theorem witness_AnsweredTransactionsReleaseReads :
    let s := ordered 1 [inLane 5 .forwarded, inLane 0 .composited] [fetched]
    let r : UpResp := { id := 0x10, dir := .read, data := [], status := [.okay] }
    (readyRead (giveAnswer s 5 r)).map (fun x => x.1.key) = some 0 ∧
    (∀ x ∈ s.comp.reads, x.key ≠ 0 → x.fetched = none) ∧
    readyRead (giveAnswer (ordered 1 [] [inFlight]) 5 r) = none := by decide

theorem witness_FetchErrorsDropTheLayerOrTheRead :
    (∀ f order reads, Quiet (ordered f order reads) ∧
      Stale.composited 0x10 ∉ (ordered f order reads).path.stale) ∧
    (∀ f x, (ordered f [] [inFlight, x]).comp.reads = [] ++ inFlight :: [x] ∧
      (ordered f [] [inFlight, x]).comp.reads = [inFlight] ++ x :: []) ∧
    inFlight.waits = true ∧ 0x600000 ∈ neededFor inFlight 0 ∧ 0x600008 ∉ neededFor inFlight 0 ∧
    inFlight.failed = false ∧ inFlight.fetched = none ∧ { inFlight with failed := true }.failed = true ∧
    (∀ x ∈ [] ++ [{ inFlight with key := 1 }], x.key ≠ inFlight.key) ∧
    readsOf 0x10 (scanning [inFlight]).comp.reads ≤ 1 ∧
    (0 ∈ ({ inFlight with without := [0] }).without ∧ ({ fetched with waits := true }).has 0 0x600000 = true) ∧
    (0, patch) ∈ covering patched 4 patched.erred 1 0 :=
  ⟨fun _ _ _ => ⟨quiet _ rfl rfl, by simp [ordered, scanning, atSmall, PathUnit.reset]⟩,
    fun _ _ => ⟨rfl, rfl⟩, by decide⟩

/-- R14: a second error on a fetch of the read of frame 1, in frame 2, where a newer read of its ID needs the
same byte: the layer stays drawn in frame 2, and no notice is raised. -/
theorem test_further_error_stays_in_its_frame :
    let newer := { inFlight with key := 1, plan := { patched with frame := 2 } }
    let once := overlayError (ordered 2 [] [inFlight, newer]) (named inFlight []) 0 0x600000
    let twice := overlayError once (named inFlight []) 0 0x600004
    (once.comp.plan.map Plan.erred, once.comp.reads.map CompRead.without) = (some [], [[0], []]) ∧
    once.report.raised.length = 1 ∧ twice = once := by decide

/-- 16 slots, slot 0 filling or not, this write error, this sequence next. -/
def filling (fill : Option Nat) (err : Bool) (seq : Nat) : ReplayUnit :=
  { ReplayUnit.reset with
    slots := { Slot.emptied with state := .filling, writeError := err } ::
      List.replicate 15 .emptied,
    fill := fill, captureSeq := seq }

/-- An ingest write of one byte at this offset of the window. -/
def ingestAt (o : Nat) : WriteReq := oneByte 0x20 (0x400000 + o) 1

theorem witness_IngestWritesFillSlots :
    (∀ r, Quiet (atSmall .reset r)) ∧
    (∀ o ∈ [0, 15, 16, 47, 48, 63], legalWrite (ingestAt o) = true ∧
      classifyWrite (atSmall .reset .reset) (ingestAt o) = .ingest ∧
      ∀ b ∈ writeBytes (ingestAt o), inWindow small b.1 = true ∧
        inCaptured (atSmall .reset .reset) b.1 = false) ∧
    (∀ o ∈ [0, 15], (∃ b ∈ writeBytes (ingestAt o), b.1 < 0x400000 + 16) ∧
      ¬∃ b ∈ writeBytes (ingestAt o), 0x400000 + 32 * 2 ≤ b.1 + 16) ∧
    (∀ o ∈ [16, 47], (¬∃ b ∈ writeBytes (ingestAt o), b.1 < 0x400000 + 16) ∧
      ¬∃ b ∈ writeBytes (ingestAt o), 0x400000 + 32 * 2 ≤ b.1 + 16) ∧
    (∀ o ∈ [48, 63], (¬∃ b ∈ writeBytes (ingestAt o), b.1 < 0x400000 + 16) ∧
      ∃ b ∈ writeBytes (ingestAt o), 0x400000 + 32 * 2 ≤ b.1 + 16) ∧
    (nextFill (atSmall .reset (filling none false 1)) = some 0 ∧
      0 < (filling none false 1).slots.length) ∧
    (slotAt (atSmall .reset (filling (some 0) false 1)) 0).writeError = false ∧
    (slotAt (atSmall .reset (filling (some 0) true 1)) 0).writeError = true ∧
    (filling (some 0) false 4294967295).captureSeq = 4294967295 :=
  ⟨fun _ => quiet _ rfl rfl, by decide⟩

/-- One write of the whole window, from its first byte to its final one. -/
def wholeFrame : WriteReq :=
  { id := 0x20, addr := 0x400000, burst := .incr, size := 4,
    beats := List.replicate 4 (lanes [(0, 1), (15, 2)]) }

theorem witness_WholeFrameWhileFilling :
    legalWrite wholeFrame = true ∧ classifyWrite (atSmall .reset .reset) wholeFrame = .ingest ∧
    (∀ b ∈ writeBytes wholeFrame, inWindow small b.1 = true ∧
      inCaptured (atSmall .reset .reset) b.1 = false) ∧
    (∃ b ∈ writeBytes wholeFrame, b.1 < 0x400000 + 16) ∧
    (∃ b ∈ writeBytes wholeFrame, 0x400000 + 32 * 2 ≤ b.1 + 16) ∧
    (filling (some 0) false 1).captureSeq ≠ 4294967295 ∧
    after (.ingestWrite wholeFrame) (atSmall .reset (filling (some 0) true 7)) (fun t =>
      ((slotAt t 0).seq, t.replay.fill, t.report.produce,
        (t.report.ring.getD 0 .zero).detail.take 1)) = some (7, none, 1, [0]) := by decide

/-- Ch. 6: the ring's newest slot is 3, the next is 4; slots 4 and 5 to 8 held, it is 9; with every slot
held there is none; with no FILLED slot it is 0. -/
theorem witness_NextFillIsTheFirstUnheld :
    let newest := fun (s : State) b => b < s.replay.slots.length ∧ (slotAt s b).state = .filled ∧
      ∀ j < s.replay.slots.length, j ≠ b → (slotAt s j).state = .filled →
        (slotAt s j).seq < (slotAt s b).seq
    let holding := fun (slots : List Slot) => atSmall .reset { ring with
      slots := slots,
      clips := { Clip.emptied with state := .armed, inPoint := 5, outPoint := 9 } ::
        List.replicate 15 .emptied }
    newest (atSmall .reset ring) 3 ∧ nextFill (atSmall .reset ring) = some 4 ∧
    nextFill (holding (ring.slots.set 4 (filled 5))) = some 9 ∧
    newest (holding (ring.slots.set 4 (filled 5))) 3 ∧
    nextFill (holding (List.replicate 16 (filled 9))) = none ∧
    nextFill (atSmall .reset (filling none false 1)) = some 0 := by decide

/-- One transaction in flight. -/
def entry (dir : Dir) (kind : EntryKind) (bytes : Nat) : Entry :=
  { key := 0, id := 0x21, dir := dir, kind := kind, bytes := bytes, beats := 1, answer := none }

def oneInFlight (e : Entry) : State := { lit with path := { PathUnit.reset 0 [] with order := [e] } }

theorem witness_ResponsesAnswerTheOldestTransaction :
    (∀ e, Quiet (oneInFlight e) ∧ (oneInFlight e).path.order = [] ++ e :: [] ∧
      ∀ x, x ∉ (oneInFlight e).path.stale) ∧
    (let e := entry .read .forwarded 1;
      e.answer = none ∧ e.kind = .forwarded ∧ [(9 : Byte)].length = e.bytes ∧
      [Resp.decerr].length = e.beats) ∧
    (∀ remap other, (entry .write (.ingest 0 remap other) 0).answer = none ∧
      (entry .write (.ingest 0 remap other) 0).kind = .ingest 0 remap other) ∧
    respIsError .okay = false ∧ respIsError .exokay = false ∧ respIsError .slverr = true ∧
    respIsError .decerr = true :=
  ⟨fun _ => ⟨quiet _ rfl rfl, rfl, fun _ h => absurd h List.not_mem_nil⟩, by decide,
    fun _ _ => ⟨rfl, rfl⟩, by decide⟩

/-- Right after a reset that dropped these. -/
def dropping (l : List Stale) : State := State.resetWith 0 false l []

theorem witness_ResponsesToWhatAResetDroppedAreDiscarded :
    (∀ l, Quiet (dropping l)) ∧
    ∀ x ∈ [Stale.forwarded .read 0x10, .composited 0x10, .ingest 0x20 false, .ingest 0x20 true, .intake,
      .refresh], x ∈ (dropping [x]).path.stale :=
  ⟨fun _ => quiet _ rfl rfl, by decide⟩

/-- A split ingest write's two responses: the remapped one's error is its slot's at once, and the write
is answered with the second (R99, R106). -/
theorem test_split_write_is_answered_by_both :
    let s := { oneInFlight (entry .write (.ingest 0 .waiting .waiting) 0) with replay := filling (some 0) false 1 }
    after (.ingestWriteResponse 0x21 false .slverr) s (fun t =>
      ((slotAt t 0).writeError, t.path.returned.length, t.path.order.map Entry.kind)) =
        some (true, 0, [.ingest 0 (.answered .slverr) .waiting]) ∧
    after (.ingestWriteResponse 0x21 true .okay)
      (oneInFlight (entry .write (.ingest 0 (.answered .slverr) .waiting) 0))
      (fun t => t.path.returned.map UpResp.status) = some [[.slverr]] := by decide

/-! ### Witnesses: captures -/

/-- PASS as after reset, this geometry taken, this shadow. -/
def geometried (g : Geometry) (m : Memory) : State :=
  { State.reset with path := { PathUnit.reset 0 [] with geom := g, shadow := m } }

theorem witness_GeometryIsTakenInPassOnly :
    (∀ g m, Quiet (geometried g m)) ∧
    (let w := oneBeat 0x30 0x38 [(8, 0), (9, 0), (10, 1)];
      let g := takenGeometry (captureBytes State.reset w)
        (readGeometry (mergeCapture (forwardWrite State.reset w) (captureBytes State.reset w)).path.shadow)
        State.reset.path.geom;
      legalWrite w = true ∧ classifyWrite State.reset w = .captured ∧
      (∀ b ∈ captureBytes State.reset w, b.1 < 0x40) ∧
      reachesGeometry (captureBytes State.reset w) = true ∧ State.reset.report.mode = .pass ∧
      State.reset.report.pendingMode = none ∧ g = { Geometry.zero with sectorSize := 0x10000 }) ∧
    (let w := oneByte 0x30 0x28 16;
      legalWrite w = true ∧ classifyWrite State.reset w = .captured ∧
      (∀ b ∈ captureBytes State.reset w, b.1 < 0x40) ∧
      reachesGeometry (captureBytes State.reset w) = true ∧
      (takenGeometry (captureBytes State.reset w)
        (readGeometry (mergeCapture (forwardWrite State.reset w) (captureBytes State.reset w)).path.shadow)
        State.reset.path.geom).slotCount ≠ State.reset.path.geom.slotCount) ∧
    (∀ v ∈ [(0 : Byte), 1], legalWrite (oneByte 0x30 0x3B v) = true ∧
      classifyWrite lit (oneByte 0x30 0x3B v) = .captured ∧ lit.report.mode ≠ .pass ∧
      (∀ b ∈ captureBytes lit (oneByte 0x30 0x3B v), b.1 < 0x40) ∧
      reachesGeometry (captureBytes lit (oneByte 0x30 0x3B v)) = true ∧
      (readGeometry (mergeCapture (forwardWrite lit (oneByte 0x30 0x3B v))
        (captureBytes lit (oneByte 0x30 0x3B v))).path.shadow = lit.path.geom ↔ v = 0)) :=
  ⟨fun _ _ => quiet _ rfl rfl, by decide⟩

theorem witness_ScoreRisesAskForFlashAndCut :
    Quiet lit ∧ Quiet (shadowed [(0x2000, 1), (0x2020, 1)]) ∧
    (let w := oneByte 0x30 0x203F 9;
      legalWrite w = true ∧ classifyWrite lit w = .captured ∧
      (∀ b ∈ captureBytes lit w, 0x2000 ≤ b.1 ∧ b.1 < 0x2040) ∧
      ∀ x : Team, teamScore (mergeCapture (forwardWrite lit w) (captureBytes lit w)).path.shadow x ≤
        teamScore lit.path.shadow x) ∧
    (let w := oneByte 0x30 0x2020 1;
      legalWrite w = true ∧ classifyWrite lit w = .captured ∧ Team.away ≠ .home ∧
      (∀ b ∈ captureBytes lit w, 0x2000 ≤ b.1 ∧ b.1 < 0x2040) ∧
      teamScore lit.path.shadow .away <
        teamScore (mergeCapture (forwardWrite lit w) (captureBytes lit w)).path.shadow .away ∧
      teamScore (mergeCapture (forwardWrite lit w) (captureBytes lit w)).path.shadow .home ≤
        teamScore lit.path.shadow .home) ∧
    (let w := { oneBeat 0x30 0x2000 [(0, 1)] with
        beats := [lanes [(0, 1)], lanes [], lanes [(0, 1)]] };
      legalWrite w = true ∧ classifyWrite lit w = .captured ∧
      (∀ b ∈ captureBytes lit w, 0x2000 ≤ b.1 ∧ b.1 < 0x2040) ∧
      ∀ x : Team, teamScore lit.path.shadow x <
        teamScore (mergeCapture (forwardWrite lit w) (captureBytes lit w)).path.shadow x) := by
  refine ⟨quiet _ rfl rfl, quiet _ rfl rfl, ⟨by decide, by decide, by decide, fun x => ?_⟩, by decide,
    by decide, by decide, by decide, fun x => ?_⟩
  · cases x <;> decide
  · cases x <;> decide

theorem witness_SponsorCapturesClearTheCapLatch :
    Quiet lit ∧
    (∀ w ∈ [oneByte 0x30 0x4F00 0, oneByte 0x30 0x4FFF 1], legalWrite w = true ∧
      classifyWrite lit w = .captured ∧
      ∀ b ∈ captureBytes lit w, 0x3000 + 31 * 256 ≤ b.1 ∧ b.1 < 0x3000 + 31 * 256 + 256) ∧
    sponsorCapping lit.path.shadow 31 = false ∧
    (let s := { shadowed [(0x4F00, 2), (0x4F08, 5)] with rot := { RotationUnit.reset with
        sponsors := List.replicate 32 { pointer := 0, acc := 5, capped := true } } };
      let w := oneByte 0x30 0x4FFF 1;
      let m := (mergeCapture (forwardWrite s w) (captureBytes s w)).path.shadow;
      classifyWrite s w = .captured ∧ sponsorCapping m 31 = true ∧ sponsorTarget m 31 ≠ 0 ∧
      sponsorTarget m 31 ≤ (sponsorAt s 31).acc) := ⟨quiet _ rfl rfl, by decide⟩

/-- What the clock takes from the merged shadow after this one-byte capture. -/
def newConfig (s : State) (w : WriteReq) : ClockConfig :=
  readClockConfig (mergeCapture (forwardWrite s w) (captureBytes s w)).path.shadow

theorem witness_ClockConfigurationIsTakenWhenStopped :
    (∀ g c, Quiet (gated g c)) ∧
    (∀ w ∈ [oneByte 0x30 0x240 1, oneByte 0x30 0x25F 1, oneByte 0x30 0x252 4],
      legalWrite w = true ∧ classifyWrite lit w = .captured ∧
      ∀ b ∈ captureBytes lit w, 0x240 ≤ b.1 ∧ b.1 < 0x260) ∧
    (running 1).state = .running ∧ (stoppedAt 1 false).state ≠ .running ∧
    (newConfig (gated false (stoppedAt 1 false)) (oneByte 0x30 0x25F 1)).gateOverride =
      (stoppedAt 1 false).config.gateOverride ∧
    (newConfig (gated false (stoppedAt 1 true)) (oneByte 0x30 0x252 4)).gateOverride = true ∧
    (stoppedAt 1 true).config.gateOverride = false ∧ (stoppedAt 1 true).soft = true ∧
    (stoppedAt 1 true).value ≠ 0 ∧
    (newConfig (gated true (expiredAt0 true)) (oneByte 0x30 0x240 1)).mode = .up ∧
    (newConfig (gated false (stoppedAt 0 true)) (oneByte 0x30 0x252 4)).mode = .down :=
  ⟨quiet_gated, by decide⟩

/-- The counts so, the queue of this length, a fetch or none. -/
def intake (head tail : BitVec 16) (fetch : Option (BitVec 16)) (depth : Nat) : MessageUnit :=
  { MessageUnit.reset with head := head, tail := tail, fetch := fetch, queue := List.replicate depth aMessage }

/-- A capture of the intake tail. -/
def tailWrite (v : Byte) : WriteReq := oneBeat 0x30 0x1070 [(0, v), (1, 0)]

/-- The outstanding count that capture leaves, before the overrun test. -/
def tailAhead (v : Byte) : Nat :=
  let s := ticked (intake 100 100 none 0) .reset
  (BitVec.ofNat 16 (readLE (mergeCapture (forwardWrite s (tailWrite v))
    (captureBytes s (tailWrite v))).path.shadow 0x1070 2) - s.msg.head).toNat

theorem witness_TailAndConsumeCaptures :
    (∀ m k, Quiet (ticked m k)) ∧
    (∀ v ∈ [(100 : Byte), 164, 165], legalWrite (tailWrite v) = true ∧
      classifyWrite (ticked (intake 100 100 none 0) .reset) (tailWrite v) = .captured ∧
      ∀ b ∈ captureBytes (ticked (intake 100 100 none 0) .reset) (tailWrite v),
        0x1070 ≤ b.1 ∧ b.1 < 0x1072) ∧
    tailAhead 100 = 0 ∧ tailAhead 164 = 64 ∧ tailAhead 165 = 65 ∧
    (intake 100 101 (some 100) 31).fetch.isSome = true ∧ 32 ≤ (intake 100 100 none 32).queue.length ∧
    (intake 100 100 none 31).queue.length < 32 ∧
    (let w := oneBeat 0x30 0x1060 [(0, 1), (1, 0)];
      legalWrite w = true ∧ classifyWrite lit w = .captured ∧
      ∀ b ∈ captureBytes lit w, 0x1060 ≤ b.1 ∧ b.1 < 0x1062) :=
  ⟨fun _ _ => quiet _ rfl rfl, by decide, by decide, by decide, by decide, by decide, by decide, by decide,
    by decide⟩

/-! ### Witnesses: the part's own transactions, pixels, the machine -/

/-- A record of this kind, class, id and length. -/
def record (kind cls id len : Byte) : List Byte :=
  [kind, cls, 0, 0, id, 0, 0, 0, len] ++ List.replicate 247 0x41

/-- The fetch of record 100 in flight, this queue. -/
def fetching (queue : List Message) (band : List BandEntry) : State :=
  ticked { MessageUnit.reset with head := 100, tail := 101, fetch := some 100, queue := queue }
    { TickerUnit.reset with band := band }

theorem witness_IntakeFetchesAreStartedAndCompleted :
    (∀ m k, Quiet (ticked m k)) ∧
    (0 < outstanding (ticked (intake 65535 0 none 31) .reset) ∧ (intake 65535 0 none 31).fetch = none ∧
      (intake 65535 0 none 31).queue.length < 32) ∧
    outstanding (ticked (intake 5 5 none 0) .reset) = 0 ∧ 32 ≤ (intake 0 1 none 32).queue.length ∧
    (∀ q b, (fetching q b).msg.fetch = some 100 ∧
      ((fetching q b).msg.tail - ((fetching q b).msg.head + 1)).toNat ≤ 64) ∧
    ((record 1 1 9 1).length = 256 ∧ recordId (record 1 1 9 1) = 9) ∧
    (((record 0 1 9 1).getD 0 0).toNat ≠ 1 ∧ ((record 0 1 9 1).getD 0 0).toNat ≠ 2 ∧
      ((record 3 1 9 1).getD 0 0).toNat ≠ 2) ∧
    recordId (record 1 1 0 1) = 0 ∧ recordClass (record 1 0 9 1) = none ∧
    recordClass (record 1 4 9 1) = none ∧
    (∀ n ∈ [(1 : Byte), 120], recordClass (record 1 3 9 n) = some .announce ∧
      1 ≤ ((record 1 3 9 n).getD 8 0).toNat ∧ ((record 1 3 9 n).getD 8 0).toNat ≤ 120) ∧
    ((record 1 1 9 0).getD 8 0).toNat = 0 ∧ 120 < ((record 1 1 9 121).getD 8 0).toNat ∧
    inQueue (fetching [aMessage] []) 7 = true ∧ inQueue (fetching [aMessage] []) 9 = false ∧
    onBand (fetching [] [{ id := 9, text := [], width := 0, x := 0 }]) 9 = true ∧
    onBand (fetching [aMessage] []) 9 = false ∧ ((record 2 0 9 0).getD 0 0).toNat = 2 :=
  ⟨fun _ _ => quiet _ rfl rfl, by decide, by decide, by decide,
    fun q b => ⟨rfl, (show ((101 : BitVec 16) - (100 + 1)).toNat ≤ 64 by decide)⟩,
    ⟨by rw [record, List.length_append, List.length_replicate]; rfl, by decide⟩,
    by decide, by decide, by decide, by decide, by decide, by decide, by decide,
    by decide, by decide, by decide, by decide, by decide⟩

/-- The fetch of record 100 in flight, the tail far ahead. -/
def overrunning (tail : BitVec 16) : State := ticked (intake 100 tail (some 100) 0) .reset

/-- R136, R138: the fetch of record 100 ends in an error with 65 more outstanding, so record 101 is lost, and
with 66, so 102 is lost too; both notices are raised. -/
theorem witness_CompletionsMeetAnOverrun :
    (overrunning 166).msg.fetch = some 100 ∧
    64 < ((overrunning 166).msg.tail - ((overrunning 166).msg.head + 1)).toNat ∧
    (completeFetch (overrunning 166) 100 true []).msg.head = 102 ∧
    (completeFetch (overrunning 167) 100 true []).msg.head = 103 ∧
    (completeFetch (overrunning 167) 100 true []).report.raised.length = 2 := by decide

/-- The report unit with this snapshot and this held refresh. -/
def reporting (snapshot : Option (List Byte)) (held : Option RefreshCause) : State :=
  { lit with report := { lit.report with snapshot := snapshot, held := held } }

/-- The place of an ANNOUNCE: behind the last one queued, at the head where there is none (R142). -/
theorem witness_AnnouncesAreQueuedBehindAnnounces :
    let x : Message := { aMessage with cls := .announce }
    (∀ q b, Stale.intake ∉ (fetching q b).path.stale) ∧
    ([x, aMessage] = [x] ++ [aMessage] ∧ (∀ y ∈ [aMessage], y.cls ≠ .announce) ∧
      ∀ y, [x].getLast? = some y → y.cls = .announce) ∧
    ([aMessage] = [] ++ [aMessage] ∧ ∀ y, ([] : List Message).getLast? = some y → y.cls = .announce) :=
  ⟨fun _ _ h => absurd h List.not_mem_nil, by decide, by decide⟩

theorem witness_StatusRefreshWritesThePage :
    (∀ x h, (reporting x h).report.raised = [] ∧ (reporting x h).report.snapshot = x ∧
      (reporting x h).report.held = h) ∧
    (∃ c : RefreshCause, some c = some .clockStop) ∧ ((some [] : Option (List Byte)).isSome = true) ∧
    (aMessage.text.length ≤ 120 ∧ (List.replicate 120 1).length ≤ 120) ∧
    ∀ x h, Stale.refresh ∉ (reporting x h).path.stale :=
  ⟨fun _ _ => ⟨rfl, rfl, rfl⟩, ⟨.clockStop, rfl⟩, rfl, by decide, fun _ _ h => absurd h List.not_mem_nil⟩

/-- R191: TBASE at 13h, the sectors of the worked lock set in the two bytes at 14h. -/
theorem test_page_lock_set :
    modeBytes { lit with path := { lit.path with tbase := 2 }, comp := { lit.comp with lock := [0, 1, 2, 9] } } =
      [1, 0, 0, 2, 7, 2] ++ List.replicate 10 0 := by decide

/-- R191: the two notices of the manual's reading (ch. 12.6): number 5, kind 10, repeat 2, period 4, game
value 2,998. -/
theorem test_notice_record :
    noticeBytes { number := 5, kind := some .shotExpired, count := 2, frame := 9, house := 258,
                  detail := layout 16 [(0, leBytes 1 4), (4, leBytes 4 2998)] } =
      [5, 0, 10, 0, 2, 0, 0, 0, 9, 0, 0, 0, 2, 1, 0, 0, 4, 0, 0, 0, 0xB6, 0x0B, 0, 0, 0, 0, 0, 0, 0, 0, 0, 0] := by
  decide

/-- R81, R184, R189: a stop before the first FRAME_START makes no refresh due (log 31); later one is held
while a refresh is being written, as CLOCK_STOP whatever it merges with, and starts otherwise. -/
theorem witness_RefreshFallsDue :
    (reporting none none).comp.plan = none ∧
    (refreshDue (reporting none none) .clockStop).report.held = none ∧
    (∀ h ∈ [none, some RefreshCause.frameStart, some .clockStop],
      (framed (reporting (some []) h)).comp.plan ≠ none ∧
      (refreshStart (refreshDue (framed (reporting (some []) h)) .clockStop)).report.held =
        some .clockStop) ∧
    (refreshStart (refreshDue (framed (reporting none none)) .clockStop)).report.refreshCount = 1 := by
  decide

theorem witness_AlphaBlendAndWeightStayInRange :
    (0 ≤ 255 ∧ 255 ≤ 255) ∧
    ∀ x ∈ [({ layer := 0, pixel := clearPixel, alpha := 0 } : Covered),
      { layer := 1, pixel := clearPixel, alpha := 255 }], x.alpha ≤ 255 := by decide

/-- The worked clip's first entering frame ahead, the TRANSITION layer enabled. -/
def entering : State :=
  { onAir .entering (some (0, 10))
      { playing with bumper := some { addr := 0, stride := 16, width := 1, height := 1, dwell := 0 } } 6 0 with
    path := { PathUnit.reset 0 [] with shadow := [(0x200, 1)] } }

theorem witness_BumperFadeRisesAndFalls :
    (119 < 120 ∧ 120 ≤ 120 ∧ 0 < 1) ∧
    ∃ t p l, exec .frameStart entering = .next t ∧ t.comp.plan = some p ∧ p.layers[7]? = some l ∧
      l.drawn = true ∧ t.replay.bumper = some (1, 10) :=
  ⟨by decide, _, _, _, rfl, rfl, rfl, by decide, by decide⟩

theorem witness_SixHighestLayersOfALine :
    patched.layers.length ≤ 8 ∧ (0, patch) ∈ lineLayers patched 4 [] 0 := by decide

theorem witness_ResetLeavesTheResetValues :
    (∃ e ∈ (oneInFlight (entry .read .forwarded 1)).path.order, e.answer = none ∧ e.kind = .forwarded) ∧
    (∃ c ∈ (scanning [inFlight]).comp.reads, c.waits = true) ∧ (fetching [] []).msg.fetch ≠ none ∧
    (reporting (some []) none).report.snapshot ≠ none ∧
    (State.reset.path.stale = [] ∧ State.reset.path.order = [] ∧ State.reset.comp.reads = [] ∧
      State.reset.msg.fetch = none ∧ State.reset.report.snapshot = none) := by decide

theorem witness_FrameStartAccruesExposure :
    ∃ t, exec .frameStart lit = .next t ∧ lit.rot.sponsors.length = 32 ∧ 31 < 32 :=
  ⟨_, rfl, by decide, by decide⟩

/-- Every sponsor has 5, and sponsor 31 caps at 5. -/
def meeting : State :=
  { shadowed [(0x4F00, 2), (0x4F08, 5)] with
    rot := { RotationUnit.reset with
      sponsors := List.replicate 32 { pointer := 0, acc := 5, capped := false } } }

theorem witness_FrameStartMeetsTargets :
    Quiet meeting ∧ RingOk meeting ∧ PlacesOk meeting ∧ meeting.rot.sponsors.length = 32 ∧
    after .frameStart meeting (fun t => ((sponsorAt t 30).capped, (sponsorAt t 31).capped,
      countOf t.report .exposureTarget)) = some (false, true, 1) :=
  ⟨quiet _ rfl rfl, ringOk_empty _ rfl rfl, placesOk_blank _ rfl, by decide, by decide⟩

/-- The frame just ended drew a creative of 2 by 1 pixels of sponsor 31 on placement 3, in full. -/
def measured : State :=
  { lit with comp := { lit.comp with
      weights := [0, 0, 0, 510],
      plan := some
        { frame := 1, mode := .live, source := .liveCanvas, erred := [],
          layers := List.replicate 4
            { drawn := true, rank := 1, x := 0, y := 0, w := 2, h := 1, content := .nothing, opacity := 255,
              sponsor := .sponsor 31 } } } }

/-- R28, R29: 510 of 510 is an exposure of 1,000, under grade 1. -/
theorem witness_FrameStartAccruesAMeasuredFrame :
    lit.comp.plan = none ∧ measured.comp.plan ≠ none ∧ measured.rot.sponsors.length = 32 ∧
    measured.rot.placements.length = 4 ∧
    after .frameStart measured (fun t => ((sponsorAt t 30).acc, (sponsorAt t 31).acc)) =
      some (0, 1000) := by decide

theorem witness_ResponsesKeepTheOrderOfTheirTag :
    ∀ e ∈ [{ entry .write .blocked 0 with
        answer := some { id := 0x2F, dir := .write, data := [], status := [.slverr] } }, entry .read .composited 4],
      ∀ r, e.answer = some r → (r.dir, masterTag r.id) = e.lane := by
  intro e he r hr
  simp only [List.mem_cons, List.not_mem_nil, or_false] at he
  rcases he with rfl | rfl
  · cases hr
    rfl
  · cases hr

theorem witness_StepRunsTheFrontCommand : State.reset.pending = [] := rfl

/-- Reset, GATE_RUN edge next: the step that the invariants' witnesses take. -/
def oneEdge : State := { State.reset with pending := [.gateRunEdge] }

theorem witness_StepsKeepTheShadowCanonicalAndSettle :
    ∃ t, step oneEdge = .next t ∧ Memory.wf oneEdge.path.shadow = true ∧ Quiet oneEdge :=
  ⟨_, rfl, rfl, quiet _ rfl rfl⟩

theorem witness_StepsKeepTheRunCondition :
    ∃ t, RunOk oneEdge ∧ ClockOk oneEdge ∧ step oneEdge = .next t :=
  ⟨_, by unfold RunOk; decide, by unfold ClockOk ConfigOk; decide, rfl⟩

theorem witness_StepsKeepTheQueueAndTheBand :
    ∃ t, QueueOk oneEdge ∧ BandOk oneEdge ∧ step oneEdge = .next t :=
  ⟨_, by unfold QueueOk; decide, by unfold BandOk; decide, rfl⟩

theorem witness_StepsKeepTheStacksAndAccounts :
    ∃ t, StacksOk oneEdge ∧ AccountsOk oneEdge ∧ step oneEdge = .next t := by
  refine ⟨_, ⟨rfl, fun x hx => ?_⟩, by unfold AccountsOk; decide, rfl⟩
  obtain rfl : x = .reset := List.eq_of_mem_replicate hx
  exact ⟨by decide, by simp [Placement.reset], by decide, by decide⟩

theorem witness_StepsKeepTheTablesAndClips :
    ∃ t, TablesOk oneEdge ∧ ClipsOk oneEdge ∧ SlotsOk oneEdge ∧ step oneEdge = .next t := by
  have z : ∀ c, (clipAt oneEdge c).state ≠ .playing := by
    intro c h
    have : clipAt oneEdge c = .emptied := by
      unfold clipAt
      simp only [List.getD_eq_getElem?_getD]
      cases e : oneEdge.replay.clips[c]? with
      | none => rfl
      | some x => exact List.eq_of_mem_replicate (List.mem_of_getElem? e)
    rw [this] at h
    exact absurd h (by decide)
  refine ⟨_, by unfold TablesOk; decide, ⟨fun c => ⟨fun h => absurd h (z c), fun h => nomatch h⟩,
    by decide, by decide⟩, ⟨fun k => ⟨fun h => ?_, fun h => nomatch h⟩, by decide, by decide, by decide⟩,
    rfl⟩
  exact absurd h (by simp [slotAt, oneEdge, State.reset, State.resetWith, ReplayUnit.reset, Slot.emptied])

/-- The ring whose clips leave three slots. -/
theorem witness_HeldSlotsLeaveThree :
    SlotsOk (replaying heldRing) ∧ 3 ≤ (replaying heldRing).replay.slots.length ∧
    (replaying heldRing).replay.slots ≠ [] := by
  refine ⟨⟨fun k => ?_, by decide, by decide, by decide⟩, by decide, by decide⟩
  by_cases h : k < 16
  · have : ∀ k < 16, (slotAt (replaying heldRing) k).state = .filling ↔
      (replaying heldRing).replay.fill = some k := by decide
    exact this k h
  · have e : slotAt (replaying heldRing) k = .emptied := by
      simp [slotAt, replaying, heldRing, ring, List.getD_eq_getElem?_getD, show 16 ≤ k by omega]
    rw [e]
    exact ⟨fun f => absurd f (by decide), fun f => absurd (Option.some.inj f) (by omega)⟩

theorem witness_StepsKeepTheNoticeRing :
    ∃ t, RingOk oneEdge ∧ PlacesOk oneEdge ∧ OwnWritesOk oneEdge ∧ step oneEdge = .next t := by
  exact ⟨_, ringOk_empty _ rfl rfl, placesOk_blank _ rfl, ⟨rfl, fun d h => absurd h List.not_mem_nil⟩,
    rfl⟩

/-- P at 33 with one record unconsumed: SCORE_CHANGE, number 32, at place 0, taken 65535 times. -/
def noticed : State :=
  { lit with report := { lit.report with
      ring := { NoticeRecord.zero with number := 32, kind := some .scoreChange, count := 65535 } ::
        List.replicate 31 .zero,
      produce := 33, consume := 32 } }

theorem witness_OccurrencesAreTaken :
    RingOk noticed ∧ PlacesOk noticed ∧
    (∃ x, noticed.report.ring[0]? = some x ∧ x.kind = some .scoreChange ∧
      unconsumed noticed.report x.number = true) ∧
    (∀ x ∈ noticed.report.ring, x.kind = some .msgExpired → unconsumed noticed.report x.number = false) ∧
    (irq noticed = true ∧ irq lit = false) := by
  refine ⟨⟨rfl, by decide, by decide, by decide⟩, fun i hi x hx => ?_, ⟨_, rfl, by decide⟩, by decide⟩
  match i with
  | 0 => exact fun _ => by obtain rfl := Option.some.inj hx; rfl
  | i + 1 =>
    obtain rfl : x = .zero := List.eq_of_mem_replicate (n := 31) (List.mem_of_getElem? (i := i) hx)
    exact fun k => absurd k (by decide)

theorem witness_OnlyFrameStartChangesTheFrame :
    ∃ t, oneEdge.pending = .gateRunEdge :: [] ∧ step oneEdge = .next t ∧ isReset .gateRunEdge = false ∧
      beginsFrame .gateRunEdge = false ∧ lit.report.mode = .live :=
  ⟨_, rfl, rfl, rfl, rfl, rfl⟩

/-- Sectors 2 and 3 locked, a write to the byte below sector 2 next. -/
def writing : State :=
  { locked with pending := [.forwardedTransaction (.write (oneByte 0x30 0x61FFFF 1))] }

theorem witness_NoIssuedWriteReachesALockedSector :
    ∃ t issued w, step writing = .next t ∧ t.path.issued = writing.path.issued ++ issued ∧
      DownTxn.burst (.write w) ∈ issued :=
  ⟨_, [.burst (.write (oneByte 0x30 0x61FFFF 1))], oneByte 0x30 0x61FFFF 1, rfl, by decide, by decide⟩

/-- An ingest write over the window's end, in two pieces. -/
theorem witness_IngestWritesIssueTwoPieces :
    let w := { ingestAt 48 with beats := [lanes [(0, 1)], lanes [(0, 2)]] }
    after (.ingestWrite w) (atSmall .reset (filling (some 0) false 1)) (fun t => t.path.issued) =
      some [.store 0x20 (.ingest 0) [(0x500030, 1)], .store 0x20 .outside [(0x400040, 2)]] := by decide

end Sys2Proof.Tests
end

section
namespace Sys2Proof.FrameProofs
open Sys2Proof.Machine

/-! ### The stacking order of a line (R3, R13) -/

theorem perm_insertByRank {α : Type} (rank : α → Nat) (x : α) (l : List α) :
    (insertByRank rank x l).Perm (x :: l) := by
  induction l with
  | nil => rfl
  | cons y ys ih =>
    simp only [insertByRank]
    split
    · rfl
    · exact (ih.cons y).trans (List.Perm.swap x y ys)

theorem perm_sortByRank {α : Type} (rank : α → Nat) (l : List α) : (sortByRank rank l).Perm l := by
  induction l with
  | nil => rfl
  | cons x xs ih => exact (perm_insertByRank rank x _).trans (ih.cons x)

theorem pairwise_insertByRank {α : Type} (rank : α → Nat) (x : α) (l : List α)
    (h : l.Pairwise fun a b => rank a ≤ rank b) :
    (insertByRank rank x l).Pairwise fun a b => rank a ≤ rank b := by
  induction l with
  | nil => simp [insertByRank]
  | cons y ys ih =>
    obtain ⟨hy, hys⟩ := List.pairwise_cons.1 h
    simp only [insertByRank]
    split
    · next hxy =>
      refine List.pairwise_cons.2 ⟨fun z hz => ?_, h⟩
      rcases List.mem_cons.1 hz with rfl | hz
      · exact hxy
      · exact hxy.trans (hy z hz)
    · next hxy =>
      refine List.pairwise_cons.2 ⟨fun z hz => ?_, ih hys⟩
      rcases List.mem_cons.1 ((perm_insertByRank rank x ys).mem_iff.1 hz) with rfl | hz
      · omega
      · exact hy z hz

theorem pairwise_sortByRank {α : Type} (rank : α → Nat) (l : List α) :
    (sortByRank rank l).Pairwise fun a b => rank a ≤ rank b := by
  induction l with
  | nil => exact .nil
  | cons x xs ih => exact pairwise_insertByRank rank x _ ih

/-- A layer is a candidate of line `y`: drawn, not left out, its rectangle on the line and on the canvas
(R13). -/
def Candidate (p : Plan) (width : Nat) (without : List Nat) (y : Nat) (x : Nat × PlanLayer) : Prop :=
  x ∈ numberedLayers p ∧ x.2.drawn = true ∧ x.1 ∉ without ∧ x.2.onRow y = true ∧
  x.2.onCanvas width = true

/-- The candidates of line `y`, lowest first. -/
def candidates (p : Plan) (width : Nat) (without : List Nat) (y : Nat) : List (Nat × PlanLayer) :=
  sortByRank stackKey ((numberedLayers p).filter fun x =>
    x.2.drawn && !without.contains x.1 && x.2.onRow y && x.2.onCanvas width)

theorem lineLayers_eq_drop (p : Plan) (width : Nat) (without : List Nat) (y : Nat) :
    lineLayers p width without y =
      (candidates p width without y).drop ((candidates p width without y).length - 6) := rfl

theorem mem_candidates {p : Plan} {width : Nat} {without : List Nat} {y : Nat} {x : Nat × PlanLayer} :
    x ∈ candidates p width without y ↔ Candidate p width without y x := by
  rw [candidates, (perm_sortByRank _ _).mem_iff, List.mem_filter]
  simp [Candidate, and_assoc]

theorem candidates_pairwise (p : Plan) (width : Nat) (without : List Nat) (y : Nat) :
    (candidates p width without y).Pairwise fun a b => stackKey a ≤ stackKey b :=
  pairwise_sortByRank _ _

theorem candidate_of_mem_lineLayers {p : Plan} {width : Nat} {without : List Nat} {y : Nat}
    {x : Nat × PlanLayer} (h : x ∈ lineLayers p width without y) : Candidate p width without y x :=
  mem_candidates.1 (List.mem_of_mem_drop h)

theorem length_lineLayers_le (p : Plan) (width : Nat) (without : List Nat) (y : Nat) :
    (lineLayers p width without y).length ≤ 6 := by
  rw [lineLayers_eq_drop, List.length_drop]
  omega

/-- A candidate left out stands before the six that are drawn in the sorted candidates. -/
theorem left_out_split {p : Plan} {width : Nat} {without : List Nat} {y : Nat} {x : Nat × PlanLayer}
    (hx : Candidate p width without y x) (hn : x ∉ lineLayers p width without y) :
    (lineLayers p width without y).length = 6 ∧
      x ∈ (candidates p width without y).take ((candidates p width without y).length - 6) := by
  have hm := mem_candidates.2 hx
  rw [← List.take_append_drop ((candidates p width without y).length - 6)
    (candidates p width without y), List.mem_append] at hm
  have ht := hm.resolve_right hn
  have hlen := List.length_pos_of_mem ht
  rw [List.length_take] at hlen
  refine ⟨?_, ht⟩
  rw [lineLayers_eq_drop, List.length_drop]
  omega

/-- Whatever relation the sorted candidates are ordered by holds between one left out and one drawn. -/
theorem left_out_below {p : Plan} {width : Nat} {without : List Nat} {y : Nat} {x z : Nat × PlanLayer}
    {r : Nat × PlanLayer → Nat × PlanLayer → Prop} (hr : (candidates p width without y).Pairwise r)
    (hx : Candidate p width without y x) (hn : x ∉ lineLayers p width without y)
    (hz : z ∈ lineLayers p width without y) : r x z := by
  rw [← List.take_append_drop ((candidates p width without y).length - 6)
    (candidates p width without y), List.pairwise_append] at hr
  exact hr.2.2 x (left_out_split hx hn).2 z hz

theorem numberedLayers_pairwise_ne (p : Plan) : (numberedLayers p).Pairwise fun a b => a.1 ≠ b.1 := by
  have h : ((numberedLayers p).map Prod.fst).Nodup := by
    rw [numberedLayers, List.map_fst_zip (by simp)]
    exact List.nodup_range
  exact List.pairwise_map.1 h

theorem candidates_pairwise_ne (p : Plan) (width : Nat) (without : List Nat) (y : Nat) :
    (candidates p width without y).Pairwise fun a b => a.1 ≠ b.1 :=
  ((numberedLayers_pairwise_ne p).filter _).perm (perm_sortByRank _ _).symm fun h => h.symm

theorem number_lt_of_mem_numberedLayers {p : Plan} {x : Nat × PlanLayer} (h : x ∈ numberedLayers p) :
    x.1 < p.layers.length := List.mem_range.1 (List.of_mem_zip h).1

/-- `a` stands below `b`: its rank is lower, or equal and its number lower (R3). -/
def Lower (a b : Nat × PlanLayer) : Prop := a.2.rank < b.2.rank ∨ (a.2.rank = b.2.rank ∧ a.1 < b.1)

/-- The key orders layers numbered below eight by rank, then by number (R3). -/
theorem lower_of_stackKey_le {a b : Nat × PlanLayer} (ha : a.1 < 8) (hb : b.1 < 8) (hne : a.1 ≠ b.1)
    (h : stackKey a ≤ stackKey b) : Lower a b := by
  simp only [stackKey] at h
  unfold Lower
  omega

theorem candidates_pairwise_lower {p : Plan} (hp : p.layers.length ≤ 8) (width : Nat)
    (without : List Nat) (y : Nat) : (candidates p width without y).Pairwise Lower := by
  refine ((candidates_pairwise p width without y).and
    (candidates_pairwise_ne p width without y)).imp_of_mem fun ha hb h => ?_
  have ha := number_lt_of_mem_numberedLayers (mem_candidates.1 ha).1
  have hb := number_lt_of_mem_numberedLayers (mem_candidates.1 hb).1
  exact lower_of_stackKey_le (by omega) (by omega) h.2 h.1

/-- Settles O49: the drawn layers are the last six of the sorted candidates. -/
theorem sixHighestLayersOfALine : Obligations.SixHighestLayersOfALine := by
  unfold Obligations.SixHighestLayersOfALine
  intro p width y without
  refine ⟨length_lineLayers_le p width without y, fun x => candidate_of_mem_lineLayers,
    (candidates_pairwise p width without y).drop, fun x hx hn =>
      ⟨(left_out_split hx hn).1, fun z => left_out_below (candidates_pairwise p width without y) hx hn⟩,
    fun hp => ⟨(candidates_pairwise_lower hp width without y).drop, fun x hx hn z =>
      left_out_below (candidates_pairwise_lower hp width without y) hx hn⟩⟩

end Sys2Proof.FrameProofs
end

section
/-! What only FRAME_START and RESET_N change: the frame view of a state, which every operation of every
other command keeps (R4, R18, R173, R179). -/

namespace Sys2Proof.FrameProofs
open Sys2Proof.Machine

/-- What no command but RESET_N and FRAME_START changes: the base address, the geometry while in LIVE, the
mode, the frame counter, the lock set, the plan but for its erred layers. -/
structure FrameView where
  tbase : BitVec 8
  geom : Option Geometry
  mode : Mode
  frame : FrameNo
  lock : List Nat
  plan : Option Plan

def Plan.unerred (p : Plan) : Plan := { p with erred := [] }

/-- The geometry while the mode is LIVE. -/
def liveGeom (s : State) : Option Geometry :=
  match s.report.mode with
  | .live => some s.path.geom
  | .pass => none

def frameView (s : State) : FrameView :=
  { tbase := s.path.tbase, geom := liveGeom s, mode := s.report.mode, frame := s.comp.frame,
    lock := s.comp.lock, plan := s.comp.plan.map Plan.unerred }

section
variable (s : State)

@[simp] theorem frameView_setClock (f : ClockUnit → ClockUnit) :
    frameView (setClock s f) = frameView s := rfl
@[simp] theorem frameView_setReplay (f : ReplayUnit → ReplayUnit) :
    frameView (setReplay s f) = frameView s := rfl
@[simp] theorem frameView_setMsg (f : MessageUnit → MessageUnit) :
    frameView (setMsg s f) = frameView s := rfl
@[simp] theorem frameView_setTicker (f : TickerUnit → TickerUnit) :
    frameView (setTicker s f) = frameView s := rfl
@[simp] theorem frameView_modifyPlacement (p : Nat) (f : Placement → Placement) :
    frameView (modifyPlacement s p f) = frameView s := rfl
@[simp] theorem frameView_modifySponsor (i : Nat) (f : Sponsor → Sponsor) :
    frameView (modifySponsor s i f) = frameView s := rfl
@[simp] theorem frameView_modifySlot (k : Nat) (f : Slot → Slot) :
    frameView (modifySlot s k f) = frameView s := rfl
@[simp] theorem frameView_modifyClip (c : Nat) (f : Clip → Clip) :
    frameView (modifyClip s c f) = frameView s := rfl
@[simp] theorem frameView_raise (k : NoticeKind) (d : List (Nat × List Byte)) :
    frameView (raise s k d) = frameView s := rfl
@[simp] theorem frameView_refreshDue (c : RefreshCause) :
    frameView (refreshDue s c) = frameView s := rfl
@[simp] theorem frameView_issue (d : DownTxn) : frameView (issue s d) = frameView s := rfl
@[simp] theorem frameView_enterOrder (id : BitVec 8) (dir : Dir) (k : EntryKind) (n m : Nat)
    (a : Option UpResp) : frameView (enterOrder s id dir k n m a) = frameView s := rfl
@[simp] theorem frameView_returnResponses : frameView (returnResponses s) = frameView s := rfl
@[simp] theorem frameView_modifyEntry (k : Nat) (f : Entry → Entry) :
    frameView (modifyEntry s k f) = frameView s := rfl
@[simp] theorem frameView_discard (x : Stale) : frameView (discard s x) = frameView s := rfl
@[simp] theorem frameView_setOutcomeRow (w : ReqWord) (f : OutcomeRow → OutcomeRow) :
    frameView (setOutcomeRow s w f) = frameView s := rfl
@[simp] theorem frameView_mergeCapture (bytes : List (Nat × Byte)) :
    frameView (mergeCapture s bytes) = frameView s := rfl
@[simp] theorem frameView_aside : frameView (aside s) = frameView s := rfl

@[simp] theorem frameView_settle : frameView (settle s) = frameView s := by
  rw [← frameView_aside, aside_settle, frameView_aside]

@[simp] theorem frameView_refreshStart : frameView (refreshStart s) = frameView s := by
  rw [← frameView_aside, aside_refreshStart, frameView_aside]

/-- Several operations that keep the view keep it together. -/
theorem frameView_foldl {α : Type} {f : State → α → State}
    (hf : ∀ t x, frameView (f t x) = frameView t) (l : List α) :
    frameView (l.foldl f s) = frameView s := by
  induction l generalizing s with
  | nil => rfl
  | cons x l ih => rw [List.foldl_cons, ih, hf]

@[simp] theorem frameView_issueAll (l : List DownTxn) : frameView (issueAll s l) = frameView s :=
  frameView_foldl s frameView_issue l

@[simp] theorem frameView_raiseAll {α : Type} (k : NoticeKind) (key : α → Nat)
    (detail : α → List (Nat × List Byte)) (l : List α) :
    frameView (raiseAll s k key detail l) = frameView s := by
  unfold raiseAll
  split <;> exact frameView_foldl _ (fun t x => frameView_raise t k (detail x)) _

/-! ### The clock unit -/

@[simp] theorem frameView_tryStart (c : ClockCause) : frameView (tryStart s c) = frameView s := by
  rw [tryStart_eq]
  rfl

@[simp] theorem frameView_takeConfig : frameView (takeConfig s) = frameView s := by
  rw [takeConfig_eq]
  rfl

@[simp] theorem frameView_stopClock (g : GameState) (c : ClockCause) :
    frameView (stopClock s g c) = frameView s := by
  unfold stopClock
  dsimp only
  split <;> simp

@[simp] theorem frameView_reevaluate (c : ClockCause) : frameView (reevaluate s c) = frameView s := by
  unfold reevaluate
  split
  · split <;> simp
  · simp

@[simp] theorem frameView_recordOutcome (w : ReqWord) (tag : Byte) (code : Nat) (v : Verdict) :
    frameView (recordOutcome s w tag code v) = frameView s := by
  unfold recordOutcome
  dsimp only
  split <;> simp

@[simp] theorem frameView_spotRequest (o : SpotOffsets) (i p dwell c : Nat) :
    frameView (spotRequest s o i p dwell c).1 = frameView s := by
  unfold spotRequest
  repeat' split
  all_goals rfl

@[simp] theorem frameView_periodEndSpot : frameView (periodEndSpot s) = frameView s := by
  unfold periodEndSpot
  split <;> simp

@[simp] theorem frameView_tick : frameView (tick s) = frameView s := by
  have hshot : ∀ t, frameView (shotExpire t) = frameView t := fun t => by
    simp [shotExpire, startHornShot]
  have hdown : ∀ t, frameView (expireClock t) = frameView t := fun t => by
    simp [expireClock, raisePeriodEnd, startHornGame]
  have hpoint : ∀ t, frameView (reachSetPoint t) = frameView t := fun t => by
    unfold reachSetPoint
    dsimp only
    split <;> simp [raisePeriodEnd, startHornGame]
  have hlimit : ∀ t, frameView (reachLimit t) = frameView t := fun t => by simp [reachLimit]
  unfold tick
  dsimp only
  split
  · simp only [apply_ite frameView, hshot, hdown, tickValues, frameView_setClock, ite_self]
  · simp only [apply_ite frameView, hshot, hpoint, hlimit, tickValues, frameView_setClock, ite_self]

@[simp] theorem frameView_creditTicks (n : Nat) : frameView (creditTicks n s) = frameView s := by
  induction n generalizing s with
  | zero => rfl
  | succ n ih =>
    unfold creditTicks
    split <;> simp [ih]

@[simp] theorem frameView_advanceClock : frameView (advanceClock s) = frameView s := by
  unfold advanceClock
  dsimp only
  split
  · simp [loseTimebase, raiseTimebase]
  · split <;> simp

@[simp] theorem frameView_timebaseEdge : frameView (timebaseEdge s) = frameView s := by
  unfold timebaseEdge
  split
  · split <;> simp
  · unfold countReturn
    dsimp only
    split <;> simp [raiseTimebase]

@[simp] theorem frameView_gateEdge : frameView (gateEdge s) = frameView s := by
  unfold gateEdge
  dsimp only
  rw [frameView_reevaluate, frameView_setClock]
  rfl

@[simp] theorem frameView_stopForGame : frameView (stopForGame s) = frameView s := by
  unfold stopForGame
  split <;> simp

@[simp] theorem frameView_clearClock : frameView (clearClock s) = frameView s := by simp [clearClock]

/-! ### The message unit -/

@[simp] theorem frameView_overrunTest : frameView (overrunTest s) = frameView s := by
  unfold overrunTest
  split <;> simp

@[simp] theorem frameView_fetchStart : frameView (fetchStart s) = frameView s := by
  unfold fetchStart
  split <;> simp

@[simp] theorem frameView_releaseTest : frameView (releaseTest s) = frameView s := by
  unfold releaseTest
  split <;> simp

@[simp] theorem frameView_departed : frameView (departed s) = frameView s := by simp [departed]

@[simp] theorem frameView_tailCaptured : frameView (tailCaptured s) = frameView s := by
  unfold tailCaptured
  dsimp only
  split <;> simp

@[simp] theorem frameView_queueMessage (m : Message) : frameView (queueMessage s m) = frameView s := by
  unfold queueMessage assertTest
  split <;> simp

@[simp] theorem frameView_withdraw (id : BitVec 32) : frameView (withdraw s id) = frameView s := by
  unfold withdraw
  split
  · simp [removeQueued]
  · split
    · unfold handWithdrawal
      split <;> rfl
    · simp

@[simp] theorem frameView_takeRecord (r : BitVec 16) (error : Bool) (data : List Byte) :
    frameView (takeRecord s r error data) = frameView s := by
  unfold takeRecord
  split
  · simp [raiseBad]
  · split <;> simp [raiseBad]

@[simp] theorem frameView_completeFetch (r : BitVec 16) (error : Bool) (data : List Byte) :
    frameView (completeFetch s r error data) = frameView s := by simp [completeFetch]

@[simp] theorem frameView_houseAdvance : frameView (houseAdvance s) = frameView s := by
  unfold houseAdvance expireMessages
  dsimp only
  split <;> simp

@[simp] theorem frameView_tickArrival : frameView (tickArrival s) = frameView s := by
  unfold tickArrival
  split <;> simp

/-! ### The report unit -/

@[simp] theorem frameView_refreshComplete : frameView (refreshComplete s) = frameView s := by
  unfold refreshComplete
  split
  · rfl
  · split <;> rfl

@[simp] theorem frameView_supersedeMode : frameView (supersedeMode s) = frameView s := by
  unfold supersedeMode
  split <;> rfl

theorem frameView_pendMode (m : Mode) (tag : Byte) :
    frameView (pendMode s m tag).1 = frameView s := frameView_supersedeMode s

theorem frameView_unpendMode : frameView (unpendMode s).1 = frameView s := frameView_supersedeMode s

/-! ### The requests -/

theorem frameView_showRequest (x : RequestWord) : frameView (showRequest s x).1 = frameView s := by
  have hlive : ∀ tag, frameView (goLiveRequest s tag).1 = frameView s := fun tag => by
    unfold goLiveRequest
    split
    · rfl
    · split
      · rfl
      · split
        · exact frameView_pendMode s _ _
        · exact frameView_unpendMode s
  have hpass : ∀ tag, frameView (goPassRequest s tag).1 = frameView s := fun tag => by
    unfold goPassRequest
    split
    · rfl
    · split
      · exact frameView_pendMode s _ _
      · exact frameView_unpendMode s
  unfold showRequest
  split
  · exact hlive _
  · exact hpass _
  · exact frameView_clearClock s
  · rfl
  · rfl

theorem frameView_clockRequest (x : RequestWord) : frameView (clockRequest s x).1 = frameView s := by
  have hadjust : ∀ t, frameView (adjustState t) = frameView t := fun t => by
    unfold adjustState
    repeat' split
    all_goals simp
  unfold clockRequest
  split
  · simp only [softRequest, apply_ite Prod.fst, apply_ite frameView, frameView_reevaluate,
      frameView_setClock, ite_self]
  · simp only [softRequest, apply_ite Prod.fst, apply_ite frameView, frameView_reevaluate,
      frameView_setClock, ite_self]
  · simp only [setRequest, apply_ite Prod.fst, apply_ite frameView, frameView_tryStart,
      frameView_setClock, ite_self]
  · simp only [adjustRequest, hadjust, frameView_setClock]
  · simp only [periodNextRequest, frameView_setClock, frameView_stopForGame]
  · simp only [shotResetRequest, loadShotReset, frameView_setClock]
  · simp only [shotSetRequest, apply_ite Prod.fst, apply_ite frameView, frameView_setClock, ite_self]
  · simp only [shotSwitchRequest, apply_ite Prod.fst, apply_ite frameView, frameView_setClock, ite_self]
  · simp only [shotSwitchRequest, apply_ite Prod.fst, apply_ite frameView, frameView_setClock, ite_self]
  · simp only [hornRequest, startHornGame, apply_ite Prod.fst, apply_ite frameView,
      frameView_setClock, ite_self]
  · rfl

theorem frameView_sponsorRequest (x : RequestWord) :
    frameView (sponsorRequest s x).1 = frameView s := by
  have hsuspend : ∀ i on, frameView (suspendRequest s i on).1 = frameView s := fun i on => by
    unfold suspendRequest
    repeat' split
    all_goals rfl
  unfold sponsorRequest
  split
  · exact frameView_spotRequest s _ _ _ _ _
  · unfold setLowestRequest
    repeat' split
    all_goals rfl
  · unfold endRequest
    repeat' split
    all_goals rfl
  · exact hsuspend _ _
  · exact hsuspend _ _
  · rfl

theorem frameView_supersedeWaiting : frameView (supersedeWaiting s) = frameView s := by
  unfold supersedeWaiting
  split <;> rfl

theorem frameView_replayRequest (x : RequestWord) : frameView (replayRequest s x).1 = frameView s := by
  have hwait : ∀ w, frameView (waitFor s w).1 = frameView s := fun w => frameView_supersedeWaiting s
  unfold replayRequest
  split
  · unfold armRequest
    split
    · rfl
    · simp only [apply_ite Prod.fst, apply_ite frameView, frameView_modifyClip, ite_self]
  · unfold disarmRequest
    repeat' split
    all_goals rfl
  · unfold resetRingRequest
    split <;> rfl
  · simp only [playRequest, apply_ite Prod.fst, apply_ite frameView, hwait, ite_self]
  · unfold freezeRequest
    split <;> rfl
  · unfold replayResumeRequest
    split <;> rfl
  · unfold stepRequest
    repeat' split
    all_goals rfl
  · unfold takeLiveRequest
    split
    · rfl
    · split
      · rfl
      · simp only [apply_ite Prod.fst, apply_ite frameView, hwait, ite_self]
      all_goals exact hwait _
  · rfl

theorem frameView_tickerRequest (x : RequestWord) : frameView (tickerRequest s x).1 = frameView s := by
  have hact : ∀ b, frameView (setActedOn s b) = frameView s := fun b => by
    unfold setActedOn
    split <;> rfl
  unfold tickerRequest
  split
  · unfold purgeRequest
    split
    · rfl
    · exact (frameView_departed _).trans (frameView_setMsg s _)
  · unfold pauseRequest
    split
    · exact hact _
    all_goals rfl
  · unfold tickerResumeRequest
    split
    · exact hact _
    all_goals rfl
  · rfl

theorem frameView_answerRequest (w : ReqWord) (x : RequestWord) :
    frameView (answerRequest s w x).1 = frameView s := by
  cases w with
  | showWord => exact frameView_showRequest s x
  | clockWord => exact frameView_clockRequest s x
  | sponsorWord => exact frameView_sponsorRequest s x
  | replayWord => exact frameView_replayRequest s x
  | tickerWord => exact frameView_tickerRequest s x
  | spareWord => rfl

@[simp] theorem frameView_takeRequest (w : ReqWord) : frameView (takeRequest s w) = frameView s :=
  (frameView_recordOutcome _ _ _ _ _).trans (frameView_answerRequest s w _)

@[simp] theorem frameView_takeRequests (ws : List ReqWord) :
    frameView (takeRequests ws s) = frameView s :=
  takeRequests_keeps (P := fun t => frameView t = frameView s)
    (fun w t h => (frameView_takeRequest t w).trans h) (fun t h => (frameView_settle t).trans h) ws s rfl

/-! ### Captures -/

/-- A capture reaches the geometry in force in PASS alone (R173). -/
theorem frameView_geometryCaptured (w : WriteReq) (bytes : List (Nat × Byte)) :
    frameView (geometryCaptured s w bytes) = frameView s := by
  unfold geometryCaptured
  split
  · next h =>
    have hp : s.report.mode = .pass := by
      simp only [takesGeometry, Bool.and_eq_true, beq_iff_eq] at h
      exact h.1
    have hg : ∀ g, frameView (setGeometry s g) = frameView s := fun g => by
      unfold setGeometry
      dsimp only
      split <;> simp [frameView, liveGeom, hp, emptyRing]
    exact hg _
  · split <;> simp

theorem frameView_clockConfigCaptured : frameView (clockConfigCaptured s) = frameView s := by
  unfold clockConfigCaptured
  split <;> simp

theorem frameView_teamCaptured (t : Team) (old : Nat) :
    frameView (teamCaptured s t old) = frameView s := by
  have hask : ∀ u, frameView (askFlash u t) = frameView u := fun u => by
    unfold askFlash
    split <;> rfl
  have hcut : ∀ u, frameView (sendCut u) = frameView u := fun u => by
    unfold sendCut
    split <;> rfl
  unfold teamCaptured
  split
  · simp [scoreRise, hcut, hask]
  · rfl

theorem frameView_sponsorCaptured (i : Nat) : frameView (sponsorCaptured s i) = frameView s := by
  unfold sponsorCaptured
  split <;> rfl

theorem frameView_reacting (reached : Bool) {f : State → State}
    (hf : ∀ t, frameView (f t) = frameView t) : frameView (reacting reached f s) = frameView s := by
  unfold reacting
  split
  · exact hf s
  · rfl

@[simp] theorem frameView_capture (w : WriteReq) : frameView (capture s w) = frameView s := by
  unfold capture wordReactions recordReactions configReactions
  dsimp only
  rw [frameView_takeRequests, frameView_reacting _ _ frameView_tailCaptured,
    frameView_reacting _ _ fun t => (rfl : frameView (consumeCaptured t) = frameView t),
    frameView_foldl _ frameView_sponsorCaptured,
    frameView_reacting _ _ fun t => frameView_teamCaptured t _ _,
    frameView_reacting _ _ fun t => frameView_teamCaptured t _ _,
    frameView_reacting _ _ frameView_clockConfigCaptured,
    frameView_reacting _ _ fun t => frameView_geometryCaptured t w _, frameView_mergeCapture]

/-! ### Arrivals and answers -/

theorem frameView_blockWrite (w : WriteReq) (cause sector : Nat) :
    frameView (blockWrite s w cause sector) = frameView s := rfl

theorem frameView_ingestWrite {w : WriteReq} {t : State} (h : ingestWrite s w = some t) :
    frameView t = frameView s := by
  have hopen : ∀ first k u, openFor s first = some (k, u) → frameView u = frameView s := by
    intro first k u h
    unfold openFor at h
    split at h
    · obtain ⟨j, -, h⟩ := Option.map_eq_some_iff.1 h
      cases h
      rfl
    · split at h <;> cases h <;> rfl
  have hcommit : ∀ u k, frameView (commitFrame u k) = frameView u := fun u k => by
    unfold commitFrame
    repeat' split
    all_goals rfl
  obtain ⟨⟨k, u⟩, ho, rfl⟩ := Option.map_eq_some_iff.1 h
  simp only [fillWrite, frameView_capture, apply_ite frameView, hcommit, frameView_enterOrder,
    frameView_issueAll, ite_self, hopen _ k u ho]

theorem frameView_arriveWrite {w : WriteReq} {t : State} (h : arriveWrite s w = some t) :
    frameView t = frameView s := by
  unfold arriveWrite at h
  split at h
  case h_3 => exact frameView_ingestWrite s h
  all_goals cases h; simp [blockWrite, forwardWrite]

theorem frameView_arriveRead (r : ReadReq) : frameView (arriveRead s r) = frameView s := by
  unfold arriveRead
  split
  · next p _ _ =>
    calc frameView (compositedRead s r p)
        = frameView (enterOrder (issueAll s _) r.id .read .composited _ r.beats none) := rfl
      _ = frameView s := by rw [frameView_enterOrder, frameView_issueAll]
  · split
    · simp [windowRead]
    · simp [forwardRead]

/-- Whatever only answers reads keeps the view. -/
theorem frameView_of_sameButAnswers {s t : State} (h : SameButAnswers s t) :
    frameView t = frameView s := by
  rw [h]
  rfl

@[simp] theorem frameView_answerKey (key : Nat) (r : UpResp) :
    frameView (answerKey s key r) = frameView s := frameView_of_sameButAnswers (answerKey_same s key r)

theorem frameView_programError (read : ReadName) : frameView (programError s read) = frameView s := by
  unfold programError
  split
  · rfl
  · split
    · split
      · exact frameView_of_sameButAnswers ((modifyRead_same s _ _).trans (failRead_same _ _))
      · rfl
    · rfl

/-- A layer that an error drops is all that changes in the plan (R14). -/
theorem frameView_eraseLayer (f : FrameNo) (l : Nat) : frameView (eraseLayer s f l) = frameView s := by
  unfold eraseLayer
  rw [frameView_issueAll]
  cases hp : s.comp.plan with
  | none => simp [frameView, liveGeom, hp]
  | some p =>
    by_cases hf : p.frame = f <;> simp [frameView, liveGeom, hp, hf, Plan.unerred]

theorem frameView_overlayError (read : ReadName) (l addr : Nat) :
    frameView (overlayError s read l addr) = frameView s := by
  unfold overlayError
  split
  · rfl
  · split
    · rfl
    · split
      · rw [frameView_raise, frameView_eraseLayer]
      · rfl

theorem frameView_compositedAnswer (read : ReadName) (f : Fetched) :
    frameView (compositedAnswer s read f) = frameView s := by
  unfold compositedAnswer
  split
  · rfl
  · split
    · rfl
    · split
      · exact frameView_of_sameButAnswers (completeRead_same s _ _)
      · rfl

theorem frameView_ingestResponse (id : BitVec 8) (outside : Bool) (code : Resp) :
    frameView (ingestResponse s id outside code) = frameView s := by
  have hset : ∀ u e k a b, frameView (setPieces u e k a b) = frameView u := fun u e k a b => by
    unfold setPieces
    split <;> simp
  unfold ingestResponse
  split
  · rfl
  · split
    · rfl
    · split
      · exact hset _ _ _ _ _
      · rw [hset]
        split <;> rfl
      · rfl

theorem frameView_forwardedResponse (dir : Dir) (id : BitVec 8) (data : List Byte)
    (status : List Resp) : frameView (forwardedResponse s dir id data status) = frameView s := by
  unfold forwardedResponse
  split
  · rfl
  · split
    · rfl
    · split <;> simp

end

/-! ### Commands -/

/-- Every next state of this outcome has the frame view of `s`. -/
def KeepsFrame (s : State) (o : Host.Outcome State Fault Refusal) : Prop :=
  ∀ t, o = .next t → frameView t = frameView s

section
variable {s u : State}

theorem keepsFrame_next (h : frameView u = frameView s) : KeepsFrame s (.next u) := by
  rintro t ⟨⟩
  exact h

theorem keepsFrame_done (h : frameView u = frameView s) : KeepsFrame s (done u) :=
  keepsFrame_next ((frameView_settle u).trans h)

theorem keepsFrame_whenDue (due : Bool) (h : frameView u = frameView s) :
    KeepsFrame s (whenDue due u s) := by
  unfold whenDue
  split
  · exact keepsFrame_done h
  · exact keepsFrame_next rfl

theorem keepsFrame_settled {r : Option State} (h : ∀ u, r = some u → frameView u = frameView s) :
    KeepsFrame s (settled r) := by
  cases r with
  | none => rintro t ⟨⟩
  | some u => exact keepsFrame_done (h u rfl)

theorem keepsFrame_asking (id : BitVec 8) (w : ReqWord) (code : Byte) (params : List Byte)
    (tag : Byte) : KeepsFrame s (asking id w code params tag s) :=
  keepsFrame_settled fun _ => frameView_arriveWrite s

theorem keepsFrame_arriving (w : WriteReq) : KeepsFrame s (arriving w s) := by
  unfold arriving
  split
  · exact keepsFrame_settled fun _ => frameView_arriveWrite s
  · rintro t ⟨⟩

theorem keepsFrame_reading (r : ReadReq) : KeepsFrame s (reading r s) := by
  unfold reading
  split
  · exact keepsFrame_done (frameView_arriveRead s r)
  · rintro t ⟨⟩

theorem keepsFrame_intakeFetchComplete (error : Bool) (data : List Byte) :
    KeepsFrame s (execIntakeFetchComplete error data s) := by
  unfold execIntakeFetchComplete
  split
  · exact keepsFrame_next rfl
  · split
    · exact keepsFrame_next rfl
    · exact keepsFrame_whenDue _ (frameView_completeFetch s _ _ _)

end
end Sys2Proof.FrameProofs
end

section
/-! What each unit's handling of FRAME_START leaves as it was (R4): for each unit, the state without what
that unit may change, which its handling keeps. -/

namespace Sys2Proof.FrameProofs
open Sys2Proof.Machine

/-- The report is an occurrence of one of these kinds. -/
def isOf (ks : List NoticeKind) : Report → Bool
  | .occurrence k _ => ks.contains k
  | .consume _ => false

/-- The reports of a list that are no occurrence of these kinds. -/
def reportsBut (ks : List NoticeKind) (l : List Report) : List Report := l.filter fun r => !isOf ks r

theorem reportsBut_append_occurrence {ks : List NoticeKind} {k : NoticeKind} (h : k ∈ ks)
    (l : List Report) (d : List Byte) :
    reportsBut ks (l ++ [.occurrence k d]) = reportsBut ks l := by
  simp [reportsBut, isOf, h]

/-! ### The replay unit -/

/-- The kinds the replay unit raises at a FRAME_START. -/
def replayKinds : List NoticeKind := [.replayStarted, .replayEnded, .requestRefused]

/-- The outcome table without the row of the REPLAY word. -/
def outcomesBut (w : ReqWord) (l : List OutcomeRow) : List OutcomeRow := l.set w.code emptyRow

/-- The state without what the replay unit's handling may change. -/
def sansReplay (s : State) : State :=
  { s with
    replay := .reset
    report := { s.report with
      outcomes := outcomesBut .replayWord s.report.outcomes
      raised := reportsBut replayKinds s.report.raised } }

section
variable (s : State)

@[simp] theorem sansReplay_setReplay (f : ReplayUnit → ReplayUnit) :
    sansReplay (setReplay s f) = sansReplay s := rfl
@[simp] theorem sansReplay_modifyClip (c : Nat) (f : Clip → Clip) :
    sansReplay (modifyClip s c f) = sansReplay s := rfl
@[simp] theorem sansReplay_modifySlot (k : Nat) (f : Slot → Slot) :
    sansReplay (modifySlot s k f) = sansReplay s := rfl

theorem outcomesBut_modify (w : ReqWord) (f : OutcomeRow → OutcomeRow) (l : List OutcomeRow) :
    outcomesBut w (l.modify w.code f) = outcomesBut w l := by
  apply List.ext_getElem?
  intro i
  simp only [outcomesBut, List.getElem?_set, List.getElem?_modify, List.length_modify]
  by_cases h : w.code = i <;> simp [h]

@[simp] theorem sansReplay_setOutcomeRow (f : OutcomeRow → OutcomeRow) :
    sansReplay (setOutcomeRow s .replayWord f) = sansReplay s := by
  simp only [sansReplay, setOutcomeRow, outcomesBut_modify]

@[simp] theorem sansReplay_dropMarked (o : ReqOutcome) :
    sansReplay (dropMarked s .replayWord o) = sansReplay s := sansReplay_setOutcomeRow s _
@[simp] theorem sansReplay_clearMarks :
    sansReplay (clearMarks s .replayWord) = sansReplay s := sansReplay_setOutcomeRow s _

theorem sansReplay_raise {k : NoticeKind} (h : k ∈ replayKinds) (d : List (Nat × List Byte)) :
    sansReplay (raise s k d) = sansReplay s := by
  simp only [sansReplay, raise, raiseReport, reportsBut_append_occurrence h]

@[simp] theorem sansReplay_endReplay (c : EndCause) : sansReplay (endReplay s c) = sansReplay s := by
  rw [endReplay, sansReplay_raise _ (by decide), returnLive]
  split <;> simp

@[simp] theorem sansReplay_startReplay (c : Nat) : sansReplay (startReplay s c) = sansReplay s := by
  rw [startReplay, raiseStarted, sansReplay_raise _ (by decide), putOnAir, sansReplay_setReplay]

@[simp] theorem sansReplay_leaveReplay (b : Nat) (c : EndCause) :
    sansReplay (leaveReplay s b c) = sansReplay s := rfl

@[simp] theorem sansReplay_fulfilWaiting : sansReplay (fulfilWaiting s) = sansReplay s := by
  simp [fulfilWaiting]

@[simp] theorem sansReplay_dropWaiting : sansReplay (dropWaiting s) = sansReplay s := by
  unfold dropWaiting
  split
  · unfold supersedeWaiting
    split <;> simp
  · simp
  · rfl

theorem sansReplay_advanceReplay : sansReplay (advanceReplay s) = sansReplay s := by
  have hnext : sansReplay (nextBumper s) = sansReplay s := rfl
  have hend : sansReplay (endAction s) = sansReplay s := by
    unfold endAction
    dsimp only
    split
    · rfl
    · split <;> simp
  unfold advanceReplay
  split
  · rfl
  · rfl
  · simp only [apply_ite sansReplay, sansReplay_startReplay, hnext, ite_self]
  · simp only [apply_ite sansReplay, sansReplay_endReplay, hnext, ite_self]
  · simp only [apply_ite sansReplay, sansReplay_setReplay, hend, ite_self]

theorem sansReplay_carryPlay (c : Nat) : sansReplay (carryPlay s c) = sansReplay s := by
  unfold carryPlay
  split
  · have hswap : sansReplay (swapPlaying (fulfilWaiting s) c) = sansReplay s := by simp [swapPlaying]
    unfold cutToClip
    dsimp only
    split <;> simp only [apply_ite sansReplay, sansReplay_startReplay, enterClip, putOnAir,
      sansReplay_setReplay, hswap, ite_self]
  · unfold refusePlay
    dsimp only
    split
    · rw [sansReplay_raise _ (by decide)]
      simp
    · simp

theorem sansReplay_carryTakeLive : sansReplay (carryTakeLive s) = sansReplay s := by
  unfold carryTakeLive
  dsimp only
  split <;> simp only [apply_ite sansReplay, sansReplay_leaveReplay, sansReplay_endReplay,
    sansReplay_fulfilWaiting, ite_self]

theorem sansReplay_carryCut : sansReplay (carryCut s) = sansReplay s := by
  unfold carryCut
  dsimp only
  split <;> simp

theorem sansReplay_replayLive : sansReplay (replayLive s) = sansReplay s := by
  unfold replayLive
  split
  · exact sansReplay_carryCut s
  · split
    · exact sansReplay_carryPlay s _
    · exact sansReplay_carryTakeLive s
    · exact sansReplay_advanceReplay s

theorem sansReplay_replayPass : sansReplay (replayPass s) = sansReplay s := by
  have hret : ∀ t, sansReplay (returnLive t) = sansReplay t := fun t => by
    unfold returnLive
    dsimp only
    split <;> simp
  have hfill : ∀ t, sansReplay (abandonFilling t) = sansReplay t := fun t => by
    unfold abandonFilling
    split <;> rfl
  unfold replayPass
  dsimp only
  rw [hfill]
  split <;> simp [hret]

/-- The replay unit's handling of FRAME_START changes the replay unit, the row of its word and what is
raised of its kinds (R120). -/
@[simp] theorem sansReplay_replayFrame : sansReplay (replayFrame s) = sansReplay s := by
  have hshown : ∀ t, sansReplay (markShown t) = sansReplay t := fun t => by
    unfold markShown
    split <;> rfl
  unfold replayFrame
  rw [hshown]
  split
  · exact sansReplay_replayPass s
  · exact sansReplay_replayLive s

/-! ### The rotation unit -/

/-- The kinds steps 3 to 7 of the rotation unit raise. -/
def rotKinds : List NoticeKind := [.spotDropped, .fallbackShown]

/-- The state without what steps 3 to 7 of the rotation unit may change. -/
def sansRot (s : State) : State :=
  { s with
    rot := { s.rot with placements := [], sponsors := s.rot.sponsors.map fun x => { x with pointer := 0 } }
    report := { s.report with raised := reportsBut rotKinds s.report.raised, draws := 0 } }

@[simp] theorem sansRot_modifyPlacement (p : Nat) (f : Placement → Placement) :
    sansRot (modifyPlacement s p f) = sansRot s := rfl

theorem sansRot_raise {k : NoticeKind} (h : k ∈ rotKinds) (d : List (Nat × List Byte)) :
    sansRot (raise s k d) = sansRot s := by
  simp only [sansRot, raise, raiseReport, reportsBut_append_occurrence h]

/-- Several operations that keep a view of the state keep it together. -/
theorem view_foldl {α β : Type} {view : State → β} {f : State → α → State}
    (hf : ∀ t x, view (f t x) = view t) (l : List α) : view (l.foldl f s) = view s := by
  induction l generalizing s with
  | nil => rfl
  | cons x l ih => rw [List.foldl_cons, ih, hf]

@[simp] theorem sansRot_raiseDrops (p : Nat) (drops : List (Spot × DropCause)) :
    sansRot (raiseDrops s p drops) = sansRot s := by
  unfold raiseDrops raiseAll
  split <;> exact view_foldl _ (fun t x => sansRot_raise t (by decide) _) _

@[simp] theorem sansRot_movePointer (i c : Nat) : sansRot (movePointer s i c) = sansRot s := by
  have h : ∀ l : List Sponsor, (l.modify i fun x => { x with pointer := (c + 1) % 8 }).map
      (fun x => { x with pointer := 0 }) = l.map fun x => { x with pointer := 0 } := fun l => by
    apply List.ext_getElem?
    intro j
    simp only [List.getElem?_map, List.getElem?_modify]
    by_cases hj : i = j <;> cases l[j]? <;> simp [hj]
  simp only [sansRot, movePointer, modifySponsor, h]

@[simp] theorem sansRot_rotEmptyOne (p : Nat) : sansRot (rotEmptyOne s p) = sansRot s := by
  unfold rotEmptyOne
  dsimp only
  rw [takeFields, sansRot_modifyPlacement]
  simp only [apply_ite sansRot, sansRot_raiseDrops, emptyPlacement, sansRot_modifyPlacement, ite_self]

@[simp] theorem sansRot_selectOn (p : Nat) : sansRot (selectOn s p) = sansRot s := by
  unfold selectOn
  split
  · split
    · simp [putBottom]
    · rfl
  · rw [sansRot_raise _ (by decide), putBottom, sansRot_modifyPlacement]

@[simp] theorem sansRot_pushWalk (p : Nat) (l : List Nat) : sansRot (pushWalk p l s) = sansRot s := by
  induction l generalizing s with
  | nil => rfl
  | cons i is ih =>
    unfold pushWalk
    split
    · exact ih s
    · split
      · exact ih s
      · split
        · simp only [pushSpot, apply_ite sansRot, sansRot_movePointer, removeSpot,
            sansRot_modifyPlacement, ite_self]
        · rw [ih, sansRot_raiseDrops, removeSpot, sansRot_modifyPlacement]

@[simp] theorem sansRot_rotRefill (p : Nat) : sansRot (rotRefill s p) = sansRot s := by
  have hpush : ∀ t, sansRot (pushOn t p) = sansRot t := fun t => by
    simp only [pushOn, apply_ite sansRot, sansRot_pushWalk, ite_self]
  simp only [rotRefill, apply_ite sansRot, hpush, sansRot_selectOn, ite_self]

theorem sansRot_rotBeforeEnds : sansRot (rotBeforeEnds s).2 = sansRot s := by
  have hdrop : ∀ t p, sansRot (rotDropSpots t p) = sansRot t := fun t p => by
    simp [rotDropSpots]
  have hsuspend : ∀ t p, sansRot (rotSuspend t p) = sansRot t := fun t p => rfl
  simp only [rotBeforeEnds, rotEmpty]
  rw [view_foldl _ hdrop, view_foldl _ hsuspend, view_foldl _ sansRot_rotEmptyOne]

/-- After its first two steps the rotation unit changes its placements, the sponsors' pointers and what is
raised of its kinds (R44). -/
theorem sansRot_rotFrame (hand : List Handover) (returned : Bool) :
    sansRot (rotFrame s hand returned) = sansRot (rotOpen s hand) := by
  have hend : ∀ b t p, sansRot (rotEnd b returned t p) = sansRot t := fun b t p => rfl
  unfold rotFrame
  dsimp only
  split
  · exact view_foldl (f := fun t p => takeFields (emptyPlacement t p) p) _ (fun t p => rfl) _
  · rw [view_foldl _ sansRot_rotRefill, view_foldl _ (hend _), sansRot_rotBeforeEnds]

/-! ### The ticker unit -/

/-- The state without what the ticker unit's handling may change. -/
def sansTicker (s : State) : State :=
  { s with
    ticker := .reset
    msg := { s.msg with fetch := none, queue := [], hold := false }
    path := { s.path with issued := [] } }

@[simp] theorem sansTicker_setTicker (f : TickerUnit → TickerUnit) :
    sansTicker (setTicker s f) = sansTicker s := rfl

@[simp] theorem sansTicker_departed : sansTicker (departed s) = sansTicker s := by
  have hrel : ∀ t, sansTicker (releaseTest t) = sansTicker t := fun t => by
    unfold releaseTest
    split <;> rfl
  have hfetch : ∀ t, sansTicker (fetchStart t) = sansTicker t := fun t => by
    unfold fetchStart
    split <;> rfl
  rw [departed, hfetch, hrel]

theorem sansTicker_bandEnter : sansTicker (bandEnter s) = sansTicker s := by
  have henter : ∀ m rest, sansTicker (enterHead s m rest) = sansTicker s := fun m rest =>
    sansTicker_departed _
  unfold bandEnter
  dsimp only
  split
  · simp only [apply_ite sansTicker, sansTicker_setTicker, ite_self]
    split
    · rfl
    · simp only [apply_ite sansTicker, henter, ite_self]
  · rfl

/-- The ticker unit's handling of FRAME_START changes the ticker and message units, and issues the fetch of
a departure (R154). -/
@[simp] theorem sansTicker_tickerFrame : sansTicker (tickerFrame s) = sansTicker s := by
  have hstart : ∀ t, sansTicker (bandStart t) = sansTicker t := fun t => by
    unfold bandStart
    split <;> rfl
  have hscroll : ∀ t, sansTicker (bandScroll t) = sansTicker t := fun t => by
    unfold bandScroll
    split <;> rfl
  have hsuppress : ∀ t, sansTicker (bandSuppress t) = sansTicker t := fun t => by
    unfold bandSuppress
    dsimp only
    split
    · split <;> rfl
    · split <;> rfl
  unfold tickerFrame
  split
  · rfl
  · rw [sansTicker_bandEnter, hstart, bandWithdraw, sansTicker_setTicker, hscroll, hsuppress]

/-! ### The score unit and the mode -/

/-- The score unit's handling of FRAME_START changes the score unit alone (R86). -/
theorem scoreFrame_eq : scoreFrame s = { s with score := (scoreFrame s).score } := by
  unfold scoreFrame renderFields flashFrame
  split <;> rfl

/-- The mode of a frame is the mode ahead at its FRAME_START (R179). -/
theorem mode_frameOpened : (frameOpened s).report.mode = modeAhead s := by
  obtain hp | ⟨p, hp⟩ := Option.eq_none_or_eq_some s.comp.plan
  · simp [frameOpened, modeFrame, modeAhead, openFrame, hp]
  · obtain hm | ⟨⟨m, tag⟩, hm⟩ := Option.eq_none_or_eq_some s.report.pendingMode
    · simp [frameOpened, modeFrame, modeAhead, openFrame, hp, hm]
    · simp [frameOpened, modeFrame, modeAhead, openFrame, hp, hm, raise, raiseReport, setReport]

end
end Sys2Proof.FrameProofs
end

section
/-! What the units together leave as it was at a FRAME_START, and the settling of the statement that only
FRAME_START changes the frame. -/

namespace Sys2Proof.FrameProofs
open Sys2Proof.Machine

section
variable (s : State)

/-- The state without what steps 1 and 2 of the rotation unit may change. -/
def sansAccrual (s : State) : State :=
  { s with
    rot := { s.rot with sponsors := [] }
    report := { s.report with raised := reportsBut [.exposureTarget] s.report.raised, draws := 0 } }

/-- The accrual and the cap test change the sponsors' records and what is raised of their kind (R29,
R35). -/
theorem sansAccrual_rotOpen (hand : List Handover) :
    sansAccrual (rotOpen s hand) = sansAccrual s := by
  have hraise : ∀ t d, sansAccrual (raise t .exposureTarget d) = sansAccrual t := fun t d => by
    simp only [sansAccrual, raise, raiseReport, reportsBut_append_occurrence (List.mem_singleton_self _)]
  have hcap : ∀ t i, sansAccrual (modifySponsor t i fun x => { x with capped := true }) =
    sansAccrual t := fun t i => rfl
  have haccrue : sansAccrual (rotAccrue s hand) = sansAccrual s := rfl
  unfold rotOpen rotCapTest raiseAll
  dsimp only
  split
  · rw [view_foldl _ fun t i => hraise t _, view_foldl _ hcap, haccrue]
  · rw [view_foldl _ fun t i => hraise t _]
    exact (view_foldl _ hcap _).trans haccrue

/-- The state without what the mode's handling may change. -/
def sansMode (s : State) : State :=
  { s with
    report := { s.report with
      mode := .pass, pendingMode := none
      outcomes := outcomesBut .showWord s.report.outcomes
      raised := reportsBut [.modeChanged] s.report.raised } }

/-- A pending mode that takes effect changes the mode, the row of its word and what is raised (R179,
R183). -/
theorem sansMode_modeFrame : sansMode (modeFrame s) = sansMode s := by
  have hraise : ∀ t d, sansMode (raise t .modeChanged d) = sansMode t := fun t d => by
    simp only [sansMode, raise, raiseReport, reportsBut_append_occurrence (List.mem_singleton_self _)]
  unfold modeFrame
  split
  · rfl
  · rfl
  · rw [hraise]
    simp only [sansMode, setReport, clearMarks, setOutcomeRow, outcomesBut_modify]

/-- The state without what a unit's handling of FRAME_START may change. -/
def sansUnits (s : State) : State :=
  { s with
    path := { s.path with issued := [] }
    rot := .reset, score := .reset, replay := .reset, ticker := .reset
    msg := { s.msg with fetch := none, queue := [], hold := false }
    report := { s.report with
      mode := .pass, pendingMode := none, outcomes := [], raised := [], draws := 0 } }

/-- What the units leave as it was once the frame is opened (R4). -/
theorem sansUnits_frameUnits : sansUnits (frameUnits s) = sansUnits (openFrame s) := by
  have hticker : ∀ t, sansUnits (tickerFrame t) = sansUnits t := fun t =>
    (congrArg sansUnits (sansTicker_tickerFrame t) :)
  have hrot : ∀ t hand r, sansUnits (rotFrame t hand r) = sansUnits t := fun t hand r =>
    (congrArg sansUnits (sansRot_rotFrame t hand r) :).trans
      (congrArg sansUnits (sansAccrual_rotOpen t hand) :)
  have hscore : ∀ t, sansUnits (scoreFrame t) = sansUnits t := fun t => by
    rw [scoreFrame_eq]
    rfl
  have hreplay : ∀ t, sansUnits (replayFrame t) = sansUnits t := fun t =>
    (congrArg sansUnits (sansReplay_replayFrame t) :)
  have hmode : ∀ t, sansUnits (modeFrame t) = sansUnits t := fun t =>
    (congrArg sansUnits (sansMode_modeFrame t) :)
  unfold frameUnits frameSourced frameOpened
  rw [hticker, hrot, hscore, hreplay, hmode]

@[simp] theorem pending_frameUnits : (frameUnits s).pending = s.pending :=
  (congrArg State.pending (sansUnits_frameUnits s) :)
@[simp] theorem gateRun_frameUnits : (frameUnits s).gateRun = s.gateRun :=
  (congrArg State.gateRun (sansUnits_frameUnits s) :)
@[simp] theorem comp_frameUnits : (frameUnits s).comp = (openFrame s).comp :=
  (congrArg State.comp (sansUnits_frameUnits s) :)
@[simp] theorem clock_frameUnits : (frameUnits s).clock = s.clock :=
  (congrArg State.clock (sansUnits_frameUnits s) :)
@[simp] theorem tbase_frameUnits : (frameUnits s).path.tbase = s.path.tbase :=
  (congrArg (fun t => t.path.tbase) (sansUnits_frameUnits s) :)
@[simp] theorem geom_frameUnits : (frameUnits s).path.geom = s.path.geom :=
  (congrArg (fun t => t.path.geom) (sansUnits_frameUnits s) :)
@[simp] theorem shadow_frameUnits : (frameUnits s).path.shadow = s.path.shadow :=
  (congrArg (fun t => t.path.shadow) (sansUnits_frameUnits s) :)
@[simp] theorem order_frameUnits : (frameUnits s).path.order = s.path.order :=
  (congrArg (fun t => t.path.order) (sansUnits_frameUnits s) :)
@[simp] theorem returned_frameUnits : (frameUnits s).path.returned = s.path.returned :=
  (congrArg (fun t => t.path.returned) (sansUnits_frameUnits s) :)
@[simp] theorem head_frameUnits : (frameUnits s).msg.head = s.msg.head :=
  (congrArg (fun t => t.msg.head) (sansUnits_frameUnits s) :)
@[simp] theorem tail_frameUnits : (frameUnits s).msg.tail = s.msg.tail :=
  (congrArg (fun t => t.msg.tail) (sansUnits_frameUnits s) :)
@[simp] theorem held_frameUnits : (frameUnits s).report.held = s.report.held :=
  (congrArg (fun t => t.report.held) (sansUnits_frameUnits s) :)
@[simp] theorem snapshot_frameUnits : (frameUnits s).report.snapshot = s.report.snapshot :=
  (congrArg (fun t => t.report.snapshot) (sansUnits_frameUnits s) :)
@[simp] theorem refreshCount_frameUnits : (frameUnits s).report.refreshCount = s.report.refreshCount :=
  (congrArg (fun t => t.report.refreshCount) (sansUnits_frameUnits s) :)
@[simp] theorem ring_frameUnits : (frameUnits s).report.ring = s.report.ring :=
  (congrArg (fun t => t.report.ring) (sansUnits_frameUnits s) :)
@[simp] theorem produce_frameUnits : (frameUnits s).report.produce = s.report.produce :=
  (congrArg (fun t => t.report.produce) (sansUnits_frameUnits s) :)
@[simp] theorem consume_frameUnits : (frameUnits s).report.consume = s.report.consume :=
  (congrArg (fun t => t.report.consume) (sansUnits_frameUnits s) :)

end

/-! ### Only FRAME_START changes the frame -/

/-- A command that begins no frame keeps the frame view (R4). -/
theorem keepsFrame_exec (s : State) (c : Instr) (hr : isReset c = false)
    (hb : beginsFrame c = false) : KeepsFrame s (exec c s) := by
  cases c with
  | resetN | frameStart | flashEnd | stackEntryDwellEnd | enteringBumperEnd | leavingBumperEnd
  | clipEndAction => simp [isReset, beginsFrame] at hr hb
  | gateRunEdge => exact keepsFrame_done (frameView_gateEdge s)
  | shotRstEdge => exact keepsFrame_done (frameView_setClock s _)
  | tbInEdge => exact keepsFrame_done (frameView_timebaseEdge s)
  | houseTimeAdvance => exact keepsFrame_done (frameView_houseAdvance s)
  | timebaseLoss | hornEnd | messageExpiry => exact keepsFrame_whenDue _ (frameView_houseAdvance s)
  | timebaseRestore => exact keepsFrame_whenDue _ (frameView_timebaseEdge s)
  | gameClockExpiry | shotClockExpiry | upSetPointReached | upLimit =>
    exact keepsFrame_whenDue _ (frameView_tickArrival s)
  | compositedRead r | windowRead r => exact keepsFrame_reading r
  | compositedReadAnswer read => exact keepsFrame_done (frameView_compositedAnswer s read _)
  | overlayFetchError read l a => exact keepsFrame_done (frameView_overlayError s read l a)
  | programFetchError read => exact keepsFrame_done (frameView_programError s read)
  | ingestWriteResponse id o code => exact keepsFrame_done (frameView_ingestResponse s id o code)
  | forwardedResponse dir id d st => exact keepsFrame_done (frameView_forwardedResponse s dir id d st)
  | forwardedTransaction t =>
    cases t with
    | read r => exact keepsFrame_reading r
    | write w => exact keepsFrame_arriving w
  | ingestWrite w | blockedWrite w | partOwnedWrite w | capturedWrite w | geometryCapture w
  | teamRecordCapture w | sponsorEntryCapture w | clockConfigCapture w | intakeTailCapture w
  | noticeConsumeCapture w => exact keepsFrame_arriving w
  | intakeFetchStart => exact keepsFrame_done (frameView_fetchStart s)
  | intakeFetchComplete e d => exact keepsFrame_intakeFetchComplete e d
  | statusRefreshStart => exact keepsFrame_next (frameView_refreshStart s)
  | statusRefreshComplete => exact keepsFrame_done (frameView_refreshComplete s)
  | goLive | goPass | clearGame | clearExposure | spareRequest | runEnable | runDisable | clockSet
  | clockAdjust | periodNext | shotReset | shotSet | shotEnable | shotDisable | horn | spot | setLowest
  | endEntry | suspend | sponsorResume | arm | disarm | resetRing | play | freeze | replayResume
  | stepReplay | takeLive | purge | pause | tickerResume | unknownRequestCode =>
    exact keepsFrame_asking _ _ _ _ _

/-- A command at whose arrival a frame may begin is a FRAME_START or nothing (log 5). -/
theorem exec_of_beginsFrame {s t : State} {c : Instr} (hb : beginsFrame c = true)
    (h : exec c s = .next t) : t = settle (frameStart s) ∨ t = s := by
  have due : ∀ d, whenDue d (frameStart s) s = .next t → t = settle (frameStart s) ∨ t = s := by
    intro d h
    unfold whenDue at h
    split at h <;> cases h
    · exact .inl rfl
    · exact .inr rfl
  cases c with
  | frameStart => cases h; exact .inl rfl
  | flashEnd | stackEntryDwellEnd | enteringBumperEnd | leavingBumperEnd | clipEndAction =>
    exact due _ h
  | _ => simp [beginsFrame] at hb

/-- FRAME_START keeps the base address and the taken geometry (R173). -/
theorem path_settle_frameStart (s : State) :
    (settle (frameStart s)).path.tbase = s.path.tbase ∧
      (settle (frameStart s)).path.geom = s.path.geom := by
  rw [settle_tbase, settle_geom]
  exact ⟨tbase_frameUnits s, geom_frameUnits s⟩

/-- Settles O59: every command but RESET_N and those at which a frame begins keeps the frame view, and
FRAME_START keeps the base address and the geometry. -/
theorem onlyFrameStartChangesTheFrame : Obligations.OnlyFrameStartChangesTheFrame := by
  unfold Obligations.OnlyFrameStartChangesTheFrame
  intro s t c rest hs ht hr
  have he : exec c { s with pending := rest } = .next t := by
    rw [step, hs] at ht
    exact ht
  cases hb : beginsFrame c with
  | true =>
    rcases exec_of_beginsFrame hb he with rfl | rfl
    · obtain ⟨htb, hg⟩ := path_settle_frameStart { s with pending := rest }
      exact ⟨htb, fun _ => hg, nofun⟩
    · exact ⟨rfl, fun _ => rfl, nofun⟩
  | false =>
    have hv : frameView t = frameView s :=
      keepsFrame_exec { s with pending := rest } c hr hb t he
    have hmode : t.report.mode = s.report.mode := congrArg FrameView.mode hv
    refine ⟨congrArg FrameView.tbase hv, fun hl => ?_, fun _ => ⟨hmode, congrArg FrameView.frame hv,
      congrArg FrameView.lock hv, congrArg FrameView.plan hv⟩⟩
    have hgeom : liveGeom t = liveGeom s := congrArg FrameView.geom hv
    simpa only [liveGeom, hmode, hl, Option.some.injEq] using hgeom

end Sys2Proof.FrameProofs
end

section
/-! The fetches of a composited read (R9 to R12, R14). -/

namespace Sys2Proof.FrameProofs
open Sys2Proof.Machine

/-- Issuing several transactions appends them to the record of what was issued. -/
theorem issueAll_eq (s : State) (l : List DownTxn) :
    issueAll s l = { s with path := { s.path with issued := s.path.issued ++ l } } := by
  induction l generalizing s with
  | nil => simp [issueAll]
  | cons d l ih =>
    have hcons : issueAll s (d :: l) = issueAll (issue s d) l := rfl
    rw [hcons, ih]
    simp [issue]

/-- The pieces of a read, before they are put in the order of their lowest addresses. -/
def pieceOf (id : BitVec 8) (dest : Nat → Purpose × Nat) (addrs : List Nat) (p : Purpose) :
    Option (Nat × DownTxn) :=
  match addrs.filter fun a => (dest a).1 == p with
  | [] => none
  | a :: as => some (as.foldl min a, DownTxn.fetch id p ((a :: as).map fun x => (dest x).2))

theorem perm_readPieces (id : BitVec 8) (dest : Nat → Purpose × Nat) (addrs : List Nat) :
    (readPieces id dest addrs).Perm
      (([Purpose.program, .window, .outside].filterMap (pieceOf id dest addrs)).map Prod.snd) :=
  (perm_sortByRank _ _).map _

/-- A piece fetches the bytes of its purpose where they lie. -/
theorem snd_of_pieceOf {id : BitVec 8} {dest : Nat → Purpose × Nat} {addrs : List Nat} {p : Purpose}
    {x : Nat × DownTxn} (h : pieceOf id dest addrs p = some x) :
    x.2 = .fetch id p ((addrs.filter fun a => (dest a).1 == p).map fun a => (dest a).2) := by
  unfold pieceOf at h
  split at h
  · cases h
  · next hf =>
    cases h
    rw [hf]

theorem pieceOf_isSome {id : BitVec 8} {dest : Nat → Purpose × Nat} {addrs : List Nat} {p : Purpose}
    {a : Nat} (ha : a ∈ addrs) (hp : (dest a).1 = p) : ∃ x, pieceOf id dest addrs p = some x := by
  have hm : a ∈ addrs.filter fun a => (dest a).1 == p := by simp [ha, hp]
  unfold pieceOf
  split
  · next hf => rw [hf] at hm; cases hm
  · exact ⟨_, rfl⟩

theorem mem_readPieces {id : BitVec 8} {dest : Nat → Purpose × Nat} {addrs : List Nat} {f : DownTxn}
    (h : f ∈ readPieces id dest addrs) :
    ∃ p l, f = .fetch id p l ∧ (p = .program ∨ p = .window ∨ p = .outside) := by
  rw [(perm_readPieces id dest addrs).mem_iff] at h
  obtain ⟨x, hx, rfl⟩ := List.mem_map.1 h
  obtain ⟨p, hp, hx⟩ := List.mem_filterMap.1 hx
  exact ⟨p, _, snd_of_pieceOf hx, by simpa using hp⟩

/-- The transaction is a fetch of program bytes. -/
def isProgramFetch : DownTxn → Bool
  | .fetch _ .program _ => true
  | _ => false

/-- A read with a program byte has one program piece, with all of them in order (R12, R165). -/
theorem readPieces_program (id : BitVec 8) (dest : Nat → Purpose × Nat) (addrs : List Nat)
    (h : ∃ a ∈ addrs, (dest a).1 = .program) :
    (readPieces id dest addrs).filter isProgramFetch =
      [.fetch id .program ((addrs.filter fun a => (dest a).1 == .program).map fun a => (dest a).2)] := by
  obtain ⟨a, ha, hp⟩ := h
  obtain ⟨x, hx⟩ := pieceOf_isSome (id := id) ha hp
  have hother : ∀ p, p ≠ .program → ∀ y, pieceOf id dest addrs p = some y →
      isProgramFetch y.2 = false := fun p hp y hy => by
    rw [snd_of_pieceOf hy]
    cases p with
    | program => exact absurd rfl hp
    | _ => rfl
  have hpieces : (([Purpose.program, .window, .outside].filterMap (pieceOf id dest addrs)).map
      Prod.snd).filter isProgramFetch = [x.2] := by
    have hrest : (([Purpose.window, .outside].filterMap (pieceOf id dest addrs)).map Prod.snd).filter
        isProgramFetch = [] := by
      rw [List.filter_eq_nil_iff]
      intro d hd
      obtain ⟨y, hy, rfl⟩ := List.mem_map.1 hd
      obtain ⟨p, hp, hy⟩ := List.mem_filterMap.1 hy
      have hne : p ≠ .program := by
        rintro rfl
        simp at hp
      simp [hother p hne y hy]
    have hprogram : isProgramFetch x.2 = true := by rw [snd_of_pieceOf hx]; rfl
    rw [List.filterMap_cons_some hx, List.map_cons, List.filter_cons_of_pos hprogram, hrest]
  have hperm := (perm_readPieces id dest addrs).filter isProgramFetch
  rw [hpieces, List.perm_singleton] at hperm
  rw [hperm, snd_of_pieceOf hx]

/-- What is fetched for a layer: the bytes it needs that it did not need before. -/
theorem mem_overlayFetches {before : Option CompRead} {c : CompRead} {f : DownTxn}
    (h : f ∈ overlayFetches before c) : ∃ n l, n < 8 ∧ f = .fetch c.req.id (.overlay n) l := by
  obtain ⟨n, hn, hf⟩ := List.mem_filterMap.1 h
  dsimp only at hf
  split at hf
  · cases hf
  · cases hf
    exact ⟨n, _, List.mem_range.1 hn, rfl⟩

/-- Every byte a layer needs is fetched for it when the read arrives (R12). -/
theorem needed_fetched {c : CompRead} {n a : Nat} (hn : n < 8) (ha : a ∈ neededFor c n) :
    ∃ l, DownTxn.fetch c.req.id (.overlay n) l ∈ overlayFetches none c ∧ a ∈ l := by
  refine ⟨neededFor c n, List.mem_filterMap.2 ⟨n, List.mem_range.2 hn, ?_⟩, ha⟩
  have hall : ((neededFor c n).filter fun x => !([] : List Nat).contains x) = neededFor c n := by simp
  dsimp only
  rw [hall]
  split
  · next hnil => rw [hnil] at ha; cases ha
  · next hcons => rw [hcons]

theorem compositedDest_program (c : CompRead) (a : Nat) :
    ((compositedDest c a).1 == .program) = inCanvas c.geom a := by
  unfold compositedDest
  split
  · next h => simp [h]
  · split <;> simp_all

theorem compositedDest_addr {c : CompRead} {a : Nat} (h : inCanvas c.geom a = true) :
    (compositedDest c a).2 = programAddr c.geom c.plan.source a := by
  simp [compositedDest, h]

/-- A read that meets the conditions of R9 is composited. -/
theorem isComposited_of {s : State} {r : ReadReq} {p : Plan} (hm : s.report.mode = .live)
    (hp : s.comp.plan = some p) (ht : masterTag r.id = s.path.geom.scanTag)
    (hb : ∃ b ∈ readBytes r, inCanvas s.path.geom b.2 = true) : isComposited s r = true := by
  simpa [isComposited, hm, hp, ht] using hb

/-- The fetches of a composited read at its arrival (R12). -/
def arrivalFetches (r : ReadReq) (c : CompRead) : List DownTxn :=
  readPieces r.id (compositedDest c) ((readBytes r).map Prod.snd) ++ overlayFetches none c

/-- The command of a composited read on a quiet state (R9 to R12). -/
theorem exec_compositedRead {s : State} {r : ReadReq} {p : Plan} (hq : Quiet s)
    (hl : legalRead r = true) (hp : s.comp.plan = some p) (hc : isComposited s r = true) :
    exec (.compositedRead r) s = .next
      (enterOrder
        (issueAll { s with comp := { s.comp with reads := s.comp.reads ++ [compositedRecord s r p] } }
          (arrivalFetches r (compositedRecord s r p)))
        r.id .read .composited ((readBytes r).map Prod.snd).length r.beats none) := by
  have harrive : arriveRead s r = compositedRead s r p := by
    unfold arriveRead
    split
    · next q _ hq => rw [hp] at hq; cases hq; rfl
    · next h => exact absurd hp (h p hc)
  have hquiet : Quiet (compositedRead s r p) := hq.of_report (by
    simp only [compositedRead, issueAll_eq]
    rfl)
  calc exec (.compositedRead r) s = done (arriveRead s r) := by
        change reading r s = _
        rw [reading, hl, if_pos rfl]
    _ = .next (compositedRead s r p) := by rw [harrive, done, settle_of_quiet _ hquiet]
    _ = _ := by
        simp only [compositedRead, issueAll_eq, List.length_map]
        rfl

/-- Settles O35: the program bytes are one piece, and each layer has its own fetch. -/
theorem compositedReadsFetchProgramAndOverlays :
    Obligations.CompositedReadsFetchProgramAndOverlays := by
  unfold Obligations.CompositedReadsFetchProgramAndOverlays
  intro s r p hq hl hm hp ht hb g addrs c u
  have hc : compositedRecord s r p = c := rfl
  obtain ⟨b, hb, hcanvas⟩ := id hb
  refine ⟨arrivalFetches r c, exec_compositedRead hq hl hp (isComposited_of hm hp ht ⟨b, hb, hcanvas⟩),
    fun f hf => ?_, ?_, fun n hn a ha => ?_⟩
  · rcases List.mem_append.1 hf with hf | hf
    · obtain ⟨purpose, l, rfl, hpurpose⟩ := mem_readPieces hf
      exact ⟨purpose, l, rfl, by tauto⟩
    · obtain ⟨n, l, hn, rfl⟩ := mem_overlayFetches hf
      exact ⟨_, l, rfl, .inr (.inr (.inr ⟨n, hn, rfl⟩))⟩
  · have hdest : ∃ a ∈ addrs, (compositedDest c a).1 = .program :=
      ⟨b.2, List.mem_map_of_mem hb, beq_iff_eq.1 ((compositedDest_program c b.2).trans hcanvas)⟩
    have hoverlay : (overlayFetches none c).filter isProgramFetch = [] := by
      rw [List.filter_eq_nil_iff]
      intro f hf
      obtain ⟨n, l, -, rfl⟩ := mem_overlayFetches hf
      simp [isProgramFetch]
    have hprogram : (arrivalFetches r c).filter isProgramFetch =
        [.fetch r.id .program ((addrs.filter (inCanvas g)).map (programAddr g p.source))] := by
      rw [arrivalFetches, List.filter_append, hoverlay, List.append_nil,
        readPieces_program _ _ _ hdest, funext (compositedDest_program c)]
      congr 2
      exact List.map_congr_left fun a ha => compositedDest_addr (List.mem_filter.1 ha).2
    exact hprogram
  · obtain ⟨l, hl, ha⟩ := needed_fetched hn ha
    exact ⟨l, List.mem_append_right _ hl, ha⟩

end Sys2Proof.FrameProofs
end

section
/-! Fetch errors: the layer or the read that is dropped (R14, R15, R27). -/

namespace Sys2Proof.FrameProofs
open Sys2Proof.Machine

/-! ### The read a response names -/

/-- The name of a read among those in flight leads to it (R168; log 13). -/
theorem servedRead_named {s : State} {c : CompRead} {before after : List CompRead}
    (h : s.comp.reads = before ++ c :: after) : servedRead s (named c before) = some c := by
  simp [servedRead, named, readsOf, h]

theorem servedRead_eq_none {s : State} {x : ReadName} (h : readsOf x.id s.comp.reads ≤ x.nth) :
    servedRead s x = none := List.getElem?_eq_none h

theorem isStale_eq_false {s : State} {x : Stale} (h : x ∉ s.path.stale) : isStale s x = false := by
  simpa [isStale] using h

/-- A command whose effect is none leaves a quiet state as it was. -/
theorem done_of_eq {s t : State} (hq : Quiet s) (h : t = s) : done t = .next s := by
  rw [h, done, settle_of_quiet s hq]

/-- A command that only answers reads ends as it stands on a quiet state. -/
theorem done_of_sameButAnswers {s t : State} (hq : Quiet s) (h : SameButAnswers s t) :
    done t = .next t := by
  rw [done, settle_of_quiet t (hq.of_report (by rw [h]))]

/-! ### Layers not drawn -/

theorem covering_candidate {p : Plan} {width : Nat} {without : List Nat} {x y : Nat}
    {n : Nat × PlanLayer} (h : n ∈ covering p width without x y) : Candidate p width without y n :=
  candidate_of_mem_lineLayers (List.mem_filter.1 h).1

theorem not_mem_without_of_covering {p : Plan} {width : Nat} {without : List Nat} {x y : Nat}
    {n : Nat × PlanLayer} (h : n ∈ covering p width without x y) : n.1 ∉ without := by
  obtain ⟨-, -, hnot, -⟩ := covering_candidate h
  exact hnot

/-- A layer not drawn needs no byte (R14). -/
theorem neededFor_of_without {c : CompRead} {l : Nat} (h : l ∈ c.without) : neededFor c l = [] := by
  have hnone : ∀ x y, (covering c.plan c.geom.width c.without x y).filter (fun n => n.1 == l) = [] :=
    fun x y => List.filter_eq_nil_iff.2 fun n hn heq =>
      not_mem_without_of_covering hn (beq_iff_eq.1 heq ▸ h)
  simp only [neededFor, hnone, List.flatMap_nil]
  rw [List.flatMap_eq_nil_iff.2 fun _ _ => rfl]
  rfl

/-- A layer not drawn covers no pixel (R14). -/
theorem layer_ne_of_without {c : CompRead} {l : Nat} (h : l ∈ c.without) (overlay : List OverlayByte)
    (xy : Nat × Nat) {z : Covered} (hz : z ∈ readCovered c overlay xy) : z.layer ≠ l := by
  obtain ⟨n, hn, rfl⟩ := List.mem_map.1 hz
  rintro rfl
  exact not_mem_without_of_covering hn h

/-! ### Overlay errors -/

theorem has_eq_true {c : CompRead} {l addr : Nat} :
    c.has l addr = true ↔ ∃ f b, c.fetched = some f ∧ b ∈ f.overlay ∧ b.layer = l ∧ b.addr = addr := by
  cases hf : c.fetched <;> simp [CompRead.has, hf]

theorem awaits_eq_true {c : CompRead} {l addr : Nat} :
    c.awaits l addr = true ↔ c.waits = true ∧ c.has l addr = false ∧ addr ∈ neededFor c l := by
  simp [CompRead.awaits, and_assoc]

/-- An overlay error on a byte that the named read does not await changes nothing (R14). -/
theorem overlayError_of_not_awaits {s : State} {x : ReadName} {l addr : Nat}
    (h : ∀ c, servedRead s x = some c → c.awaits l addr = false) : overlayError s x l addr = s := by
  unfold overlayError
  split
  · rfl
  · split
    · rfl
    · next c hc => rw [h c hc, if_neg Bool.false_ne_true]

/-- An overlay error on an awaited byte drops its layer in the frame of the named read (R14). -/
theorem overlayError_of_awaits {s : State} {x : ReadName} {c : CompRead} {l addr : Nat}
    (hs : Stale.composited x.id ∉ s.path.stale) (hc : servedRead s x = some c)
    (ha : c.awaits l addr = true) :
    overlayError s x l addr =
      raise (eraseLayer s c.plan.frame l) .assetError [(0, leBytes 1 l), (8, leBytes 5 addr)] := by
  rw [overlayError, isStale_eq_false hs, if_neg Bool.false_ne_true, hc]
  exact if_pos ha

/-- The fetches in place of layer `l` for a read, if it is one of frame `f` (R14). -/
def fetchesFor (f : FrameNo) (l : Nat) (x : CompRead) : List DownTxn :=
  if x.plan.frame = f ∧ x.failed = false then overlayFetches (some x) (x.dropLayer l) else []

theorem fetchesFor_eq (f : FrameNo) (l : Nat) (x : CompRead) :
    fetchesFor f l x = if x.plan.frame = f then x.inPlace l else [] := by
  unfold fetchesFor CompRead.inPlace
  by_cases hf : x.plan.frame = f <;> cases hx : x.failed <;> simp [hf]

/-- A read after layer `l` has become not drawn in frame `f` (R12, R14). -/
theorem erased_eq (f : FrameNo) (l : Nat) (x : CompRead) :
    (if x.plan.frame = f then x.erase l else x) =
      if x.plan.frame = f then
        { x with without := x.without ++ [l], waits := x.waits || decide (fetchesFor f l x ≠ []) }
      else x := by
  split
  · next h =>
    rw [fetchesFor_eq, if_pos h]
    have he : (!(x.inPlace l).isEmpty) = decide (x.inPlace l ≠ []) := by
      cases x.inPlace l <;> simp
    rw [← he]
    rfl
  · rfl

/-- Layer `l` becomes not drawn in frame `f`, by what each read then fetches (R14, R27). -/
theorem eraseLayer_eq (s : State) (f : FrameNo) (l : Nat) :
    eraseLayer s f l = issueAll
      { s with comp := { s.comp with
          plan := s.comp.plan.map fun q =>
            if q.frame = f then { q with erred := q.erred ++ [l] } else q
          reads := s.comp.reads.map fun x =>
            if x.plan.frame = f then
              { x with without := x.without ++ [l], waits := x.waits || decide (fetchesFor f l x ≠ []) }
            else x } }
      (s.comp.reads.flatMap (fetchesFor f l)) := by
  rw [eraseLayer, erasedReads, fetchesInPlace, funext (erased_eq f l), ← funext (fetchesFor_eq f l)]

theorem quiet_eraseLayer {s : State} (hq : Quiet s) (f : FrameNo) (l : Nat) :
    Quiet (eraseLayer s f l) := hq.of_report (by rw [eraseLayer, issueAll_eq])

/-! ### Program errors and completions -/

theorem awaitsProgram_eq_true {c : CompRead} :
    c.awaitsProgram = true ↔ c.waits = true ∧ c.fetched = none ∧ c.failed = false := by
  simp [CompRead.awaitsProgram, and_assoc]

theorem programError_of_not_awaits {s : State} {x : ReadName}
    (h : ∀ c, servedRead s x = some c → c.awaitsProgram = false) : programError s x = s := by
  unfold programError
  split
  · rfl
  · split
    · next c hc => rw [h c hc, if_neg Bool.false_ne_true]
    · rfl

theorem programError_of_awaits {s : State} {x : ReadName} {c : CompRead}
    (hs : Stale.composited x.id ∉ s.path.stale) (hc : servedRead s x = some c)
    (ha : c.awaitsProgram = true) :
    programError s x = failRead (modifyRead s c.key fun x => { x with failed := true }) c := by
  rw [programError, isStale_eq_false hs, if_neg Bool.false_ne_true, hc]
  exact if_pos ha

/-- The completion of the fetches of the named read (R12). -/
theorem compositedAnswer_of_waits {s : State} {x : ReadName} {c : CompRead}
    (hs : Stale.composited x.id ∉ s.path.stale) (hc : servedRead s x = some c) (hw : c.waits = true)
    (f : Fetched) : compositedAnswer s x f = completeRead s c (c.gather f) := by
  rw [compositedAnswer, isStale_eq_false hs, if_neg Bool.false_ne_true, hc]
  exact if_pos hw

/-- The reads in flight without the one of this key, the only one of its key. -/
theorem filter_key_ne {c : CompRead} {before after : List CompRead}
    (h : ∀ x ∈ before ++ after, x.key ≠ c.key) :
    (before ++ c :: after).filter (fun x => x.key != c.key) = before ++ after := by
  rw [List.filter_append, List.filter_cons_of_neg (by simp), ← List.filter_append,
    List.filter_eq_self]
  intro x hx
  simpa using h x hx

theorem dropRead_eq {s : State} {c : CompRead} {before after : List CompRead}
    (hr : s.comp.reads = before ++ c :: after) (h : ∀ x ∈ before ++ after, x.key ≠ c.key) :
    dropRead s c.key = { s with comp := { s.comp with reads := before ++ after } } := by
  rw [dropRead, hr, filter_key_ne h]

/-- Settles O37: an error acts on the read it names, and only while that read awaits the byte. -/
theorem fetchErrorsDropTheLayerOrTheRead : Obligations.FetchErrorsDropTheLayerOrTheRead := by
  unfold Obligations.FetchErrorsDropTheLayerOrTheRead
  refine ⟨fun s c before after hq hr => ?_, fun s x hq hx => ?_, fun c l hl =>
    ⟨neededFor_of_without hl, fun overlay xy z hz => layer_ne_of_without hl overlay xy hz⟩,
    fun q width x y n hn => not_mem_without_of_covering hn⟩
  · have hserved := servedRead_named hr
    refine ⟨fun l addr hs hw hneed hno => ?_, fun l addr h => ?_, fun hs hw hf hn => ?_, fun h => ?_,
      fun hs hw hf hkey program overlay status => ?_⟩
    · have hhas : c.has l addr = false := Bool.eq_false_iff.2 fun h => by
        obtain ⟨f, b, hf, hb, hl, ha⟩ := has_eq_true.1 h
        exact (hno f hf b hb).elim (absurd hl) (absurd ha)
      change done (overlayError s (named c before) l addr) = _
      rw [overlayError_of_awaits hs hserved (awaits_eq_true.2 ⟨hw, hhas, hneed⟩), done,
        settle_raise_quiet _ (quiet_eraseLayer hq _ _), eraseLayer_eq]
      rfl
    · refine done_of_eq hq (overlayError_of_not_awaits fun d hd => ?_)
      obtain rfl : c = d := Option.some.inj (hserved.symm.trans hd)
      refine Bool.eq_false_iff.2 fun ha => ?_
      obtain ⟨hw, hhas, hneed⟩ := awaits_eq_true.1 ha
      rcases h with h | h | h | h
      · simp [neededFor_of_without h] at hneed
      · exact h hneed
      · simp [hw] at h
      · simp [has_eq_true.2 h] at hhas
    · change done (programError s (named c before)) = _
      rw [programError_of_awaits hs hserved (awaitsProgram_eq_true.2 ⟨hw, hn, hf⟩),
        done_of_sameButAnswers hq ((modifyRead_same s _ _).trans (failRead_same _ c))]
      rfl
    · refine done_of_eq hq (programError_of_not_awaits fun d hd => ?_)
      obtain rfl : c = d := Option.some.inj (hserved.symm.trans hd)
      refine Bool.eq_false_iff.2 fun ha => ?_
      obtain ⟨hw, hn, hf⟩ := awaitsProgram_eq_true.1 ha
      simp [hw, hn, hf] at h
    · change done (compositedAnswer s (named c before) _) = _
      rw [compositedAnswer_of_waits hs hserved hw, completeRead, if_pos hf,
        done_of_sameButAnswers hq (dropRead_same s _), dropRead_eq hr hkey]
  · have hnone := servedRead_eq_none hx
    exact ⟨fun l addr => done_of_eq hq (overlayError_of_not_awaits fun c hc => by simp [hnone] at hc),
      done_of_eq hq (programError_of_not_awaits fun c hc => by simp [hnone] at hc)⟩

end Sys2Proof.FrameProofs
end

section
/-! The pixels and the weights of a composited read (R16, R23 to R26, R96, R97, R162, R163). -/

namespace Sys2Proof.FrameProofs
open Sys2Proof.Machine

/-! ### Glyphs (R90, R96, R162) -/

theorem draws_eq_true {a : Atlas} {g : Nat} :
    a.draws g = true ↔
      g ≠ 0 ∧ a.advances.getD g 0 ≠ 0 ∧ a.stride % 16 = 0 ∧ 64 * a.cw ≤ a.stride := by
  simp only [Atlas.draws, Atlas.usable, Bool.and_eq_true, decide_eq_true_eq]
  tauto

/-- The text has a drawing glyph whose advance holds column `lx`, and its pixel there in glyph row `gy` is
at `addr`. -/
def GlyphOn (a : Atlas) (gy : Nat) (lx : Int) (codes : List Nat) (pen : Int) (addr : Nat) : Prop :=
  ∃ before g after gx, codes = before ++ g :: after ∧ gx < a.advance g ∧
    lx = pen + ((before.map a.advance).sum : Nat) + (gx : Nat) ∧ a.draws g = true ∧
    addr = a.pixelAddr g gx gy

/-- Behind its first glyph a text is the rest of it, its pen moved by that glyph's advance. -/
theorem glyphOn_cons_of_not_in {a : Atlas} {gy g addr : Nat} {lx pen : Int} {gs : List Nat}
    (h : ¬(pen ≤ lx ∧ lx < pen + (a.advance g : Int))) :
    GlyphOn a gy lx (g :: gs) pen addr ↔ GlyphOn a gy lx gs (pen + (a.advance g : Int)) addr := by
  constructor
  · rintro ⟨before, g', after, gx, hcodes, hgx, hlx, hdraws, haddr⟩
    cases before with
    | nil =>
      obtain ⟨rfl, rfl⟩ := List.cons.inj hcodes
      exact absurd ⟨by simp at hlx; omega, by simp at hlx; omega⟩ h
    | cons b before =>
      obtain ⟨rfl, rfl⟩ := List.cons.inj hcodes
      refine ⟨before, g', after, gx, rfl, hgx, ?_, hdraws, haddr⟩
      simp only [List.map_cons, List.sum_cons, Nat.cast_add] at hlx
      omega
  · rintro ⟨before, g', after, gx, rfl, hgx, hlx, hdraws, haddr⟩
    refine ⟨g :: before, g', after, gx, rfl, hgx, ?_, hdraws, haddr⟩
    simp only [List.map_cons, List.sum_cons, Nat.cast_add]
    omega

/-- Inside its first glyph a text has that glyph's pixel, if it draws. -/
theorem glyphOn_cons_of_in {a : Atlas} {gy g addr : Nat} {lx pen : Int} {gs : List Nat}
    (h : pen ≤ lx ∧ lx < pen + (a.advance g : Int)) :
    GlyphOn a gy lx (g :: gs) pen addr ↔
      a.draws g = true ∧ addr = a.pixelAddr g (lx - pen).toNat gy := by
  constructor
  · rintro ⟨before, g', after, gx, hcodes, hgx, hlx, hdraws, haddr⟩
    cases before with
    | nil =>
      obtain ⟨rfl, rfl⟩ := List.cons.inj hcodes
      have hgx : (lx - pen).toNat = gx := by simp at hlx; omega
      exact ⟨hdraws, by rw [haddr, hgx]⟩
    | cons b before =>
      obtain ⟨rfl, rfl⟩ := List.cons.inj hcodes
      simp only [List.map_cons, List.sum_cons, Nat.cast_add] at hlx
      omega
  · rintro ⟨hdraws, rfl⟩
    exact ⟨[], g, gs, (lx - pen).toNat, rfl, by omega, by simp; omega, hdraws, rfl⟩

theorem walkGlyphs_eq_some {a : Atlas} {gy : Nat} {lx : Int} {codes : List Nat} {pen : Int} {addr : Nat} :
    walkGlyphs a gy lx codes pen = some addr ↔ GlyphOn a gy lx codes pen addr := by
  induction codes generalizing pen with
  | nil => simp [walkGlyphs, GlyphOn]
  | cons g gs ih =>
    unfold walkGlyphs
    split
    · next h =>
      rw [glyphOn_cons_of_in h]
      split
      · next hd => simp [hd, eq_comm]
      · next hd => simp [hd]
    · next h => rw [glyphOn_cons_of_not_in h, ih]

/-- A text of one glyph row, drawn where `row` falls into it, places just the pixels of GlyphAt. -/
theorem glyphAt_iff {a : Atlas} {codes : List Nat} {pen : Int} {top x row addr : Nat} :
    GlyphAt a codes pen top x row addr ↔
      (if top ≤ row ∧ row < top + a.ch then walkGlyphs a (row - top) (x : Int) codes pen else none) =
        some addr := by
  constructor
  · rintro ⟨before, g, after, gx, gy, hcodes, hgx, hgy, hx, rfl, h0, hadv, hstride, hcw, rfl⟩
    rw [if_pos (by omega), walkGlyphs_eq_some]
    exact ⟨before, g, after, gx, hcodes, hgx, hx, draws_eq_true.2 ⟨h0, hadv, hstride, hcw⟩, by
      rw [Nat.add_sub_cancel_left]; rfl⟩
  · intro h
    split at h
    · next hrow =>
      obtain ⟨before, g, after, gx, hcodes, hgx, hx, hdraws, rfl⟩ := walkGlyphs_eq_some.1 h
      obtain ⟨h0, hadv, hstride, hcw⟩ := draws_eq_true.1 hdraws
      exact ⟨before, g, after, gx, row - top, hcodes, hgx, by omega, hx, by omega, h0, hadv, hstride,
        hcw, rfl⟩
    · cases h

/-! ### Layer pixels (R23, R97, R163) -/

theorem glyphOver_eq_overPlate (g p : Pixel) : glyphOver g p = overPlate g p := by
  have hk : (if p.k.toNat ≤ g.k.toNat then g.k else p.k) =
      BitVec.ofNat 8 (max p.k.toNat g.k.toNat) := by
    split
    · next h => rw [Nat.max_eq_right h, BitVec.ofNat_toNat, BitVec.setWidth_eq]
    · next h => rw [Nat.max_eq_left (by omega), BitVec.ofNat_toNat, BitVec.setWidth_eq]
  simp only [glyphOver, hk]
  rfl

/-- The pixel with this glyph pixel, if there is one, over the plate pixel. -/
def glyphPixel (src : Nat → Pixel) (glyph : Option Nat) (plate : Pixel) : Pixel :=
  match glyph with
  | some a => glyphOver (src a) plate
  | none => plate

/-- The last text that places a glyph pixel gives it over the plate (R96, R162). -/
theorem glyphsOver_glyphPixel {α : Type} {src : Nat → Pixel} {texts : List α} {find : α → Option Nat}
    {places : α → Nat → Prop} (h : ∀ f a, places f a ↔ find f = some a) (plate : Pixel) :
    GlyphsOver src texts places plate (glyphPixel src (texts.reverse.findSome? find) plate) := by
  have hnone : ∀ f, (∀ a, ¬places f a) → find f = none := fun f hf =>
    Option.eq_none_iff_forall_ne_some.2 fun a ha => hf a ((h f a).2 ha)
  refine ⟨fun hall => ?_, fun lower f higher a htexts hplaces hhigher => ?_⟩
  · have hfind : texts.reverse.findSome? find = none :=
      List.findSome?_eq_none_iff.2 fun f hf => hnone f (hall f (List.mem_reverse.1 hf))
    rw [hfind, glyphPixel]
  · have hfind : texts.reverse.findSome? find = some a := by
      rw [htexts, List.reverse_append, List.reverse_cons, List.append_assoc, List.findSome?_append,
        List.findSome?_eq_none_iff.2 fun g hg => hnone g (hhigher g (List.mem_reverse.1 hg))]
      simp [(h f a).1 hplaces]
    rw [hfind, glyphPixel, glyphOver_eq_overPlate]

theorem getD_creativeAddr (src : Nat → Pixel) (d : Descriptor) (x y : Nat) :
    ((creativeAddr d x y).map src).getD clearPixel =
      if x < d.width ∧ y < d.height then src (d.addr + y * d.stride + x * 4) else clearPixel := by
  unfold creativeAddr
  split <;> rfl

theorem layerPixel_eq (src : Nat → Pixel) (l : PlanLayer) (x y : Nat) :
    layerPixel src l x y =
      let at' := sourceAddrs l.content ((x : Int) - l.x).toNat ((y : Int) - l.y).toNat
      glyphPixel src at'.2 (platePixel l.content (at'.1.map src)) := by
  unfold layerPixel
  rcases sourceAddrs l.content ((x : Int) - l.x).toNat ((y : Int) - l.y).toNat with ⟨plate, glyph⟩
  cases glyph <;> rfl

/-- The pixel of a covering layer is the one its content has there (R6, R23, R96, R97, R162, R163). -/
theorem layerPixelOf_layerPixel (src : Nat → Pixel) (l : PlanLayer) (x y : Nat) :
    LayerPixelOf src l.content ((x : Int) - l.x).toNat ((y : Int) - l.y).toNat (layerPixel src l x y) := by
  rw [layerPixel_eq]
  dsimp only
  generalize ((x : Int) - l.x).toNat = lx
  generalize ((y : Int) - l.y).toNat = row
  cases l.content with
  | nothing => rfl
  | creative d => exact getD_creativeAddr src d lx row
  | bug plate atlas fields =>
    dsimp only [sourceAddrs, platePixel, LayerPixelOf]
    rw [getD_creativeAddr]
    refine glyphsOver_glyphPixel (fun f a => ?_) _
    rw [glyphAt_iff]
    unfold fieldGlyph fieldPen Atlas.textWidth
    cases f.right
    · simp
    · simp [Int.add_sub_assoc]
  | ticker colour top atlas band =>
    dsimp only [sourceAddrs, platePixel, LayerPixelOf, bandGlyph]
    by_cases hrow : top ≤ row ∧ row < top + atlas.ch
    · rw [if_pos hrow]
      refine glyphsOver_glyphPixel (fun m a => ?_) _
      rw [glyphAt_iff, if_pos hrow]
    · rw [if_neg hrow]
      refine ⟨fun _ => rfl, fun lower m higher a _ hplaces _ => ?_⟩
      have hwalk := glyphAt_iff.1 hplaces
      rw [if_neg hrow] at hwalk
      cases hwalk

/-- The covering layers of a pixel of a read, with their alphas and pixels (R11, R23, R24). -/
theorem mem_readCovered {c : CompRead} {overlay : List OverlayByte} {x y : Nat} {z : Covered}
    (h : z ∈ readCovered c overlay (x, y)) :
    ∃ l, (z.layer, l) ∈ covering c.plan c.geom.width c.without x y ∧
      z.alpha = effAlpha z.pixel.k.toNat l.opacity ∧
      LayerPixelOf (overlayPixel overlay z.layer) l.content ((x : Int) - l.x).toNat
        ((y : Int) - l.y).toNat z.pixel := by
  obtain ⟨n, hn, rfl⟩ := List.mem_map.1 h
  exact ⟨n.2, hn, rfl, layerPixelOf_layerPixel _ n.2 x y⟩

theorem map_layer_readCovered (c : CompRead) (overlay : List OverlayByte) (x y : Nat) :
    (readCovered c overlay (x, y)).map Covered.layer =
      (covering c.plan c.geom.width c.without x y).map Prod.fst := by
  simp [readCovered, coveredAt, Function.comp_def]

/-- The byte at an address for a layer is the first one fetched there for it. -/
theorem overlayByte_eq {overlay lower higher : List OverlayByte} {z : OverlayByte}
    (h : overlay = lower ++ z :: higher) (hlower : ∀ w ∈ lower, w.layer ≠ z.layer ∨ w.addr ≠ z.addr) :
    overlayByte overlay z.layer z.addr = z.byte := by
  have hfind : overlay.find? (fun b => b.layer == z.layer && b.addr == z.addr) = some z := by
    rw [h, List.find?_append, List.find?_eq_none.2 fun w hw => by
      rcases hlower w hw with h | h <;> simp [h]]
    simp
  rw [overlayByte, hfind]

/-! ### Weights (R26) -/

theorem weightOf_append (n : Nat) (a b : List (Nat × Nat)) :
    weightOf n (a ++ b) = weightOf n a + weightOf n b := by simp [weightOf]

theorem weightOf_cons (n : Nat) (w : Nat × Nat) (ws : List (Nat × Nat)) :
    weightOf n (w :: ws) = (if w.1 = n then w.2 else 0) + weightOf n ws := by
  by_cases h : w.1 = n <;> simp [weightOf, h]

theorem weightWalk_append (a b : List Covered) (t : Nat) :
    weightWalk (a ++ b) t = weightWalk a t ++ weightWalk b (a.foldl (fun u w => transmit w.alpha u) t) := by
  induction a generalizing t with
  | nil => rfl
  | cons c a ih => simp only [List.cons_append, weightWalk, ih, List.foldl_cons]

/-- A layer that is not among them gets no weight. -/
theorem weightOf_weightWalk_eq_zero {n : Nat} {cs : List Covered} (h : ∀ z ∈ cs, z.layer ≠ n) (t : Nat) :
    weightOf n (weightWalk cs t) = 0 := by
  induction cs generalizing t with
  | nil => rfl
  | cons c cs ih =>
    rw [weightWalk, weightOf_cons, if_neg (h c List.mem_cons_self),
      ih (fun z hz => h z (List.mem_cons_of_mem c hz))]

/-- The weight of a layer is its alpha times what passes the layers above it (R26). -/
theorem weightOf_weightsAt {below above : List Covered} {z : Covered}
    (h : ∀ w ∈ below ++ above, w.layer ≠ z.layer) :
    weightOf z.layer (weightsAt (below ++ z :: above)) =
      visible z.alpha (above.reverse.foldl (fun u w => transmit w.alpha u) 255) := by
  have habove : ∀ w ∈ above.reverse, w.layer ≠ z.layer := fun w hw =>
    h w (List.mem_append_right _ (List.mem_reverse.1 hw))
  have hbelow : ∀ w ∈ below.reverse, w.layer ≠ z.layer := fun w hw =>
    h w (List.mem_append_left _ (List.mem_reverse.1 hw))
  rw [weightsAt, List.reverse_append, List.reverse_cons, List.append_assoc, weightWalk_append,
    weightOf_append, weightOf_weightWalk_eq_zero habove, List.singleton_append, weightWalk,
    weightOf_cons, if_pos rfl, weightOf_weightWalk_eq_zero hbelow]
  omega

/-! ### Marks (R16) -/

/-- A sparse table after a write of a value that is not its default, whatever the order of its keys. -/
theorem lookup_put_of_ne {α : Type} [DecidableEq α] {d v : α} (hv : v ≠ d) (m : List (Nat × α))
    (a b : Nat) : lookup d (put d m a v) b = if b = a then v else lookup d m b := by
  induction m with
  | nil => simp [put, hv, lookup]
  | cons x m ih =>
    obtain ⟨k, w⟩ := x
    unfold put
    split
    · rw [lookup]
    · split
      · next h =>
        subst h
        simp only [lookup]
        split <;> rfl
      · next h =>
        simp only [lookup, ih]
        by_cases hb : b = k
        · rw [if_pos hb, if_pos hb, if_neg (by omega)]
        · rw [if_neg hb, if_neg hb]

/-- The marks after these pixels were returned. -/
def marksAfter (marks : List (Nat × Nat)) (pixels : List (Nat × Nat)) : List (Nat × Nat) :=
  pixels.foldl (fun m xy => put 0 m xy.2 (max (lookup 0 m xy.2) (xy.1 + 1))) marks

theorem lookup_put_mark (m : List (Nat × Nat)) (x y l : Nat) :
    lookup 0 (put 0 m y (max (lookup 0 m y) (x + 1))) l =
      if l = y then max (lookup 0 m y) (x + 1) else lookup 0 m l :=
  lookup_put_of_ne (by omega) m y l

theorem marksAfter_cons (marks pixels : List (Nat × Nat)) (x y : Nat) :
    marksAfter marks ((x, y) :: pixels) =
      marksAfter (put 0 marks y (max (lookup 0 marks y) (x + 1))) pixels := rfl

/-- Each mark becomes the larger of the old one and one past the rightmost pixel of its line. -/
theorem lookup_marksAfter (marks pixels : List (Nat × Nat)) (y : Nat) :
    lookup 0 marks y ≤ lookup 0 (marksAfter marks pixels) y ∧
    (∀ x, (x, y) ∈ pixels → x < lookup 0 (marksAfter marks pixels) y) ∧
    (lookup 0 (marksAfter marks pixels) y = lookup 0 marks y ∨
      ∃ x, (x, y) ∈ pixels ∧ lookup 0 (marksAfter marks pixels) y = x + 1) := by
  induction pixels generalizing marks with
  | nil => exact ⟨le_rfl, fun _ hx => absurd hx List.not_mem_nil, .inl rfl⟩
  | cons p pixels ih =>
    obtain ⟨px, py⟩ := p
    obtain ⟨hle, hmem, hsource⟩ := ih (put 0 marks py (max (lookup 0 marks py) (px + 1)))
    have hput := lookup_put_mark marks px py y
    rw [marksAfter_cons]
    by_cases hy : y = py
    · subst hy
      rw [if_pos rfl] at hput
      refine ⟨by omega, fun x hx => ?_, ?_⟩
      · rcases List.mem_cons.1 hx with hx | hx
        · cases hx
          omega
        · exact hmem x hx
      · rcases hsource with h | ⟨x, hx, h⟩
        · by_cases hmax : lookup 0 marks y ≤ px + 1
          · exact .inr ⟨px, List.mem_cons_self, by omega⟩
          · exact .inl (by omega)
        · exact .inr ⟨x, List.mem_cons_of_mem _ hx, h⟩
    · rw [if_neg hy] at hput
      refine ⟨by omega, fun x hx => ?_, ?_⟩
      · rcases List.mem_cons.1 hx with hx | hx
        · cases hx
          exact absurd rfl hy
        · exact hmem x hx
      · rcases hsource with h | ⟨x, hx, h⟩
        · exact .inl (by omega)
        · exact .inr ⟨x, List.mem_cons_of_mem _ hx, h⟩

theorem movedMarks_eq (marks : List (Nat × Nat)) (c : CompRead) :
    movedMarks marks c = marksAfter marks (rPixels c) := rfl

/-- The pixels whose R byte a read returns (R16). -/
theorem mem_rPixels {c : CompRead} {x y : Nat} :
    (x, y) ∈ rPixels c ↔ ∃ b ∈ readBytes c.req, isPixelByte c.geom b.2 = true ∧
      columnByte c.geom b.2 % 4 = 0 ∧ pixelOf c.geom b.2 = (x, y) := by
  simp only [rPixels, List.mem_eraseDups, List.mem_map, List.mem_filter, Bool.and_eq_true,
    decide_eq_true_eq]
  constructor
  · rintro ⟨_, ⟨⟨b, hb, rfl⟩, hp, hr⟩, hxy⟩
    exact ⟨b, hb, hp, hr, hxy⟩
  · rintro ⟨b, hb, hp, hr, hxy⟩
    exact ⟨b.2, ⟨⟨b, hb, rfl⟩, hp, hr⟩, hxy⟩

theorem mem_countedPixels {marks : List (Nat × Nat)} {c : CompRead} {x y : Nat} :
    (x, y) ∈ countedPixels marks c ↔ lookup 0 marks y ≤ x ∧ (x, y) ∈ rPixels c := by
  simp [countedPixels, and_comm]

/-- No pixel of a read counts again once its line's mark has passed it (R16). -/
theorem countedPixels_movedMarks (marks : List (Nat × Nat)) (c : CompRead) :
    countedPixels (movedMarks marks c) c = [] := by
  rw [List.eq_nil_iff_forall_not_mem]
  rintro ⟨x, y⟩ h
  obtain ⟨hle, hmem⟩ := mem_countedPixels.1 h
  have := (lookup_marksAfter marks (rPixels c) y).2.1 x hmem
  rw [movedMarks_eq] at hle
  omega

theorem addWeights_eq_range' (marks : List (Nat × Nat)) (c : CompRead) (overlay : List OverlayByte)
    (ws : List Nat) (p : Nat) :
    addWeights marks c overlay p ws =
      (List.range ws.length).map fun n => ws.getD n 0 + gathered marks c overlay (p + n) := by
  induction ws generalizing p with
  | nil => rfl
  | cons w ws ih =>
    rw [addWeights, ih, List.length_cons, List.range_succ_eq_map, List.map_cons, List.map_map]
    refine congrArg₂ List.cons rfl (List.map_congr_left fun n _ => ?_)
    simp only [Function.comp_apply, Nat.succ_eq_add_one, List.getD_cons_succ]
    rw [Nat.add_right_comm, Nat.add_assoc]

end Sys2Proof.FrameProofs
end

section
/-! The answers of composited reads (R11, R12, R16, R17, R25 to R27). -/

namespace Sys2Proof.FrameProofs
open Sys2Proof.Machine

/-! ### Which read is answered (R12, R167) -/

theorem ready_of_not_fetched {c : CompRead} (h : c.fetched = none) : c.ready = none := by
  unfold CompRead.ready
  split
  · rfl
  · exact h

/-- Reads whose fetches have returned nothing are not answered. -/
theorem readyRead_eq_none {s : State} (h : ∀ x ∈ s.comp.reads, x.fetched = none) :
    readyRead s = none := by
  refine List.findSome?_eq_none_iff.2 fun x hx => ?_
  split
  · rw [ready_of_not_fetched (h x hx)]
    rfl
  · rfl

/-- The read at the head of its tag, alone with its bytes, is the one answered. -/
theorem readyRead_eq_some {s : State} {c : CompRead} {f : Fetched} {before after : List CompRead}
    (hr : s.comp.reads = before ++ c :: after) (hb : ∀ x ∈ before, x.fetched = none)
    (hh : atHead s (.read, masterTag c.req.id) c.key = true) (hc : c.ready = some f) :
    readyRead s = some (c, f) := by
  have hbefore : before.findSome? (fun c =>
      if atHead s (.read, masterTag c.req.id) c.key then c.ready.map fun f => (c, f) else none) =
      none := by
    refine List.findSome?_eq_none_iff.2 fun x hx => ?_
    split
    · rw [ready_of_not_fetched (hb x hx)]
      rfl
    · rfl
  rw [readyRead, hr, List.findSome?_append, hbefore, Option.none_or, List.findSome?_cons, if_pos hh, hc]
  rfl

/-- A read with its bytes behind another transaction of its tag is not answered. -/
theorem readyRead_of_waiting {s : State} {c : CompRead} {before after : List CompRead}
    (hr : s.comp.reads = before ++ c :: after) (hx : ∀ x ∈ before ++ after, x.fetched = none)
    (hh : atHead s (.read, masterTag c.req.id) c.key = false) : readyRead s = none := by
  refine List.findSome?_eq_none_iff.2 fun x hm => ?_
  split
  · next h =>
    rw [hr, List.mem_append, List.mem_cons] at hm
    rcases hm with hm | rfl | hm
    · rw [ready_of_not_fetched (hx x (List.mem_append_left _ hm))]
      rfl
    · rw [hh] at h
      cases h
    · rw [ready_of_not_fetched (hx x (List.mem_append_right _ hm))]
      rfl
  · rfl

/-- The oldest transaction of a lane decides which read is at its head (R167). -/
theorem atHead_eq {s : State} {lane : Dir × Nat} {earlier later : List Entry} {e : Entry} (key : Nat)
    (ho : s.path.order = earlier ++ e :: later) (he : e.lane = lane)
    (hx : ∀ x ∈ earlier, x.lane ≠ lane) : atHead s lane key = (e.key == key) := by
  have hfind : s.path.order.find? (fun x => x.lane == lane) = some e := by
    rw [ho, List.find?_append, List.find?_eq_none.2 fun x hm => by simpa using hx x hm]
    simp [he]
  rw [atHead, hfind]
  rfl

theorem reads_answerRead (s : State) (c : CompRead) (f : Fetched) :
    (answerRead s c f).comp.reads = s.comp.reads.filter fun x => x.key != c.key := by
  have hcount : (countRead s c f.overlay).comp.reads = s.comp.reads := by
    unfold countRead
    split
    · split <;> rfl
    · rfl
  rw [← hcount]
  rfl

/-- One read is answered where only it has its bytes (R12). -/
theorem release_of_some {s : State} {c : CompRead} {f : Fetched} (h : readyRead s = some (c, f))
    (hx : ∀ x ∈ s.comp.reads, x.key ≠ c.key → x.fetched = none) : release s = answerRead s c f := by
  have hnone : readyRead (answerRead s c f) = none := readyRead_eq_none fun x hm => by
    rw [reads_answerRead, List.mem_filter] at hm
    exact hx x hm.1 (by simpa using hm.2)
  have hstop : ∀ n, releaseReads n (answerRead s c f) = answerRead s c f := fun n => by
    cases n with
    | zero => rfl
    | succ n => simp [releaseReads, hnone]
  unfold release
  cases hlen : s.comp.reads.length with
  | zero =>
    rw [readyRead, List.length_eq_zero_iff.1 hlen] at h
    cases h
  | succ n => simp only [releaseReads, h, hstop]

/-- An answered transaction answers the next read that is ready, and no other (R12). -/
theorem answerKey_eq {s : State} {key : Nat} {r : UpResp} :
    (readyRead (giveAnswer s key r) = none → answerKey s key r = giveAnswer s key r) ∧
    ∀ c f, readyRead (giveAnswer s key r) = some (c, f) →
      (∀ x ∈ s.comp.reads, x.key ≠ c.key → x.fetched = none) →
      answerKey s key r = answerRead (giveAnswer s key r) c f :=
  ⟨release_of_none _, fun _ _ h hx => release_of_some h hx⟩

/-! ### What a completed read comes to -/

theorem overlayComplete_of {c : CompRead} {overlay : List OverlayByte}
    (h : ∀ n, n < 8 → ∀ a ∈ neededFor c n, ∃ b ∈ overlay, b.layer = n ∧ b.addr = a) :
    overlayComplete c overlay = true := by
  simp only [overlayComplete, List.all_eq_true, List.mem_range, List.any_eq_true, Bool.and_eq_true,
    beq_iff_eq]
  exact h

theorem programErred_eq_false {c : CompRead} {status : List Resp}
    (h : ∀ b ∈ readBytes c.req, inCanvas c.geom b.2 = true →
      respIsError (status.getD b.1 .okay) = false) : programErred c status = false := by
  simp only [programErred, List.any_eq_false, Bool.and_eq_true, not_and, Bool.not_eq_true]
  exact h

/-- The read with what its fetches returned. -/
def completed (c : CompRead) (f : Fetched) : CompRead :=
  { c with waits := false, fetched := some f }

/-- Changing the only read of a key changes it in its place. -/
theorem map_key {c : CompRead} {before after : List CompRead} (g : CompRead → CompRead)
    (h : ∀ x ∈ before ++ after, x.key ≠ c.key) :
    (before ++ c :: after).map (fun x => if x.key = c.key then g x else x) =
      before ++ g c :: after := by
  have hsame : ∀ l : List CompRead, (∀ x ∈ l, x.key ≠ c.key) →
      l.map (fun x => if x.key = c.key then g x else x) = l := fun l hl =>
    (List.map_congr_left fun x hx => if_neg (hl x hx)).trans (List.map_id' l)
  rw [List.map_append, List.map_cons, if_pos rfl,
    hsame before fun x hx => h x (List.mem_append_left _ hx),
    hsame after fun x hx => h x (List.mem_append_right _ hx)]

/-- The state with these reads in flight. -/
def withReads (s : State) (reads : List CompRead) : State :=
  { s with comp := { s.comp with reads := reads } }

/-- A read whose fetches have all come in order keeps their bytes, and what is ready is answered (R12). -/
theorem completeRead_eq {s : State} {c : CompRead} {before after : List CompRead} {f : Fetched}
    (hr : s.comp.reads = before ++ c :: after) (hk : ∀ x ∈ before ++ after, x.key ≠ c.key)
    (hfail : c.failed = false) (hfits : fetchedFits c f = true)
    (herr : programErred c f.status = false) :
    completeRead s c f = release (withReads s (before ++ completed c f :: after)) := by
  have hread : modifyRead s c.key (fun x => { x with waits := false, fetched := some f }) =
      withReads s (before ++ completed c f :: after) := by
    rw [modifyRead, hr, map_key _ hk]
    rfl
  rw [completeRead, hfail, if_neg Bool.false_ne_true, hfits, if_neg (by simp), herr,
    if_neg Bool.false_ne_true, hread]

/-! ### What an answer carries and counts -/

/-- The marks after the answer of a read under plan `p` (R16). -/
def answerMarks (s : State) (p : Plan) (c : CompRead) : List (Nat × Nat) :=
  if p.frame = c.plan.frame then movedMarks s.comp.marks c else s.comp.marks

/-- The sums after the answer of a read under plan `p` (R17). -/
def answerWeights (s : State) (p : Plan) (c : CompRead) (overlay : List OverlayByte) : List Nat :=
  if p.frame = c.plan.frame then addWeights s.comp.marks c overlay 0 s.comp.weights
  else s.comp.weights

/-- What a read gathers does not depend on whether its fetches have come. -/
theorem addWeights_completed (marks : List (Nat × Nat)) (c : CompRead) (f : Fetched)
    (overlay : List OverlayByte) (ws : List Nat) :
    addWeights marks (completed c f) overlay 0 ws = addWeights marks c overlay 0 ws := by
  rw [addWeights_eq_range', addWeights_eq_range']
  rfl

/-- The answer of a read among those in flight, under plan `p` (R11, R16, R17). -/
theorem answerRead_eq {s : State} {c : CompRead} {p : Plan} {before after : List CompRead} {f : Fetched}
    (hp : s.comp.plan = some p) (hk : ∀ x ∈ before ++ after, x.key ≠ c.key) :
    answerRead (withReads s (before ++ completed c f :: after)) (completed c f) f =
      giveAnswer
        { s with comp := { s.comp with
            reads := before ++ after
            marks := answerMarks s p c
            weights := answerWeights s p c f.overlay } }
        c.key
        { id := c.req.id, dir := .read, data := answerData c f.program f.overlay,
          status := f.status } := by
  have hcount : dropRead (countRead (withReads s (before ++ completed c f :: after)) (completed c f)
      f.overlay) c.key =
      { s with comp := { s.comp with
          reads := before ++ after
          marks := answerMarks s p c
          weights := answerWeights s p c f.overlay } } := by
    have hkept : (before ++ completed c f :: after).filter (fun x => x.key != c.key) =
        before ++ after := filter_key_ne (c := completed c f) hk
    have hplan : (withReads s (before ++ completed c f :: after)).comp.plan = some p := hp
    unfold countRead
    rw [hplan]
    by_cases hf : p.frame = c.plan.frame
    · have hf' : p.frame = (completed c f).plan.frame := hf
      simp only [if_pos hf', answerMarks, answerWeights, if_pos hf, dropRead, withReads, hkept,
        addWeights_completed]
      rfl
    · have hf' : ¬p.frame = (completed c f).plan.frame := hf
      simp only [if_neg hf', answerMarks, answerWeights, if_neg hf, dropRead, withReads, hkept]
  exact congrArg (fun t => giveAnswer t c.key
    { id := c.req.id, dir := .read, data := answerData c f.program f.overlay, status := f.status }) hcount

theorem length_answerData {c : CompRead} {program : List Byte} (overlay : List OverlayByte)
    (h : program.length = (readBytes c.req).length) :
    (answerData c program overlay).length = program.length := by simp [answerData, h]

/-- Each byte of an answer is made from the program byte in its place (R11). -/
theorem getElem?_answerData {c : CompRead} {program : List Byte} {overlay : List OverlayByte}
    {i a : Nat} {v : Byte} (ha : (readBytes c.req)[i]?.map Prod.snd = some a)
    (hv : program[i]? = some v) :
    (answerData c program overlay)[i]? = some (answerByte c overlay a v) := by
  have hzip : (((readBytes c.req).map Prod.snd).zip program)[i]? = some (a, v) :=
    List.getElem?_zip_eq_some.2 ⟨by rw [List.getElem?_map]; exact ha, hv⟩
  rw [answerData, List.getElem?_map, hzip]
  rfl

/-- A byte beside the pixels, or of a pixel no layer covers, is the program's (R11). -/
theorem answerByte_of_bare {c : CompRead} {overlay : List OverlayByte} {a : Nat} (v : Byte)
    (h : isPixelByte c.geom a = false ∨ readCovered c overlay (pixelOf c.geom a) = []) :
    answerByte c overlay a v = v := by
  unfold answerByte
  split
  · next hp =>
    rcases h with h | h
    · simp [hp] at h
    · rw [h]
      rfl
  · rfl

/-- A byte of a covered pixel is its channel of the layers (R11, R25). -/
theorem answerByte_of_covered {c : CompRead} {overlay : List OverlayByte} {a : Nat} (v : Byte)
    (hp : isPixelByte c.geom a = true) (h : readCovered c overlay (pixelOf c.geom a) ≠ []) :
    answerByte c overlay a v =
      match columnByte c.geom a % 4 with
      | 0 => BitVec.ofNat 8 (blendChannel Pixel.r v.toNat (readCovered c overlay (pixelOf c.geom a)))
      | 1 => BitVec.ofNat 8 (blendChannel Pixel.g v.toNat (readCovered c overlay (pixelOf c.geom a)))
      | 2 => BitVec.ofNat 8 (blendChannel Pixel.b v.toNat (readCovered c overlay (pixelOf c.geom a)))
      | _ => 255 := by
  rw [answerByte, if_pos hp]
  cases hcs : readCovered c overlay (pixelOf c.geom a) with
  | nil => exact absurd hcs h
  | cons z zs => rfl

theorem answerMarks_spec {s : State} {p : Plan} {c : CompRead} (hf : p.frame = c.plan.frame) :
    countedPixels (answerMarks s p c) c = [] ∧
    ∀ y,
      lookup 0 s.comp.marks y ≤ lookup 0 (answerMarks s p c) y ∧
      (∀ x, (x, y) ∈ rPixels c → x < lookup 0 (answerMarks s p c) y) ∧
      (lookup 0 (answerMarks s p c) y = lookup 0 s.comp.marks y ∨
        ∃ x, (x, y) ∈ rPixels c ∧ lookup 0 (answerMarks s p c) y = x + 1) := by
  rw [answerMarks, if_pos hf]
  exact ⟨countedPixels_movedMarks _ c, lookup_marksAfter _ _⟩

theorem answerWeights_eq {s : State} {p : Plan} {c : CompRead} (overlay : List OverlayByte)
    (hf : p.frame = c.plan.frame) :
    answerWeights s p c overlay = (List.range s.comp.weights.length).map fun n =>
      s.comp.weights.getD n 0 + gathered s.comp.marks c overlay n := by
  rw [answerWeights, if_pos hf, addWeights_eq_range']
  simp only [Nat.zero_add]

/-- Settles O36: a completed read is answered at the head of its tag, from its own layers. -/
theorem compositedAnswersBlendAndCount : Obligations.CompositedAnswersBlendAndCount := by
  unfold Obligations.CompositedAnswersBlendAndCount
  refine ⟨?_, fun c overlay marks x y => ?_, fun s key r => answerKey_eq⟩
  · intro s c p before after program overlay status hq hs hr hx hw hn hf hp hprogram hstatus hneed herr
      lane answer
    have hk : ∀ x ∈ before ++ after, x.key ≠ c.key := fun x hm => (hx x hm).1
    have hothers : ∀ x ∈ before ++ after, x.fetched = none := fun x hm => (hx x hm).2
    let f : Fetched := { program := program, overlay := overlay, status := status }
    let t := withReads s (before ++ completed c f :: after)
    have hgather : c.gather f = f := by simp [CompRead.gather, hn]
    have hfits : fetchedFits c f = true := by
      simp [fetchedFits, f, hprogram, hstatus, overlayComplete_of hneed]
    have hanswer : answer = .next (release t) := by
      have hcomplete : compositedAnswer s (named c before) f = release t := by
        rw [compositedAnswer_of_waits hs (servedRead_named hr) hw, hgather,
          completeRead_eq hr hk hf hfits (programErred_eq_false herr)]
      change done (compositedAnswer s (named c before) f) = _
      rw [hcomplete, done_of_sameButAnswers (hq.of_report (t := t) rfl) (release_same t)]
    have hready : (completed c f).ready = some f := by
      simp [CompRead.ready, completed, hf]
    refine ⟨fun earlier e later ho he hkey hearlier => ?_,
      fun earlier e later ho he hkey hearlier => ?_⟩
    · have hhead : atHead t (.read, masterTag (completed c f).req.id) (completed c f).key = false :=
        (atHead_eq (s := t) c.key ho he hearlier).trans (by simpa using hkey)
      rw [hanswer, release_of_none t (readyRead_of_waiting rfl hothers hhead)]
      rfl
    · have hhead : atHead t (.read, masterTag (completed c f).req.id) (completed c f).key = true :=
        (atHead_eq (s := t) c.key ho he hearlier).trans (by simpa using hkey)
      have hread : readyRead t = some (completed c f, f) :=
        readyRead_eq_some rfl (fun x hm => hothers x (List.mem_append_left _ hm)) hhead hready
      have hlone : ∀ x ∈ t.comp.reads, x.key ≠ (completed c f).key → x.fetched = none := by
        intro x hm hne
        rcases List.mem_append.1 hm with hm | hm
        · exact hothers x (List.mem_append_left _ hm)
        · rcases List.mem_cons.1 hm with rfl | hm
          · exact absurd rfl hne
          · exact hothers x (List.mem_append_right _ hm)
      refine ⟨answerMarks s p c, answerWeights s p c overlay, answerData c program overlay, ?_,
        length_answerData overlay hprogram, fun i a v ha hv => ?_, fun hne => ?_, fun heq => ?_⟩
      · rw [hanswer, release_of_some hread hlone, answerRead_eq hp hk]
      · have hbyte := getElem?_answerData (overlay := overlay) ha hv
        refine ⟨fun hbare => by rw [hbyte, answerByte_of_bare v hbare], fun hpix hcov => ?_⟩
        rw [hbyte, answerByte_of_covered v hpix hcov]
        exact ⟨fun h => by rw [h]; rfl, fun h => by rw [h]; rfl, fun h => by rw [h]; rfl,
          fun h => by rw [h]; rfl⟩
      · exact ⟨if_neg hne, if_neg hne⟩
      · obtain ⟨hcounted, hmarks⟩ := answerMarks_spec (s := s) heq
        refine ⟨answerWeights_eq overlay heq, hcounted, fun y => ?_⟩
        simpa only [mem_rPixels] using hmarks y
  · exact ⟨⟨map_layer_readCovered c overlay x y, fun z hz => mem_readCovered hz⟩, fun n a => rfl,
      fun lower z higher h hl => overlayByte_eq h hl,
      by rw [mem_countedPixels, mem_rPixels], fun n => rfl,
      fun n hn => weightOf_weightWalk_eq_zero (fun z hz => hn z (List.mem_reverse.1 hz)) 255,
      fun below z above h hw => by rw [h]; exact weightOf_weightsAt hw⟩

end Sys2Proof.FrameProofs
end

section
/-! The notice ring: which record of a kind is unconsumed, and what the occurrences that one command raised
come to when they are taken (R186). -/

namespace Sys2Proof.FrameProofs
open Sys2Proof.Machine

/-! ### The unconsumed record of a kind -/

/-- The record at position `i` is the unconsumed one of this kind. -/
def OpenRecord (r : ReportUnit) (k : NoticeKind) (i : Nat) (x : NoticeRecord) : Prop :=
  r.ring[i]? = some x ∧ x.kind = some k ∧ unconsumed r x.number = true

/-- The ring is in order and every record stands at its number's place (R186). -/
def RingFits (s : State) : Prop := RingOk s ∧ PlacesOk s

/-- What a record's place in the ring rests on. -/
theorem RingFits.of_report {s t : State} (h : RingFits s) (hr : t.report.ring = s.report.ring)
    (hp : t.report.produce = s.report.produce) (hc : t.report.consume = s.report.consume) :
    RingFits t := by
  simpa only [RingFits, RingOk, PlacesOk, noticeCount, noticeKindAt, hr, hp, hc] using h

/-- The place of the number `j` after the consume number. -/
def placeAt (r : ReportUnit) (j : Nat) : Nat := (r.consume + BitVec.ofNat 16 j).toNat % 32

theorem openRecord_spec {s : State} {k : NoticeKind} {i : Nat} {x : NoticeRecord} (h : RingFits s)
    (hx : OpenRecord s.report k i x) :
    ∃ j < noticeCount s.report, i = placeAt s.report j ∧ noticeKindAt s.report j = some k ∧
      x.number.toNat % 32 = i := by
  obtain ⟨⟨hlen, -, -, -⟩, hplaces⟩ := h
  obtain ⟨hget, hkind, hopen⟩ := hx
  obtain ⟨hi, -⟩ := List.getElem?_eq_some_iff.1 hget
  have hplace : x.number.toNat % 32 = i := hplaces i (by omega) x hget (by simp [hkind])
  refine ⟨(x.number - s.report.consume).toNat, of_decide_eq_true hopen, ?_, ?_, hplace⟩
  · rw [placeAt, BitVec.ofNat_toNat, BitVec.setWidth_eq, BitVec.add_comm, BitVec.sub_add_cancel, hplace]
  · rw [noticeKindAt, BitVec.ofNat_toNat, BitVec.setWidth_eq, BitVec.add_comm, BitVec.sub_add_cancel,
      hplace, List.getD_eq_getElem?_getD, hget, Option.getD_some, hkind]

/-- No two unconsumed records are of one kind (R186). -/
theorem openRecord_unique {s : State} {k : NoticeKind} {i j : Nat} {x y : NoticeRecord}
    (h : RingFits s) (hx : OpenRecord s.report k i x) (hy : OpenRecord s.report k j y) :
    i = j ∧ x = y := by
  obtain ⟨a, ha, rfl, hka, -⟩ := openRecord_spec h hx
  obtain ⟨b, hb, rfl, hkb, -⟩ := openRecord_spec h hy
  obtain ⟨⟨-, -, -, hdistinct⟩, -⟩ := h
  have hab : a = b := hdistinct a ha b hb (hka.trans hkb.symm)
  subst hab
  exact ⟨rfl, Option.some.inj (hx.1.symm.trans hy.1)⟩

theorem recordOf_eq_none {r : ReportUnit} {k : NoticeKind} :
    recordOf r k = none ↔ ∀ i x, ¬OpenRecord r k i x := by
  simp only [recordOf, List.findIdx?_eq_none_iff, Bool.and_eq_false_iff, beq_eq_false_iff_ne]
  constructor
  · rintro h i x ⟨hget, hkind, hopen⟩
    rcases h x (List.mem_of_getElem? hget) with h | h
    · exact h hkind
    · simp [hopen] at h
  · intro h x hx
    obtain ⟨i, hi⟩ := List.getElem?_of_mem hx
    by_cases hkind : x.kind = some k
    · exact .inr (Bool.eq_false_iff.2 fun hopen => h i x ⟨hi, hkind, hopen⟩)
    · exact .inl hkind

theorem openRecord_of_recordOf {r : ReportUnit} {k : NoticeKind} {i : Nat} (h : recordOf r k = some i) :
    OpenRecord r k i (r.ring.getD i .zero) := by
  obtain ⟨hi, hp, -⟩ := List.findIdx?_eq_some_iff_getElem.1 h
  simp only [Bool.and_eq_true, beq_iff_eq] at hp
  rw [List.getD_eq_getElem?_getD, List.getElem?_eq_getElem hi, Option.getD_some]
  exact ⟨List.getElem?_eq_getElem hi, hp.1, hp.2⟩

theorem recordOf_of_openRecord {s : State} {k : NoticeKind} {i : Nat} {x : NoticeRecord}
    (h : RingFits s) (hx : OpenRecord s.report k i x) : recordOf s.report k = some i := by
  cases hr : recordOf s.report k with
  | none => exact absurd hx (recordOf_eq_none.1 hr i x)
  | some j => rw [(openRecord_unique h hx (openRecord_of_recordOf hr)).1]

theorem countOf_of_openRecord {s : State} {k : NoticeKind} {i : Nat} {x : NoticeRecord}
    (h : RingFits s) (hx : OpenRecord s.report k i x) : countOf s.report k = x.count := by
  rw [countOf, recordOf_of_openRecord h hx]
  simp only [List.getD_eq_getElem?_getD, hx.1, Option.getD_some]

theorem countOf_of_none {r : ReportUnit} {k : NoticeKind} (h : ∀ i x, ¬OpenRecord r k i x) :
    countOf r k = 0 := by rw [countOf, recordOf_eq_none.2 h]

/-! ### One occurrence taken (R186) -/

theorem getElem?_modify_ite {α : Type} (l : List α) (i : Nat) (f : α → α) (j : Nat) :
    (l.modify i f)[j]? = if i = j then l[j]?.map f else l[j]? := by
  rw [List.getElem?_modify]
  split <;> simp

theorem report_takeOccurrence_some {s : State} {k : NoticeKind} {i : Nat} (d : List Byte)
    (h : recordOf s.report k = some i) :
    (takeOccurrence s k d).report =
      { s.report with ring := s.report.ring.modify i (repeatRecord s d) } := by
  rw [takeOccurrence, h]
  rfl

theorem report_takeOccurrence_none {s : State} {k : NoticeKind} (d : List Byte)
    (h : recordOf s.report k = none) :
    (takeOccurrence s k d).report =
      { s.report with
        ring := s.report.ring.set (s.report.produce.toNat % 32) (freshRecord s k d)
        produce := s.report.produce + 1 } := by
  rw [takeOccurrence, h]
  rfl

/-- The kinds of notices (R188). -/
def noticeKinds : List NoticeKind :=
  [.modeChanged, .requestRefused, .tableIgnored, .writeBlocked, .assetError, .fallbackShown,
    .exposureTarget, .spotDropped, .periodEnd, .shotExpired, .clockStopped, .clockLimit, .timebaseLost,
    .timebaseRestored, .scoreChange, .replayStarted, .replayEnded, .ingestAbandoned, .intakeOverrun,
    .intakeBad, .msgExpired, .withdrawLate]

theorem mem_noticeKinds (k : NoticeKind) : k ∈ noticeKinds := by cases k <;> decide

/-- Distinct kinds are at most 22. -/
theorem count_le_of_distinct {n : Nat} {kind : Nat → Option NoticeKind}
    (hs : ∀ j < n, (kind j).isSome = true) (hd : ∀ i < n, ∀ j < n, kind i = kind j → i = j) :
    n ≤ 22 := by
  have hmaps : ∀ j ∈ Finset.range n, kind j ∈ (noticeKinds.map some).toFinset := by
    intro j hj
    obtain ⟨k, hk⟩ := Option.isSome_iff_exists.1 (hs j (Finset.mem_range.1 hj))
    simp [hk, mem_noticeKinds]
  have hinj : Set.InjOn kind (Finset.range n) := fun i hi j hj hij =>
    hd i (by simpa using hi) j (by simpa using hj) hij
  calc n = (Finset.range n).card := (Finset.card_range n).symm
    _ ≤ (noticeKinds.map some).toFinset.card := Finset.card_le_card_of_injOn kind hmaps hinj
    _ ≤ (noticeKinds.map some).length := List.toFinset_card_le _

/-- A change of records that keeps their numbers and kinds keeps the ring in order. -/
theorem ringFits_modify {s : State} (h : RingFits s) (i : Nat) (d : List Byte) :
    RingFits { s with report := { s.report with ring := s.report.ring.modify i (repeatRecord s d) } } := by
  have hget : ∀ j : Nat, ∃ y : NoticeRecord,
      (s.report.ring.modify i (repeatRecord s d)).getD j .zero = y ∧
      y.number = (s.report.ring.getD j .zero).number ∧ y.kind = (s.report.ring.getD j .zero).kind := by
    intro j
    refine ⟨_, rfl, ?_⟩
    rw [List.getD_eq_getElem?_getD, List.getD_eq_getElem?_getD, getElem?_modify_ite]
    split
    · cases s.report.ring[j]? <;> exact ⟨rfl, rfl⟩
    · exact ⟨rfl, rfl⟩
  obtain ⟨⟨hlen, hcount, hnumber, hdistinct⟩, hplaces⟩ := h
  have hkind : ∀ j, noticeKindAt { s.report with
      ring := s.report.ring.modify i (repeatRecord s d) } j = noticeKindAt s.report j := fun j => by
    obtain ⟨y, hy, -, hk⟩ := hget (placeAt s.report j)
    exact (congrArg NoticeRecord.kind hy).trans hk
  refine ⟨⟨by simpa using hlen, hcount, fun j hj => ?_, fun a ha b hb hab => ?_⟩, fun j hj x hx hk => ?_⟩
  · obtain ⟨hn, hk⟩ := hnumber j hj
    obtain ⟨y, hy, hyn, -⟩ := hget (placeAt s.report j)
    exact ⟨(congrArg NoticeRecord.number hy).trans (hyn.trans hn), (hkind j).symm ▸ hk⟩
  · exact hdistinct a ha b hb ((hkind a).symm.trans (hab.trans (hkind b)))
  · dsimp only at hx
    rw [getElem?_modify_ite] at hx
    split at hx
    · obtain ⟨y, hy, rfl⟩ := Option.map_eq_some_iff.1 hx
      exact hplaces j hj y hy hk
    · exact hplaces j hj x hx hk

/-- The places before the produce number's are others. -/
theorem placeAt_ne_produce {r : ReportUnit} (hc : noticeCount r ≤ 22) {j : Nat} (hj : j < noticeCount r) :
    placeAt r j ≠ r.produce.toNat % 32 := by
  unfold noticeCount placeAt at *
  rw [BitVec.toNat_add, BitVec.toNat_ofNat]
  rw [BitVec.toNat_sub] at hc hj
  have hp := r.produce.isLt
  have hk := r.consume.isLt
  omega

theorem produce_eq_consume_add (r : ReportUnit) :
    r.consume + BitVec.ofNat 16 (noticeCount r) = r.produce := by
  rw [noticeCount, BitVec.ofNat_toNat, BitVec.setWidth_eq, BitVec.add_comm, BitVec.sub_add_cancel]

/-- The unit with one record more in its ring. -/
def withFresh (r : ReportUnit) (x : NoticeRecord) : ReportUnit :=
  { r with ring := r.ring.set (r.produce.toNat % 32) x, produce := r.produce + 1 }

theorem noticeCount_withFresh {r : ReportUnit} (hc : noticeCount r ≤ 22) (x : NoticeRecord) :
    noticeCount (withFresh r x) = noticeCount r + 1 := by
  have hone : (1 : BitVec 16).toNat = 1 := rfl
  change (r.produce + 1 - r.consume).toNat = (r.produce - r.consume).toNat + 1
  unfold noticeCount at hc
  rw [BitVec.toNat_sub] at hc ⊢
  rw [BitVec.toNat_add, BitVec.toNat_sub, hone]
  have hp := r.produce.isLt
  have hk := r.consume.isLt
  omega

theorem getD_withFresh {r : ReportUnit} (hlen : r.ring.length = 32) (x : NoticeRecord) (i : Nat) :
    (withFresh r x).ring.getD i .zero =
      if i = r.produce.toNat % 32 then x else r.ring.getD i .zero := by
  simp only [withFresh, List.getD_eq_getElem?_getD, List.getElem?_set]
  by_cases h : r.produce.toNat % 32 = i
  · rw [if_pos h, if_pos (by omega), if_pos h.symm, Option.getD_some]
  · rw [if_neg h, if_neg (Ne.symm h)]

/-- A new record of a kind that has no unconsumed one keeps the ring in order. -/
theorem ringFits_fresh {s : State} {k : NoticeKind} {x : NoticeRecord} (h : RingFits s)
    (hk : ∀ i x, ¬OpenRecord s.report k i x) (hx : x.number = s.report.produce)
    (hxk : x.kind = some k) : RingFits { s with report := withFresh s.report x } := by
  have hfits := h
  obtain ⟨⟨hlen, hcount, hnumber, hdistinct⟩, hplaces⟩ := h
  have hold : ∀ j < noticeCount s.report, (withFresh s.report x).ring.getD (placeAt s.report j) .zero =
      s.report.ring.getD (placeAt s.report j) .zero := fun j hj => by
    rw [getD_withFresh hlen, if_neg (placeAt_ne_produce hcount hj)]
  have hnew : (withFresh s.report x).ring.getD (placeAt s.report (noticeCount s.report)) .zero = x := by
    rw [getD_withFresh hlen, placeAt, produce_eq_consume_add, if_pos rfl]
  have hkindOld : ∀ j < noticeCount s.report,
      noticeKindAt (withFresh s.report x) j = noticeKindAt s.report j := fun j hj =>
    congrArg NoticeRecord.kind (hold j hj)
  have hkindNew : noticeKindAt (withFresh s.report x) (noticeCount s.report) = some k :=
    (congrArg NoticeRecord.kind hnew).trans hxk
  have hother : ∀ j < noticeCount s.report, noticeKindAt s.report j ≠ some k := fun j hj he => by
    have hplace : placeAt s.report j < 32 := Nat.mod_lt _ (by decide)
    obtain ⟨hn, -⟩ := hnumber j hj
    refine hk (placeAt s.report j) (s.report.ring.getD (placeAt s.report j) .zero) ⟨?_, he, ?_⟩
    · rw [List.getD_eq_getElem?_getD, List.getElem?_eq_getElem (by omega), Option.getD_some]
    · have hn : (s.report.ring.getD (placeAt s.report j) .zero).number =
          s.report.consume + BitVec.ofNat 16 j := hn
      rw [hn, unconsumed, decide_eq_true_eq, BitVec.add_comm, BitVec.add_sub_cancel,
        BitVec.toNat_ofNat]
      exact lt_of_le_of_lt (Nat.mod_le _ _) hj
  have hsome : ∀ j < noticeCount s.report + 1, (noticeKindAt (withFresh s.report x) j).isSome = true :=
    fun j hj => by
      rcases Nat.lt_succ_iff_lt_or_eq.1 hj with hj | rfl
      · rw [hkindOld j hj]
        exact (hnumber j hj).2
      · rw [hkindNew]
        rfl
  have hdis : ∀ a < noticeCount s.report + 1, ∀ b < noticeCount s.report + 1,
      noticeKindAt (withFresh s.report x) a = noticeKindAt (withFresh s.report x) b → a = b := by
    intro a ha b hb hab
    rcases Nat.lt_succ_iff_lt_or_eq.1 ha with ha | rfl <;>
      rcases Nat.lt_succ_iff_lt_or_eq.1 hb with hb | rfl
    · rw [hkindOld a ha, hkindOld b hb] at hab
      exact hdistinct a ha b hb hab
    · rw [hkindOld a ha, hkindNew] at hab
      exact absurd hab (hother a ha)
    · rw [hkindOld b hb, hkindNew] at hab
      exact absurd hab.symm (hother b hb)
    · rfl
  have hcountNew := noticeCount_withFresh hcount x
  refine ⟨⟨by simpa [withFresh] using hlen, ?_, fun j hj => ?_, ?_⟩, fun j hj y hy hyk => ?_⟩
  · dsimp only
    rw [hcountNew]
    exact count_le_of_distinct hsome hdis
  · dsimp only at hj
    rw [hcountNew] at hj
    refine ⟨?_, hsome j hj⟩
    rcases Nat.lt_succ_iff_lt_or_eq.1 hj with hj | rfl
    · exact (congrArg NoticeRecord.number (hold j hj)).trans (hnumber j hj).1
    · exact (congrArg NoticeRecord.number hnew).trans (hx.trans (produce_eq_consume_add _).symm)
  · dsimp only
    rw [hcountNew]
    exact hdis
  · have hget := getD_withFresh hlen x j
    rw [List.getD_eq_getElem?_getD, hy, Option.getD_some] at hget
    by_cases hj' : j = s.report.produce.toNat % 32
    · rw [if_pos hj'] at hget
      rw [hget, hx, hj']
    · refine hplaces j hj y ?_ hyk
      rw [if_neg hj', List.getD_eq_getElem?_getD, List.getElem?_eq_getElem (by omega),
        Option.getD_some] at hget
      rw [hget, List.getElem?_eq_getElem]

/-- Taking an occurrence keeps the ring in order (R186). -/
theorem ringFits_takeOccurrence {s : State} (h : RingFits s) (k : NoticeKind) (d : List Byte) :
    RingFits (takeOccurrence s k d) := by
  cases hr : recordOf s.report k with
  | some i =>
    have he := report_takeOccurrence_some d hr
    exact (ringFits_modify h i d).of_report (by rw [he]) (by rw [he]) (by rw [he])
  | none =>
    have he := report_takeOccurrence_none d hr
    exact (ringFits_fresh (x := freshRecord s k d) h (recordOf_eq_none.1 hr) rfl rfl).of_report
      (by rw [he]; rfl) (by rw [he]; rfl) (by rw [he]; rfl)

/-- The unconsumed record of its kind after an occurrence: one more in its count, this moment, this detail
(R186). -/
theorem openRecord_takeOccurrence_same {s : State} (h : RingFits s) (k : NoticeKind) (d : List Byte) :
    ∃ i x, OpenRecord (takeOccurrence s k d).report k i x ∧ x.frame = s.comp.frame ∧
      x.house = s.clock.house ∧ x.detail = d ∧ x.count = min 65535 (countOf s.report k + 1) := by
  cases hr : recordOf s.report k with
  | some i =>
    have ho := openRecord_of_recordOf hr
    have hcount := countOf_of_openRecord h ho
    refine ⟨i, repeatRecord s d (s.report.ring.getD i .zero), ?_, rfl, rfl, rfl, by rw [hcount]; rfl⟩
    rw [report_takeOccurrence_some d hr]
    obtain ⟨hget, hkind, hopen⟩ := ho
    refine ⟨?_, hkind, hopen⟩
    rw [getElem?_modify_ite, if_pos rfl, hget, Option.map_some]
  | none =>
    have hcount := countOf_of_none (recordOf_eq_none.1 hr)
    refine ⟨s.report.produce.toNat % 32, freshRecord s k d, ?_, rfl, rfl, rfl, by rw [hcount]; rfl⟩
    rw [report_takeOccurrence_none d hr]
    obtain ⟨⟨hlen, hcount', -, -⟩, -⟩ := h
    refine ⟨?_, rfl, ?_⟩
    · simp only [List.getElem?_set, if_pos]
      rw [if_pos (by omega)]
    · have hnext := noticeCount_withFresh hcount' (freshRecord s k d)
      change decide (noticeCount s.report < noticeCount (withFresh s.report (freshRecord s k d))) = true
      rw [hnext, decide_eq_true_eq]
      exact Nat.lt_succ_self _

/-- A number that a new record leaves unconsumed was unconsumed, or is the new record's. -/
theorem unconsumed_withFresh {r : ReportUnit} (hc : noticeCount r ≤ 22) (x : NoticeRecord)
    (n : BitVec 16) :
    unconsumed (withFresh r x) n = true ↔ unconsumed r n = true ∨ n = r.produce := by
  have hnext := noticeCount_withFresh hc x
  have hsucc : unconsumed (withFresh r x) n = true ↔ (n - r.consume).toNat < noticeCount r + 1 := by
    rw [← hnext, unconsumed, decide_eq_true_eq]
    rfl
  have hold : unconsumed r n = true ↔ (n - r.consume).toNat < noticeCount r := decide_eq_true_iff
  have heq : (n - r.consume).toNat = noticeCount r ↔ n = r.produce := by
    unfold noticeCount
    rw [BitVec.toNat_inj, BitVec.sub_left_inj]
  rw [hsucc, hold, ← heq]
  omega

/-- An occurrence leaves the unconsumed records of other kinds (R186). -/
theorem openRecord_takeOccurrence_other {s : State} {k l : NoticeKind} (h : RingFits s) (hkl : k ≠ l)
    (d : List Byte) (i : Nat) (x : NoticeRecord) :
    OpenRecord (takeOccurrence s k d).report l i x ↔ OpenRecord s.report l i x := by
  cases hr : recordOf s.report k with
  | some j =>
    obtain ⟨hget, hkind, -⟩ := openRecord_of_recordOf hr
    rw [report_takeOccurrence_some d hr]
    unfold OpenRecord
    dsimp only
    rw [getElem?_modify_ite]
    by_cases hij : j = i
    · subst hij
      rw [hget, if_pos rfl, Option.map_some]
      constructor
      · rintro ⟨hx, hl, -⟩
        obtain rfl := Option.some.inj hx
        exact absurd (hkind.symm.trans hl) (by simpa using hkl)
      · rintro ⟨hx, hl, -⟩
        rw [← Option.some.inj hx, hkind] at hl
        exact absurd hl (by simpa using hkl)
    · rw [if_neg hij]
      rfl
  | none =>
    rw [report_takeOccurrence_none d hr]
    change OpenRecord (withFresh s.report (freshRecord s k d)) l i x ↔ _
    have hfits := h
    obtain ⟨⟨hlen, hcount, -, -⟩, hplaces⟩ := h
    constructor
    · rintro ⟨hx, hl, ho⟩
      have hi : ¬s.report.produce.toNat % 32 = i := by
        rintro rfl
        simp only [withFresh, List.getElem?_set, if_true] at hx
        rw [if_pos (by omega), Option.some.injEq] at hx
        subst hx
        exact hkl (by simpa [freshRecord] using hl)
      have hx : s.report.ring[i]? = some x := by
        simpa only [withFresh, List.getElem?_set, if_neg hi] using hx
      refine ⟨hx, hl, ((unconsumed_withFresh hcount _ _).1 ho).resolve_right fun hn => hi ?_⟩
      obtain ⟨hlt, -⟩ := List.getElem?_eq_some_iff.1 hx
      rw [← hn]
      exact hplaces i (by omega) x hx (by simp [hl])
    · intro hx
      obtain ⟨j, hj, rfl, -, -⟩ := openRecord_spec hfits hx
      obtain ⟨hx, hl, ho⟩ := hx
      refine ⟨?_, hl, (unconsumed_withFresh hcount _ _).2 (.inl ho)⟩
      simp only [withFresh, List.getElem?_set, if_neg (placeAt_ne_produce hcount hj).symm]
      exact hx

/-! ### All that a command raised taken -/

/-- The details of the occurrences of this kind in a list of reports. -/
def detailsOf (k : NoticeKind) (l : List Report) : List (List Byte) :=
  l.filterMap fun r =>
    match r with
    | .occurrence k' d => if k' = k then some d else none
    | .consume _ => none

/-- Every report of the list is an occurrence. -/
def OnlyOccurrences (l : List Report) : Prop := ∀ v, Report.consume v ∉ l

theorem detailsOf_append (k : NoticeKind) (a b : List Report) :
    detailsOf k (a ++ b) = detailsOf k a ++ detailsOf k b := List.filterMap_append ..

theorem comp_foldl_takeReport (l : List Report) (s : State) :
    (l.foldl takeReport s).comp = s.comp := comp_of_aside (aside_foldl_takeReport l s)

theorem clock_foldl_takeReport (l : List Report) (s : State) :
    (l.foldl takeReport s).clock = s.clock := clock_of_aside (aside_foldl_takeReport l s)

/-- What taking these occurrences comes to, for the records of kind `k` (R186). -/
def TakenAs (s t : State) (k : NoticeKind) (details : List (List Byte)) : Prop :=
  RingFits t ∧
  (details = [] → ∀ i x, OpenRecord t.report k i x ↔ OpenRecord s.report k i x) ∧
  (details ≠ [] → ∃ i x, OpenRecord t.report k i x ∧ x.frame = s.comp.frame ∧
    x.house = s.clock.house ∧ x.detail ∈ details ∧
    x.count = min 65535 (countOf s.report k + details.length))

/-- An occurrence of the kind after others. -/
theorem TakenAs.same {s t : State} {k : NoticeKind} {details : List (List Byte)}
    (h : TakenAs s t k details) (hc : t.comp = s.comp) (hk : t.clock = s.clock) (d : List Byte) :
    TakenAs s (takeOccurrence t k d) k (details ++ [d]) := by
  obtain ⟨hfits, hnone, hsome⟩ := h
  have hcount : min 65535 (countOf t.report k + 1) =
      min 65535 (countOf s.report k + (details ++ [d]).length) := by
    rw [List.length_append, List.length_singleton]
    by_cases hd : details = []
    · have hsame : countOf t.report k = countOf s.report k := by
        subst hd
        by_cases hs : ∃ i x, OpenRecord t.report k i x
        · obtain ⟨i, x, hx⟩ := hs
          rw [countOf_of_openRecord hfits hx]
          have hold := (hnone rfl i x).1 hx
          cases hr : recordOf s.report k with
          | none => exact absurd hold (recordOf_eq_none.1 hr i x)
          | some j =>
            have hj := (hnone rfl j _).2 (openRecord_of_recordOf hr)
            rw [countOf, hr, (openRecord_unique hfits hx hj).2]
        · have hs : ∀ i x, ¬OpenRecord t.report k i x := fun i x hx => hs ⟨i, x, hx⟩
          rw [countOf_of_none hs, countOf_of_none fun i x hx => hs i x ((hnone rfl i x).2 hx)]
      rw [hsame, hd]
      rfl
    · obtain ⟨i, x, hx, -, -, -, hn⟩ := hsome hd
      rw [countOf_of_openRecord hfits hx, hn]
      omega
  obtain ⟨i, x, hx, hframe, hhouse, hdetail, hn⟩ := openRecord_takeOccurrence_same hfits k d
  exact ⟨ringFits_takeOccurrence hfits k d, fun h => absurd h (by simp),
    fun _ => ⟨i, x, hx, hframe.trans (by rw [hc]), hhouse.trans (by rw [hk]),
      by simp [hdetail], hn.trans hcount⟩⟩

/-- An occurrence of another kind after others. -/
theorem TakenAs.other {s t : State} {k l : NoticeKind} {details : List (List Byte)}
    (h : TakenAs s t k details) (hl : l ≠ k) (d : List Byte) :
    TakenAs s (takeOccurrence t l d) k details := by
  obtain ⟨hfits, hnone, hsome⟩ := h
  have hother := openRecord_takeOccurrence_other hfits hl d
  exact ⟨ringFits_takeOccurrence hfits l d, fun hd i x => (hother i x).trans (hnone hd i x),
    fun hd => (hsome hd).imp fun i ⟨x, hx, hrest⟩ => ⟨x, (hother i x).2 hx, hrest⟩⟩

/-- Occurrences taken one after another: the last of a kind stands, counted with the others of it (R186). -/
theorem takenAs_foldl {s : State} (h : RingFits s) (k : NoticeKind) (l : List Report)
    (hl : OnlyOccurrences l) : TakenAs s (l.foldl takeReport s) k (detailsOf k l) := by
  induction l using List.reverseRecOn with
  | nil => exact ⟨h, fun _ _ _ => Iff.rfl, fun hne => absurd rfl hne⟩
  | append_singleton l r ih =>
    have ih := ih fun v hv => hl v (List.mem_append_left _ hv)
    rw [List.foldl_append, List.foldl_cons, List.foldl_nil, detailsOf_append]
    cases r with
    | consume v => exact absurd (List.mem_append_right _ (List.mem_singleton_self _)) (hl v)
    | occurrence k' d =>
      by_cases hk : k' = k
      · subst hk
        have hone : detailsOf k' [.occurrence k' d] = [d] := by simp [detailsOf]
        rw [hone]
        exact ih.same (comp_foldl_takeReport l s) (clock_foldl_takeReport l s) d
      · have hone : detailsOf k [.occurrence k' d] = [] := by simp [detailsOf, hk]
        rw [hone, List.append_nil]
        exact ih.other hk d

/-- The order in which reports are taken is an order of what was raised. -/
theorem perm_raisedOrder (r : ReportUnit) : (raisedOrder r).Perm r.raised := by
  unfold raisedOrder freeOrder
  split
  · rfl
  · exact perm_sortByRank _ _

/-- All that was raised taken: the records of a kind, by the details raised of it (R186). -/
theorem takenAs_takeRaised {s : State} (h : RingFits s) (k : NoticeKind)
    (hl : OnlyOccurrences s.report.raised) :
    ∃ details, details.Perm (detailsOf k s.report.raised) ∧ TakenAs s (takeRaised s) k details := by
  have hperm := perm_raisedOrder s.report
  refine ⟨detailsOf k (raisedOrder s.report), hperm.filterMap _, ?_⟩
  exact takenAs_foldl (s := setReport s fun r =>
      { r with raised := [], draws := if r.raised.length < 2 then r.draws else r.draws + 1 })
    (h.of_report rfl rfl rfl) k _ fun v hv => hl v (hperm.mem_iff.1 hv)

/-- A refresh that starts leaves the ring. -/
theorem report_refreshStart (s : State) :
    (refreshStart s).report.ring = s.report.ring ∧ (refreshStart s).report.produce = s.report.produce ∧
      (refreshStart s).report.consume = s.report.consume := by
  unfold refreshStart
  split <;> exact ⟨rfl, rfl, rfl⟩

theorem openRecord_congr {r q : ReportUnit} (hr : q.ring = r.ring) (hp : q.produce = r.produce)
    (hc : q.consume = r.consume) (k : NoticeKind) (i : Nat) (x : NoticeRecord) :
    OpenRecord q k i x ↔ OpenRecord r k i x := by
  simp only [OpenRecord, unconsumed, hr, hp, hc]

/-- The end of a command, for the records of a kind (R186). -/
theorem takenAs_settle {s : State} (h : RingFits s) (k : NoticeKind)
    (hl : OnlyOccurrences s.report.raised) :
    ∃ details, details.Perm (detailsOf k s.report.raised) ∧ TakenAs s (settle s) k details := by
  obtain ⟨details, hperm, hfits, hnone, hsome⟩ := takenAs_takeRaised h k hl
  obtain ⟨hr, hp, hc⟩ := report_refreshStart (takeRaised s)
  have hopen := openRecord_congr hr hp hc k
  exact ⟨details, hperm, hfits.of_report hr hp hc, fun hd i x => (hopen i x).trans (hnone hd i x),
    fun hd => (hsome hd).imp fun i ⟨x, hx, hrest⟩ => ⟨x, (hopen i x).2 hx, hrest⟩⟩

/-- A kind that was raised has its notice at the end of the command (R186). -/
theorem noticed_settle {s : State} (h : RingFits s) {k : NoticeKind}
    (hl : OnlyOccurrences s.report.raised) (hne : detailsOf k s.report.raised ≠ []) :
    Noticed (settle s) k fun d => d ∈ detailsOf k s.report.raised := by
  obtain ⟨details, hperm, -, -, hsome⟩ := takenAs_settle h k hl
  obtain ⟨i, x, ⟨hget, hkind, hopen⟩, hframe, hhouse, hdetail, -⟩ :=
    hsome fun hd => hne (by rw [hd] at hperm; exact hperm.symm.eq_nil)
  exact ⟨x, List.mem_of_getElem? hget, hkind, hopen, by rw [hframe, settle_comp],
    by rw [hhouse, settle_clock], hperm.mem_iff.1 hdetail⟩

/-- The count of a kind at the end of a command (R186). -/
theorem countOf_settle {s : State} (h : RingFits s) (k : NoticeKind)
    (hl : OnlyOccurrences s.report.raised) :
    countOf (settle s).report k =
      if detailsOf k s.report.raised = [] then countOf s.report k
      else min 65535 (countOf s.report k + (detailsOf k s.report.raised).length) := by
  obtain ⟨details, hperm, hfits, hnone, hsome⟩ := takenAs_settle h k hl
  have hnil : detailsOf k s.report.raised = [] ↔ details = [] :=
    ⟨fun hd => by rw [hd] at hperm; exact hperm.eq_nil,
      fun hd => by rw [hd] at hperm; exact hperm.symm.eq_nil⟩
  split
  · next hd =>
    have hnone := hnone (hnil.1 hd)
    cases hr : recordOf s.report k with
    | none =>
      have hs := recordOf_eq_none.1 hr
      rw [countOf_of_none hs, countOf_of_none fun i x hx => hs i x ((hnone i x).1 hx)]
    | some i =>
      have ho := openRecord_of_recordOf hr
      rw [countOf_of_openRecord h ho, countOf_of_openRecord hfits ((hnone i _).2 ho)]
  · next hd =>
    obtain ⟨i, x, hx, -, -, -, hn⟩ := hsome fun hd' => hd (hnil.2 hd')
    rw [countOf_of_openRecord hfits hx, hn, hperm.length_eq]

/-- A record of a kind that nothing raised stood in the ring before. -/
theorem mem_ring_takeOccurrence {s : State} {k l : NoticeKind} (hkl : k ≠ l) (d : List Byte)
    {x : NoticeRecord} (hx : x ∈ (takeOccurrence s k d).report.ring) (hl : x.kind = some l) :
    x ∈ s.report.ring := by
  cases hr : recordOf s.report k with
  | some i =>
    obtain ⟨hget, hkind, -⟩ := openRecord_of_recordOf hr
    rw [report_takeOccurrence_some d hr] at hx
    obtain ⟨j, hj⟩ := List.getElem?_of_mem hx
    dsimp only at hj
    rw [getElem?_modify_ite] at hj
    split at hj
    · next hij =>
      subst hij
      rw [hget, Option.map_some] at hj
      rw [← Option.some.inj hj] at hl
      exact absurd (Option.some.inj (hkind.symm.trans hl)) hkl
    · exact List.mem_of_getElem? hj
  | none =>
    rw [report_takeOccurrence_none d hr] at hx
    rcases List.mem_or_eq_of_mem_set hx with hx | rfl
    · exact hx
    · exact absurd (Option.some.inj hl) hkl

theorem mem_ring_foldl_takeReport {l : List Report} {s : State} {k : NoticeKind}
    (h : detailsOf k l = []) {x : NoticeRecord} (hx : x ∈ (l.foldl takeReport s).report.ring)
    (hk : x.kind = some k) : x ∈ s.report.ring := by
  induction l generalizing s with
  | nil => exact hx
  | cons r l ih =>
    rw [← List.singleton_append, detailsOf_append, List.append_eq_nil_iff] at h
    have hx := ih h.2 hx
    cases r with
    | consume v => exact hx
    | occurrence k' d =>
      refine mem_ring_takeOccurrence (fun hkk => ?_) d hx hk
      simp [detailsOf, hkk] at h

theorem mem_ring_settle {s : State} {k : NoticeKind} (h : detailsOf k s.report.raised = [])
    {x : NoticeRecord} (hx : x ∈ (settle s).report.ring) (hk : x.kind = some k) :
    x ∈ s.report.ring := by
  have horder : detailsOf k (raisedOrder s.report) = [] := by
    have hp := (perm_raisedOrder s.report).filterMap
      (f := fun r => match r with
        | .occurrence k' d => if k' = k then some d else none
        | .consume _ => none)
    exact (hp.trans (List.Perm.of_eq h)).eq_nil
  rw [settle, (report_refreshStart _).1] at hx
  exact mem_ring_foldl_takeReport (s := setReport s _) horder hx hk

end Sys2Proof.FrameProofs
end

section
/-! The accrual of exposure and the cap latches at FRAME_START (R17, R28, R29, R30, R35). -/

namespace Sys2Proof.FrameProofs
open Sys2Proof.Machine

/-! ### The figures -/

theorem exposure_le {h : Handover} (hw : h.weight ≤ 255 * h.area) :
    exposure h ≤ 1000 := by
  unfold exposure
  split
  · refine Nat.div_le_of_le_mul ?_
    calc h.weight * 1000 ≤ 255 * h.area * 1000 := Nat.mul_le_mul_right _ hw
      _ = _ := rfl
  · omega

theorem exposure_of_not_drawn {h : Handover} (hd : h.drawn = false) : exposure h = 0 := by
  rw [exposure, hd]
  rfl

/-- What one layer, if it is there, adds to sponsor `i`. -/
def accrualPart (i : Nat) : Option (Handover × Nat) → Nat
  | none => 0
  | some x => if x.1.named = .sponsor i then exposure x.1 * x.2 else 0

theorem accrual_eq_parts (i : Nat) {l : List (Handover × Nat)} (h : l.length ≤ 4) :
    accrual i l = accrualPart i l[0]? + accrualPart i l[1]? + accrualPart i l[2]? +
      accrualPart i l[3]? := by
  match l, h with
  | [], _ => rfl
  | [a], _ => simp [accrual, accrualPart]
  | [a, b], _ => simp [accrual, accrualPart]
  | [a, b, c], _ => simp [accrual, accrualPart]; omega
  | [a, b, c, d], _ => simp [accrual, accrualPart]; omega

/-! ### Step 1: the accrual (R29) -/

theorem getElem?_accrueSponsors (pairs : List (Handover × Nat)) (l : List Sponsor) (k i : Nat) :
    (accrueSponsors pairs k l)[i]? =
      l[i]?.map fun x => { x with acc := min accLimit (x.acc + accrual (k + i) pairs) } := by
  induction l generalizing k i with
  | nil => rfl
  | cons x xs ih =>
    cases i with
    | zero => rfl
    | succ i =>
      rw [accrueSponsors, List.getElem?_cons_succ, List.getElem?_cons_succ, ih]
      rw [Nat.add_right_comm, Nat.add_assoc]

theorem sponsorAt_of_getElem? {s : State} {i : Nat} {x : Sponsor} (h : s.rot.sponsors[i]? = some x) :
    sponsorAt s i = x := by
  rw [sponsorAt, List.getD_eq_getElem?_getD, h, Option.getD_some]

theorem getElem?_sponsors {s : State} {i : Nat} (h : i < s.rot.sponsors.length) :
    s.rot.sponsors[i]? = some (sponsorAt s i) := by
  rw [sponsorAt, List.getD_eq_getElem?_getD, List.getElem?_eq_getElem h, Option.getD_some]

/-- A sponsor's record after the accrual. -/
theorem sponsorAt_rotAccrue {s : State} {i : Nat} (h : i < s.rot.sponsors.length)
    (hand : List Handover) :
    sponsorAt (rotAccrue s hand) i =
      { sponsorAt s i with
        acc := min accLimit ((sponsorAt s i).acc +
          accrual i (hand.zip (s.rot.placements.map fun p => p.fields.grade))) } := by
  refine sponsorAt_of_getElem? ?_
  have hget := getElem?_accrueSponsors (hand.zip (s.rot.placements.map fun p => p.fields.grade))
    s.rot.sponsors 0 i
  rw [getElem?_sponsors h, Nat.zero_add] at hget
  exact hget

/-! ### Step 2: the cap test (R35) -/

/-- The records of the sponsors after these have been capped. -/
theorem getElem?_capped (due : List Nat) (s : State) (i : Nat) :
    (due.foldl (fun t j => modifySponsor t j fun x => { x with capped := true }) s).rot.sponsors[i]? =
      s.rot.sponsors[i]?.map fun x => if i ∈ due then { x with capped := true } else x := by
  induction due generalizing s with
  | nil => simp
  | cons j due ih =>
    rw [List.foldl_cons, ih]
    change ((s.rot.sponsors.modify j _)[i]?).map _ = _
    rw [getElem?_modify_ite]
    by_cases hj : j = i
    · subst hj
      rw [if_pos rfl, Option.map_map]
      refine Option.map_congr fun x _ => ?_
      by_cases hd : j ∈ due <;> simp [hd]
    · rw [if_neg hj]
      refine Option.map_congr fun x _ => ?_
      have hji : i ≠ j := fun h => hj h.symm
      simp [hji]

/-- Raising several occurrences appends them in some order (R186; log 1). -/
theorem raised_raiseAll {α : Type} (s : State) (k : NoticeKind) (key : α → Nat)
    (detail : α → List (Nat × List Byte)) (l : List α) :
    ∃ l' : List α, l'.Perm l ∧ (raiseAll s k key detail l).report.raised =
      s.report.raised ++ l'.map fun x => .occurrence k (layout 16 (detail x)) := by
  have hfold : ∀ (l : List α) (t : State),
      (l.foldl (fun u x => raise u k (detail x)) t).report.raised =
        t.report.raised ++ l.map fun x => .occurrence k (layout 16 (detail x)) := by
    intro l
    induction l with
    | nil => simp
    | cons x l ih =>
      intro t
      rw [List.foldl_cons, ih]
      simp [raise, raiseReport]
  unfold raiseAll
  split
  · exact ⟨l, .rfl, hfold l s⟩
  · exact ⟨_, perm_sortByRank _ l, hfold _ _⟩

theorem rot_raiseAll {α : Type} (s : State) (k : NoticeKind) (key : α → Nat)
    (detail : α → List (Nat × List Byte)) (l : List α) : (raiseAll s k key detail l).rot = s.rot := by
  have hraise : ∀ (t : State) x, (raise t k (detail x)).rot = t.rot := fun _ _ => rfl
  unfold raiseAll
  split <;> exact view_foldl (view := State.rot) _ hraise _

/-- The sponsors whose latch the cap test sets. -/
def dueSponsors (s : State) : List Nat := (List.range 32).filter (capDue s)

theorem sponsorAt_rotCapTest {s : State} {i : Nat} (h : i < s.rot.sponsors.length) :
    sponsorAt (rotCapTest s) i =
      if i ∈ dueSponsors s then { sponsorAt s i with capped := true } else sponsorAt s i := by
  refine sponsorAt_of_getElem? ?_
  rw [rotCapTest, rot_raiseAll]
  exact (getElem?_capped _ s i).trans (by rw [getElem?_sponsors h]; rfl)

/-- The detail of EXPOSURE_TARGET for sponsor `i` (ch. 12.6). -/
def targetDetail (s : State) (i : Nat) : List Byte :=
  layout 16 [(0, leBytes 1 i), (2, leBytes 6 (sponsorAt s i).acc),
    (8, leBytes 6 (sponsorTarget s.path.shadow i))]

theorem detailsOf_map {α : Type} (k : NoticeKind) (f : α → List Byte) (l : List α) :
    detailsOf k (l.map fun x => .occurrence k (f x)) = l.map f := by
  rw [detailsOf, List.filterMap_map]
  simp

/-- The cap test raises EXPOSURE_TARGET for each sponsor it caps (R35). -/
theorem raised_rotCapTest (s : State) :
    ∃ l : List Nat, l.Perm (dueSponsors s) ∧ (rotCapTest s).report.raised =
      s.report.raised ++ l.map fun i => .occurrence .exposureTarget (targetDetail s i) := by
  obtain ⟨l, hl, hraised⟩ := raised_raiseAll
    ((dueSponsors s).foldl (fun t i => modifySponsor t i fun x => { x with capped := true }) s)
    .exposureTarget (fun i => i)
    (fun i => [(0, leBytes 1 i), (2, leBytes 6 (sponsorAt s i).acc),
      (8, leBytes 6 (sponsorTarget s.path.shadow i))]) (dueSponsors s)
  have hcap : ∀ (t : State) i,
      (modifySponsor t i fun x => { x with capped := true }).report = t.report := fun _ _ => rfl
  have hreport := view_foldl (view := State.report) s hcap (dueSponsors s)
  rw [hreport] at hraised
  exact ⟨l, hl, hraised⟩

/-! ### What the rest of the frame keeps of it -/

theorem detailsOf_reportsBut {k : NoticeKind} {ks : List NoticeKind} (h : k ∉ ks) (l : List Report) :
    detailsOf k (reportsBut ks l) = detailsOf k l := by
  induction l with
  | nil => rfl
  | cons r l ih =>
    rw [← List.singleton_append, detailsOf_append, reportsBut, List.filter_append, detailsOf_append]
    refine congrArg₂ _ ?_ ih
    cases r with
    | consume v => rfl
    | occurrence k' d =>
      by_cases hk : k' = k
      · subst hk
        simp [isOf, h]
      · by_cases hks : k' ∈ ks <;> simp [isOf, hks, detailsOf, hk]

/-- Two lists of reports that are alike but for other kinds have the same details of this kind. -/
theorem detailsOf_congr {k : NoticeKind} {ks : List NoticeKind} (h : k ∉ ks) {a b : List Report}
    (hab : reportsBut ks a = reportsBut ks b) : detailsOf k a = detailsOf k b := by
  rw [← detailsOf_reportsBut h a, hab, detailsOf_reportsBut h b]

theorem onlyOccurrences_congr {ks : List NoticeKind} {a b : List Report}
    (hab : reportsBut ks a = reportsBut ks b) (hb : OnlyOccurrences b) : OnlyOccurrences a := by
  intro v hv
  have hmem : Report.consume v ∈ reportsBut ks a := List.mem_filter.2 ⟨hv, rfl⟩
  rw [hab] at hmem
  exact hb v (List.mem_filter.1 hmem).1

/-- A sponsor's account, by what the rotation unit's later steps leave of its record. -/
theorem account_of_sansRot {s t : State} (h : sansRot s = sansRot t) (i : Nat) :
    (sponsorAt s i).acc = (sponsorAt t i).acc ∧ (sponsorAt s i).capped = (sponsorAt t i).capped := by
  have hmap : s.rot.sponsors.map (fun x => { x with pointer := 0 }) =
      t.rot.sponsors.map (fun x => { x with pointer := 0 }) := congrArg (fun u => u.rot.sponsors) h
  have hget : s.rot.sponsors[i]?.map (fun x => { x with pointer := 0 }) =
      t.rot.sponsors[i]?.map (fun x => { x with pointer := 0 }) := by
    rw [← List.getElem?_map, hmap, List.getElem?_map]
  rw [sponsorAt, sponsorAt, List.getD_eq_getElem?_getD, List.getD_eq_getElem?_getD]
  cases hs : s.rot.sponsors[i]? with
  | none =>
    rw [hs, Option.map_none] at hget
    rw [Option.map_eq_none_iff.1 hget.symm]
    exact ⟨rfl, rfl⟩
  | some x =>
    rw [hs, Option.map_some] at hget
    obtain ⟨y, hy, hxy⟩ := Option.map_eq_some_iff.1 hget.symm
    rw [hy]
    exact ⟨(congrArg Sponsor.acc hxy.symm :), (congrArg Sponsor.capped hxy.symm :)⟩

/-- The state the rotation unit finds at a FRAME_START. -/
theorem rot_frameSourced (s : State) : (frameSourced s).rot = s.rot := by
  have hmode : (frameOpened s).rot = s.rot := (congrArg State.rot (sansMode_modeFrame (openFrame s)) :)
  have hreplay : (replayFrame (frameOpened s)).rot = (frameOpened s).rot :=
    (congrArg State.rot (sansReplay_replayFrame (frameOpened s)) :)
  rw [frameSourced, scoreFrame_eq]
  exact hreplay.trans hmode

theorem path_frameSourced (s : State) : (frameSourced s).path = s.path := by
  have hmode : (frameOpened s).path = s.path :=
    (congrArg State.path (sansMode_modeFrame (openFrame s)) :)
  have hreplay : (replayFrame (frameOpened s)).path = (frameOpened s).path :=
    (congrArg State.path (sansReplay_replayFrame (frameOpened s)) :)
  rw [frameSourced, scoreFrame_eq]
  exact hreplay.trans hmode

/-- The state after the accrual of a FRAME_START. -/
def frameAccrued (s : State) : State := rotAccrue (frameSourced s) (handover s)

theorem shadow_frameAccrued (s : State) : (frameAccrued s).path.shadow = s.path.shadow :=
  congrArg PathUnit.shadow (path_frameSourced s)

/-- The sponsors' accounts after a FRAME_START are those after its accrual and cap test. -/
theorem account_frameStart (s : State) (i : Nat) :
    (sponsorAt (settle (frameStart s)) i).acc = (sponsorAt (rotCapTest (frameAccrued s)) i).acc ∧
    (sponsorAt (settle (frameStart s)) i).capped =
      (sponsorAt (rotCapTest (frameAccrued s)) i).capped := by
  have hrot : (settle (frameStart s)).rot =
      (rotFrame (frameSourced s) (handover s) (returnsLive s (frameSourced s))).rot :=
    (settle_rot _).trans (congrArg State.rot (sansTicker_tickerFrame _) :)
  have hat : sponsorAt (settle (frameStart s)) i =
      sponsorAt (rotFrame (frameSourced s) (handover s) (returnsLive s (frameSourced s))) i := by
    rw [sponsorAt, hrot]
    rfl
  rw [hat]
  exact account_of_sansRot (sansRot_rotFrame _ _ _) i

theorem sponsors_frameSourced {s : State} {i : Nat} (hs : s.rot.sponsors.length = 32) (hi : i < 32) :
    i < (frameSourced s).rot.sponsors.length := by
  rw [rot_frameSourced, hs]
  exact hi

theorem sponsorAt_frameAccrued {s : State} {i : Nat} (hs : s.rot.sponsors.length = 32) (hi : i < 32) :
    sponsorAt (frameAccrued s) i =
      { sponsorAt s i with
        acc := min accLimit ((sponsorAt s i).acc +
          accrual i ((handover s).zip (s.rot.placements.map fun p => p.fields.grade))) } := by
  have hat : sponsorAt (frameSourced s) i = sponsorAt s i := by
    rw [sponsorAt, rot_frameSourced]
    rfl
  rw [frameAccrued, sponsorAt_rotAccrue (sponsors_frameSourced hs hi), hat, rot_frameSourced]

theorem sponsors_frameAccrued {s : State} {i : Nat} (hs : s.rot.sponsors.length = 32) (hi : i < 32) :
    i < (frameAccrued s).rot.sponsors.length := by
  have hlen : ∀ pairs k (l : List Sponsor), (accrueSponsors pairs k l).length = l.length := by
    intro pairs k l
    induction l generalizing k with
    | nil => rfl
    | cons x l ih => rw [accrueSponsors, List.length_cons, ih, List.length_cons]
  have h := sponsors_frameSourced hs hi
  rw [← hlen ((handover s).zip ((frameSourced s).rot.placements.map fun p => p.fields.grade)) 0] at h
  exact h

/-- The accumulators after a FRAME_START (R29). -/
theorem acc_frameStart {s : State} {i : Nat} (hs : s.rot.sponsors.length = 32) (hi : i < 32) :
    (sponsorAt (settle (frameStart s)) i).acc = min accLimit ((sponsorAt s i).acc +
      accrual i ((handover s).zip (s.rot.placements.map fun p => p.fields.grade))) := by
  rw [(account_frameStart s i).1, sponsorAt_rotCapTest (sponsors_frameAccrued hs hi),
    sponsorAt_frameAccrued hs hi]
  split <;> rfl

theorem acc_frameAccrued {s : State} {i : Nat} (hs : s.rot.sponsors.length = 32) (hi : i < 32) :
    (sponsorAt (frameAccrued s) i).acc = (sponsorAt (settle (frameStart s)) i).acc := by
  rw [acc_frameStart hs hi, sponsorAt_frameAccrued hs hi]

/-- The latches a FRAME_START sets are those of the sponsors that meet their target (R35). -/
theorem mem_dueSponsors {s : State} {i : Nat} (hs : s.rot.sponsors.length = 32) (hi : i < 32) :
    i ∈ dueSponsors (frameAccrued s) ↔ (sponsorAt s i).capped = false ∧
      sponsorCapping s.path.shadow i = true ∧ sponsorTarget s.path.shadow i ≠ 0 ∧
      sponsorTarget s.path.shadow i ≤ (sponsorAt (settle (frameStart s)) i).acc := by
  have hcapped : (sponsorAt (frameAccrued s) i).capped = (sponsorAt s i).capped := by
    rw [sponsorAt_frameAccrued hs hi]
  simp only [dueSponsors, List.mem_filter, List.mem_range, hi, true_and, capDue, Bool.and_eq_true,
    Bool.not_eq_true', decide_eq_true_eq, hcapped, shadow_frameAccrued, acc_frameAccrued hs hi,
    and_assoc]

theorem capped_frameStart {s : State} {i : Nat} (hs : s.rot.sponsors.length = 32) (hi : i < 32) :
    (sponsorAt (settle (frameStart s)) i).capped = true ↔
      (sponsorAt s i).capped = true ∨ i ∈ dueSponsors (frameAccrued s) := by
  rw [(account_frameStart s i).2, sponsorAt_rotCapTest (sponsors_frameAccrued hs hi)]
  split
  · next h => simp [h]
  · next h =>
    rw [sponsorAt_frameAccrued hs hi]
    simp [h]

/-- There is no latch beyond the sponsors. -/
theorem capped_frameStart_of_le {s : State} {i : Nat} (hs : s.rot.sponsors.length = 32) (hi : 32 ≤ i) :
    (sponsorAt (settle (frameStart s)) i).capped = false := by
  have hnone : (rotCapTest (frameAccrued s)).rot.sponsors[i]? = none := by
    rw [rotCapTest, rot_raiseAll]
    refine (getElem?_capped _ _ i).trans (Option.map_eq_none_iff.2 ?_)
    refine (getElem?_accrueSponsors _ (frameSourced s).rot.sponsors 0 i).trans
      (Option.map_eq_none_iff.2 ?_)
    rw [rot_frameSourced, List.getElem?_eq_none_iff, hs]
    exact hi
  rw [(account_frameStart s i).2, sponsorAt, List.getD_eq_getElem?_getD, hnone]
  rfl

/-! ### EXPOSURE_TARGET (R35) -/

/-- The details of a kind, and whether anything but occurrences was raised, at the cap test's end and at
the end of a FRAME_START. -/
theorem raised_frameStart (s : State) :
    reportsBut rotKinds (frameStart s).report.raised =
      reportsBut rotKinds (rotCapTest (frameAccrued s)).report.raised := by
  have hticker : (tickerFrame (rotFrame (frameSourced s) (handover s)
      (returnsLive s (frameSourced s)))).report.raised = (rotFrame (frameSourced s) (handover s)
      (returnsLive s (frameSourced s))).report.raised :=
    (congrArg (fun t => t.report.raised) (sansTicker_tickerFrame _) :)
  have hrot : reportsBut rotKinds (rotFrame (frameSourced s) (handover s)
      (returnsLive s (frameSourced s))).report.raised =
      reportsBut rotKinds (rotOpen (frameSourced s) (handover s)).report.raised :=
    (congrArg (fun t => t.report.raised) (sansRot_rotFrame _ _ _) :)
  exact (congrArg (reportsBut rotKinds) hticker).trans hrot

/-- What the mode and the replay unit raised before the rotation unit's turn. -/
theorem raised_frameSourced (s : State) :
    reportsBut replayKinds (frameSourced s).report.raised =
      reportsBut replayKinds (frameOpened s).report.raised := by
  have hscore : (frameSourced s).report = (replayFrame (frameOpened s)).report := by
    rw [frameSourced, scoreFrame_eq]
  rw [hscore]
  exact (congrArg (fun t => t.report.raised) (sansReplay_replayFrame (frameOpened s)) :)

theorem raised_frameOpened (s : State) :
    reportsBut [.modeChanged] (frameOpened s).report.raised =
      reportsBut [.modeChanged] s.report.raised :=
  (congrArg (fun t => t.report.raised) (sansMode_modeFrame (openFrame s)) :)

/-- On a quiet state a FRAME_START raises nothing but occurrences. -/
theorem onlyOccurrences_frameStart {s : State} (hq : Quiet s) :
    OnlyOccurrences (frameStart s).report.raised := by
  have hsourced : OnlyOccurrences (frameSourced s).report.raised := by
    refine onlyOccurrences_congr (raised_frameSourced s)
      (onlyOccurrences_congr (raised_frameOpened s) ?_)
    rw [hq.1]
    exact fun v => List.not_mem_nil
  refine onlyOccurrences_congr (raised_frameStart s) ?_
  obtain ⟨l, -, hraised⟩ := raised_rotCapTest (frameAccrued s)
  rw [hraised]
  intro v hv
  rcases List.mem_append.1 hv with hv | hv
  · exact hsourced v hv
  · obtain ⟨i, -, hi⟩ := List.mem_map.1 hv
    cases hi

/-- On a quiet state a FRAME_START raises EXPOSURE_TARGET once for each latch it sets (R35). -/
theorem detailsOf_exposureTarget {s : State} (hq : Quiet s) :
    (detailsOf .exposureTarget (frameStart s).report.raised).Perm
      ((dueSponsors (frameAccrued s)).map (targetDetail (frameAccrued s))) := by
  have hsourced : detailsOf .exposureTarget (frameSourced s).report.raised = [] := by
    rw [detailsOf_congr (by decide) (raised_frameSourced s),
      detailsOf_congr (by decide) (raised_frameOpened s), hq.1]
    rfl
  obtain ⟨l, hl, hraised⟩ := raised_rotCapTest (frameAccrued s)
  have haccrued : (frameAccrued s).report.raised = (frameSourced s).report.raised := rfl
  rw [detailsOf_congr (by decide) (raised_frameStart s), hraised, detailsOf_append, haccrued,
    hsourced, detailsOf_map]
  exact hl.map _

/-- The ring of a FRAME_START's end is the one it found, before anything is taken. -/
theorem ringFits_frameStart {s : State} (h : RingFits s) : RingFits (frameStart s) :=
  h.of_report (ring_frameUnits s) (produce_frameUnits s) (consume_frameUnits s)

theorem countOf_frameStart (s : State) (k : NoticeKind) :
    countOf (frameStart s).report k = countOf s.report k := by
  have hring : (frameStart s).report.ring = s.report.ring := ring_frameUnits s
  have hproduce : (frameStart s).report.produce = s.report.produce := produce_frameUnits s
  have hconsume : (frameStart s).report.consume = s.report.consume := consume_frameUnits s
  simp only [countOf, recordOf, unconsumed, hring, hproduce, hconsume]

/-! ### The settling -/

/-- A latch is newly set at a FRAME_START (R35). -/
def NewlyCapped (s t : State) (i : Nat) : Prop :=
  (sponsorAt s i).capped = false ∧ (sponsorAt t i).capped = true

theorem newlyCapped_iff {s : State} (hs : s.rot.sponsors.length = 32) (i : Nat) :
    NewlyCapped s (settle (frameStart s)) i ↔ i ∈ dueSponsors (frameAccrued s) := by
  by_cases hi : i < 32
  · unfold NewlyCapped
    rw [capped_frameStart hs hi]
    constructor
    · rintro ⟨hold, hnew | hnew⟩
      · simp [hold] at hnew
      · exact hnew
    · exact fun h => ⟨((mem_dueSponsors hs hi).1 h).1, .inr h⟩
  · have hdue : i ∉ dueSponsors (frameAccrued s) := fun h =>
      hi (List.mem_range.1 (List.mem_filter.1 h).1)
    have hcap := capped_frameStart_of_le hs (Nat.le_of_not_lt hi)
    exact iff_of_false (fun ⟨_, hnew⟩ => Bool.false_ne_true (hcap.symm.trans hnew)) hdue

/-- What layer `n` adds to sponsor `i`: its figure, where it was drawn for that sponsor, times its
placement's grade (R28, R29). -/
def layerGain (i : Nat) (weight : Option Nat) (layer : Option PlanLayer) (placement : Option Placement) :
    Nat :=
  match weight, layer, placement with
  | some w, some l, some x =>
    if l.drawn = true ∧ l.sponsor = .sponsor i then
      w * 1000 / (255 * (l.w * l.h)) * x.fields.grade
    else 0
  | _, _, _ => 0

theorem accrualPart_handover {s : State} {p : Plan} (hp : s.comp.plan = some p) (i n : Nat) :
    accrualPart i ((handover s).zip (s.rot.placements.map fun x => x.fields.grade))[n]? =
      layerGain i s.comp.weights[n]? p.layers[n]? s.rot.placements[n]? := by
  simp only [handover, hp, List.zip, List.getElem?_zipWith, List.getElem?_map]
  match s.comp.weights[n]?, p.layers[n]?, s.rot.placements[n]? with
  | none, _, _ => rfl
  | some _, none, _ => rfl
  | some _, some _, none => rfl
  | some w, some l, some x =>
    cases hd : l.drawn <;> by_cases hn : l.sponsor = .sponsor i <;>
      simp [accrualPart, layerGain, exposure, hd, hn]

/-- Settles O50: the accrual and the cap test come first, and nothing later touches an account. -/
theorem frameStartAccruesExposure : Obligations.FrameStartAccruesExposure := by
  unfold Obligations.FrameStartAccruesExposure
  have hnext : ∀ {s t : State}, exec .frameStart s = .next t → t = settle (frameStart s) :=
    fun h => (Host.Outcome.next.inj h).symm
  refine ⟨fun s t i h hs hi => ?_, fun s t i h hs hpl hi => ?_, fun s t h hs hq hring hplaces => ?_⟩
  · obtain rfl := hnext h
    refine ⟨acc_frameStart hs hi, ?_, fun h _ hw => exposure_le hw, fun h => exposure_of_not_drawn⟩
    rw [capped_frameStart hs hi, mem_dueSponsors hs hi]
    cases (sponsorAt s i).capped <;> simp
  · obtain rfl := hnext h
    rw [acc_frameStart hs hi]
    refine ⟨fun hp => ?_, fun p hp => ?_⟩
    · have hnone : handover s = [] := by rw [handover, hp]
      rw [hnone]
      rfl
    · have hlen : ((handover s).zip (s.rot.placements.map fun x => x.fields.grade)).length ≤ 4 := by
        rw [List.length_zip, List.length_map]
        omega
      rw [accrual_eq_parts i hlen]
      simp only [accrualPart_handover hp, ← Nat.add_assoc]
      rfl
  · obtain rfl := hnext h
    intro newly n
    have honly := onlyOccurrences_frameStart hq
    have hfits := ringFits_frameStart ⟨hring, hplaces⟩
    have hperm := detailsOf_exposureTarget hq
    have hnewly : ∀ i, newly i ↔ i ∈ dueSponsors (frameAccrued s) := newlyCapped_iff hs
    have hn : n = (dueSponsors (frameAccrued s)).length := by
      refine congrArg List.length (List.filter_congr fun i hi => ?_)
      rw [Bool.eq_iff_iff, decide_eq_true_iff, hnewly, dueSponsors, List.mem_filter]
      simp [hi]
    have hlen : (detailsOf .exposureTarget (frameStart s).report.raised).length = n := by
      rw [hperm.length_eq, List.length_map, hn]
    refine ⟨fun ⟨i, hi⟩ => ?_, ?_⟩
    · have hne : detailsOf .exposureTarget (frameStart s).report.raised ≠ [] := fun hnil => by
        rw [hnil] at hperm
        have hdue := List.map_eq_nil_iff.1 hperm.symm.eq_nil
        rw [hnewly, hdue] at hi
        exact List.not_mem_nil hi
      obtain ⟨x, hx, hkind, hopen, hframe, hhouse, hdetail⟩ := noticed_settle hfits honly hne
      refine ⟨x, hx, hkind, hopen, hframe, hhouse, ?_⟩
      obtain ⟨j, hj, hd⟩ := List.mem_map.1 (hperm.mem_iff.1 hdetail)
      have hj32 : j < 32 := List.mem_range.1 (List.mem_filter.1 hj).1
      refine ⟨j, hj32, (hnewly j).2 hj, ?_⟩
      rw [← hd, targetDetail, acc_frameAccrued hs hj32, shadow_frameAccrued]
    · rw [countOf_settle hfits _ honly, countOf_frameStart, hlen]
      by_cases hzero : n = 0
      · rw [if_pos hzero, if_pos (List.length_eq_zero_iff.1 (hlen.trans hzero))]
      · rw [if_neg hzero, if_neg fun hnil => hzero (by rw [← hlen, hnil]; rfl)]

end Sys2Proof.FrameProofs
end

section
/-! What every FRAME_START does: the fields it leaves, the mode, the refresh (R4, R179, R183, R184). -/

namespace Sys2Proof.FrameProofs
open Sys2Proof.Machine

section
variable (s : State)

/-! ### The state the rotation unit and the ticker unit leave -/

/-- The state the ticker unit finds at a FRAME_START. -/
def frameRotated (s : State) : State :=
  rotFrame (frameSourced s) (handover s) (returnsLive s (frameSourced s))

theorem frameUnits_eq : frameUnits s = tickerFrame (frameRotated s) := rfl

/-- A part of the state that the ticker unit's handling keeps. -/
theorem frameUnits_keeps {β : Type} (view : State → β) (h : ∀ t, view (sansTicker t) = view t) :
    view (frameUnits s) = view (frameRotated s) := by
  rw [frameUnits_eq, ← h, sansTicker_tickerFrame, h]

/-- A part of the state that the rotation unit's later steps and the accrual both keep. -/
theorem frameRotated_keeps {β : Type} (view : State → β) (hrot : ∀ t, view (sansRot t) = view t)
    (hacc : ∀ t, view (sansAccrual t) = view t) : view (frameRotated s) = view (frameSourced s) := by
  rw [← hrot, frameRotated, sansRot_rotFrame, hrot, ← hacc, sansAccrual_rotOpen, hacc]

theorem report_scoreFrame (t : State) : (scoreFrame t).report = t.report := by rw [scoreFrame_eq]
theorem replay_scoreFrame (t : State) : (scoreFrame t).replay = t.replay := by rw [scoreFrame_eq]

theorem mode_frameSourced : (frameSourced s).report.mode = modeAhead s := by
  rw [frameSourced, report_scoreFrame, ← mode_frameOpened]
  exact (congrArg (fun t => t.report.mode) (sansReplay_replayFrame (frameOpened s)) :)

theorem mode_frameRotated : (frameRotated s).report.mode = modeAhead s :=
  (frameRotated_keeps s (fun t => t.report.mode) (fun _ => rfl) fun _ => rfl).trans
    (mode_frameSourced s)

@[simp] theorem mode_frameUnits : (frameUnits s).report.mode = modeAhead s :=
  (frameUnits_keeps s (fun t => t.report.mode) fun _ => rfl).trans
    (mode_frameRotated s)

theorem replay_frameRotated : (frameRotated s).replay = (replayFrame (frameOpened s)).replay :=
  (frameRotated_keeps s State.replay (fun _ => rfl) fun _ => rfl).trans (replay_scoreFrame _)

theorem replay_frameUnits : (frameUnits s).replay = (replayFrame (frameOpened s)).replay :=
  (frameUnits_keeps s State.replay fun _ => rfl).trans (replay_frameRotated s)

theorem score_frameUnits : (frameUnits s).score = (frameSourced s).score :=
  (frameUnits_keeps s State.score fun _ => rfl).trans
    (frameRotated_keeps s State.score (fun _ => rfl) fun _ => rfl)

theorem rot_frameUnits : (frameUnits s).rot = (frameRotated s).rot :=
  frameUnits_keeps s State.rot fun _ => rfl

theorem path_frameRotated : (frameRotated s).path = s.path :=
  (frameRotated_keeps s State.path (fun _ => rfl) fun _ => rfl).trans (path_frameSourced s)

/-- A part of the state that the mode, the replay and the score unit keep. -/
theorem frameSourced_keeps {β : Type} (view : State → β) (hmode : ∀ t, view (sansMode t) = view t)
    (hreplay : ∀ t, view (sansReplay t) = view t)
    (hscore : ∀ t c, view { t with score := c } = view t) : view (frameSourced s) = view (openFrame s) := by
  rw [frameSourced, scoreFrame_eq, hscore, ← hreplay, sansReplay_replayFrame, hreplay, ← hmode,
    frameOpened, sansMode_modeFrame, hmode]

theorem ticker_frameRotated : (frameRotated s).ticker = s.ticker :=
  (frameRotated_keeps s State.ticker (fun _ => rfl) fun _ => rfl).trans
    (frameSourced_keeps s State.ticker (fun _ => rfl) (fun _ => rfl) fun _ _ => rfl)

theorem msg_frameRotated : (frameRotated s).msg = s.msg :=
  (frameRotated_keeps s State.msg (fun _ => rfl) fun _ => rfl).trans
    (frameSourced_keeps s State.msg (fun _ => rfl) (fun _ => rfl) fun _ _ => rfl)

theorem clock_frameRotated : (frameRotated s).clock = s.clock :=
  (frameRotated_keeps s State.clock (fun _ => rfl) fun _ => rfl).trans
    (frameSourced_keeps s State.clock (fun _ => rfl) (fun _ => rfl) fun _ _ => rfl)

/-! ### The mode and its request (R179, R183) -/

theorem pendingMode_frameOpened : (frameOpened s).report.pendingMode =
    if s.comp.plan = none then s.report.pendingMode else none := by
  obtain hp | ⟨p, hp⟩ := Option.eq_none_or_eq_some s.comp.plan
  · simp [frameOpened, modeFrame, openFrame, hp]
  · obtain hm | ⟨⟨m, tag⟩, hm⟩ := Option.eq_none_or_eq_some s.report.pendingMode
    · simp [frameOpened, modeFrame, openFrame, hp, hm]
    · simp [frameOpened, modeFrame, openFrame, hp, hm, raise, raiseReport, setReport]

/-- The report unit after the units' handling, but for its mode: the pending mode. -/
theorem pendingMode_frameUnits : (frameUnits s).report.pendingMode =
    if s.comp.plan = none then s.report.pendingMode else none := by
  have hticker : (frameUnits s).report.pendingMode = (frameRotated s).report.pendingMode :=
    frameUnits_keeps s (fun t => t.report.pendingMode) fun _ => rfl
  have hrot : (frameRotated s).report.pendingMode = (frameSourced s).report.pendingMode :=
    frameRotated_keeps s (fun t => t.report.pendingMode) (fun _ => rfl) fun _ => rfl
  have hreplay : (replayFrame (frameOpened s)).report.pendingMode =
      (frameOpened s).report.pendingMode :=
    (congrArg (fun t => t.report.pendingMode) (sansReplay_replayFrame (frameOpened s)) :)
  rw [hticker, hrot, frameSourced, report_scoreFrame, hreplay, pendingMode_frameOpened]

/-- The row of another word than the one left out. -/
theorem outcomeRow_of_outcomesBut {s t : State} {w v : ReqWord} (hwv : w ≠ v)
    (h : outcomesBut w s.report.outcomes = outcomesBut w t.report.outcomes) :
    outcomeRow s v = outcomeRow t v := by
  have hcode : w.code ≠ v.code := fun hc => hwv (by cases w <;> cases v <;> cases hc <;> rfl)
  have hget : ∀ l : List OutcomeRow, l[v.code]? = (outcomesBut w l)[v.code]? := fun l => by
    rw [outcomesBut, List.getElem?_set, if_neg hcode]
  rw [outcomeRow, outcomeRow, List.getD_eq_getElem?_getD, List.getD_eq_getElem?_getD, hget, h, ← hget]

theorem showRow_frameUnits :
    outcomeRow (frameUnits s) .showWord = outcomeRow (frameOpened s) .showWord := by
  have hticker : (frameUnits s).report.outcomes = (frameRotated s).report.outcomes :=
    frameUnits_keeps s (fun t => t.report.outcomes) fun _ => rfl
  have hrot : (frameRotated s).report.outcomes = (frameSourced s).report.outcomes :=
    frameRotated_keeps s (fun t => t.report.outcomes) (fun _ => rfl) fun _ => rfl
  have hreplay : outcomesBut .replayWord (replayFrame (frameOpened s)).report.outcomes =
      outcomesBut .replayWord (frameOpened s).report.outcomes :=
    (congrArg (fun t => t.report.outcomes) (sansReplay_replayFrame (frameOpened s)) :)
  refine outcomeRow_of_outcomesBut (w := .replayWord) (by decide) ?_
  rw [hticker, hrot, frameSourced, report_scoreFrame, hreplay]

/-- What a FRAME_START raises of MODE_CHANGED is what the mode's handling raised. -/
theorem detailsOf_modeChanged : detailsOf .modeChanged (frameStart s).report.raised =
    detailsOf .modeChanged (frameOpened s).report.raised := by
  obtain ⟨l, -, hraised⟩ := raised_rotCapTest (frameAccrued s)
  have hcap : detailsOf .modeChanged (l.map fun i =>
      Report.occurrence .exposureTarget (targetDetail (frameAccrued s) i)) = [] := by
    rw [detailsOf, List.filterMap_map]
    simp
  have haccrued : (frameAccrued s).report.raised = (frameSourced s).report.raised := rfl
  rw [detailsOf_congr (by decide) (raised_frameStart s), hraised, detailsOf_append, hcap,
    List.append_nil, haccrued, detailsOf_congr (by decide) (raised_frameSourced s)]

end

/-- With no mode that takes effect the report unit is as it was (R179). -/
theorem report_frameOpened_of_none {s : State}
    (h : s.report.pendingMode = none ∨ s.comp.plan = none) : (frameOpened s).report = s.report := by
  unfold frameOpened modeFrame
  obtain hp | ⟨p, hp⟩ := Option.eq_none_or_eq_some s.comp.plan
  · simp [openFrame, hp]
  · have hm := h.resolve_right (by simp [hp])
    simp [openFrame, hp, hm]

/-- The detail of MODE_CHANGED (ch. 12.6). -/
def modeDetail (s : State) (m : Mode) (tag : Byte) : List Byte :=
  layout 16 [(0, leBytes 1 s.report.mode.code), (1, leBytes 1 m.code), (2, [tag])]

/-- A mode that takes effect: its row unmarked, MODE_CHANGED raised (R179, R183). -/
theorem frameOpened_of_some {s : State} {m : Mode} {tag : Byte} (hp : s.comp.plan ≠ none)
    (hm : s.report.pendingMode = some (m, tag)) :
    frameOpened s = raise
      (setReport (clearMarks (openFrame s) .showWord) fun r => { r with mode := m, pendingMode := none })
      .modeChanged [(0, leBytes 1 s.report.mode.code), (1, leBytes 1 m.code), (2, [tag])] := by
  obtain ⟨p, hp⟩ := Option.ne_none_iff_exists'.1 hp
  unfold frameOpened modeFrame
  simp only [openFrame, hp, hm]

theorem outcomeRow_clearMarks (s : State) (w : ReqWord) :
    outcomeRow (clearMarks s w) w =
      { latest := { (outcomeRow s w).latest with mark := false },
        previous := { (outcomeRow s w).previous with mark := false } } := by
  change (s.report.outcomes.modify w.code _).getD w.code emptyRow = _
  rw [outcomeRow, List.getD_eq_getElem?_getD, List.getD_eq_getElem?_getD, getElem?_modify_ite, if_pos rfl]
  cases s.report.outcomes[w.code]? <;> rfl

/-! ### The end of the command -/

theorem outcomeRow_settle (s : State) (w : ReqWord) : outcomeRow (settle s) w = outcomeRow s w := by
  rw [outcomeRow, outcomes_of_aside (aside_settle s)]
  rfl

theorem showRow_settle_frameStart (s : State) :
    outcomeRow (settle (frameStart s)) .showWord = outcomeRow (frameOpened s) .showWord := by
  have hplan : ∀ u w, outcomeRow (refreshDue (setPlan u) .frameStart) w = outcomeRow u w :=
    fun _ _ => rfl
  rw [outcomeRow_settle, frameStart, hplan, showRow_frameUnits]

/-- The SHOW word's outcomes and MODE_CHANGED where no mode takes effect (R179, R183). -/
theorem show_of_no_mode {s : State} (h : s.report.pendingMode = none ∨ s.comp.plan = none) :
    outcomeRow (settle (frameStart s)) .showWord = outcomeRow s .showWord ∧
    (Quiet s → ∀ x ∈ (settle (frameStart s)).report.ring, x.kind = some .modeChanged →
      x ∈ s.report.ring) := by
  have hreport := report_frameOpened_of_none h
  refine ⟨?_, fun hq x hx hk => ?_⟩
  · rw [showRow_settle_frameStart, outcomeRow, hreport]
    rfl
  · have hnone : detailsOf .modeChanged (frameStart s).report.raised = [] := by
      rw [detailsOf_modeChanged, hreport, hq.1]
      rfl
    have hring : (frameStart s).report.ring = s.report.ring := ring_frameUnits s
    exact hring ▸ mem_ring_settle hnone hx hk

/-- The SHOW word's outcomes and MODE_CHANGED where a mode takes effect (R179, R183). -/
theorem show_of_mode {s : State} {m : Mode} {tag : Byte} (hp : s.comp.plan ≠ none)
    (hm : s.report.pendingMode = some (m, tag)) :
    outcomeRow (settle (frameStart s)) .showWord =
      { latest := { (outcomeRow s .showWord).latest with mark := false },
        previous := { (outcomeRow s .showWord).previous with mark := false } } ∧
    (Quiet s → RingOk s → PlacesOk s →
      Noticed (settle (frameStart s)) .modeChanged fun d => d = modeDetail s m tag) := by
  have hopened := frameOpened_of_some hp hm
  refine ⟨?_, fun hq hring hplaces => ?_⟩
  · rw [showRow_settle_frameStart, hopened]
    exact outcomeRow_clearMarks (openFrame s) .showWord
  · have hdetails : detailsOf .modeChanged (frameStart s).report.raised = [modeDetail s m tag] := by
      have hraised : (frameOpened s).report.raised =
          s.report.raised ++ [.occurrence .modeChanged (modeDetail s m tag)] := by
        rw [hopened]
        rfl
      rw [detailsOf_modeChanged, hraised, hq.1]
      rfl
    obtain ⟨x, hx, hkind, hopen, hframe, hhouse, hdetail⟩ := noticed_settle
      (ringFits_frameStart ⟨hring, hplaces⟩) (onlyOccurrences_frameStart hq)
      (k := .modeChanged) (by rw [hdetails]; simp)
    rw [hdetails, List.mem_singleton] at hdetail
    exact ⟨x, hx, hkind, hopen, hframe, hhouse, hdetail⟩

/-! ### The refresh (R184) -/

/-- The state without what taking the reports may change. -/
def sansRing (s : State) : State :=
  { s with
    path := { s.path with issued := [] }
    report := { s.report with ring := [], produce := 0, consume := 0, raised := [], draws := 0 } }

/-- Taking what was raised changes the ring, its numbers, and issues the records' writes (R186). -/
theorem sansRing_takeRaised (s : State) : sansRing (takeRaised s) = sansRing s := by
  have htake : ∀ t r, sansRing (takeReport t r) = sansRing t := by
    intro t r
    cases r with
    | occurrence k d =>
      simp only [takeReport, takeOccurrence]
      split <;> rfl
    | consume v => rfl
  exact view_foldl _ htake _

/-- Taking what was raised issues transactions after those issued before. -/
theorem issued_takeRaised (s : State) : ∃ l, (takeRaised s).path.issued = s.path.issued ++ l := by
  have htake : ∀ t r, ∃ l, (takeReport t r).path.issued = t.path.issued ++ l := by
    intro t r
    cases r with
    | occurrence k d =>
      simp only [takeReport, takeOccurrence]
      split <;> exact ⟨_, rfl⟩
    | consume v => exact ⟨[], (List.append_nil _).symm⟩
  have hfold : ∀ (rs : List Report) t, ∃ l,
      (rs.foldl takeReport t).path.issued = t.path.issued ++ l := by
    intro rs
    induction rs with
    | nil => exact fun t => ⟨[], (List.append_nil _).symm⟩
    | cons r rs ih =>
      intro t
      obtain ⟨a, ha⟩ := htake t r
      obtain ⟨b, hb⟩ := ih (takeReport t r)
      exact ⟨a ++ b, by rw [List.foldl_cons, hb, ha, List.append_assoc]⟩
  exact hfold _ _

theorem pageWrites_eq (n addr : Nat) (page : List Byte) :
    pageWrites n addr page = (List.range n).map fun i =>
      .own ownId (addr + 256 * i) ((page.drop (256 * i)).take 256) := by
  induction n generalizing addr page with
  | zero => rfl
  | succ n ih =>
    rw [pageWrites, ih, List.range_succ_eq_map, List.map_cons, List.map_map]
    refine congrArg₂ List.cons (by simp) (List.map_congr_left fun i _ => ?_)
    simp only [Function.comp_apply, List.drop_drop, Nat.succ_eq_add_one, Nat.mul_add, Nat.mul_one]
    rw [Nat.add_assoc, Nat.add_comm 256]

theorem refreshStart_of_snapshot {s : State} {page : List Byte} (h : s.report.snapshot = some page) :
    refreshStart s = s := by
  rw [refreshStart, h]

theorem refreshStart_of_held {s : State} {cause : RefreshCause} (h : s.report.snapshot = none)
    (hh : s.report.held = some cause) : refreshStart s = startRefresh s cause := by
  rw [refreshStart, h, hh]

/-- The state with this snapshot and these transactions issued. -/
def withPage (s : State) (page : Option (List Byte)) (issued : List DownTxn) : State :=
  { s with report := { s.report with snapshot := page }, path := { s.path with issued := issued } }

/-- Neither the snapshot nor the transactions issued are on the page (R185). -/
theorem statusPage_withPage (s : State) (page : Option (List Byte)) (issued : List DownTxn)
    (cause : RefreshCause) : statusPage (withPage s page issued) cause = statusPage s cause := by
  have hheader : headerBytes (withPage s page issued) cause = headerBytes s cause := rfl
  have hmode : modeBytes (withPage s page issued) = modeBytes s := rfl
  have houtcome : outcomeBytes (withPage s page issued) = outcomeBytes s := rfl
  have hscore : scoreBytes (withPage s page issued) = scoreBytes s := rfl
  have hsponsor : sponsorBytes (withPage s page issued) = sponsorBytes s := rfl
  have hplayback : playbackBytes (withPage s page issued) = playbackBytes s := rfl
  have hmessage : messageUnitBytes (withPage s page issued) = messageUnitBytes s := rfl
  simp only [statusPage, pageBody, hheader, hmode, houtcome, hscore, hsponsor, hplayback, hmessage]
  rfl

/-- A refresh's page is the one of the state it leaves: neither its snapshot nor its writes are on it. -/
theorem startRefresh_spec (s : State) (cause : RefreshCause) :
    let t := startRefresh s cause
    t.report.refreshCount = s.report.refreshCount + 1 ∧
    t.report.snapshot = some (statusPage t cause) ∧ t.report.held = none ∧
    t.path.issued = s.path.issued ++ (List.range 256).map fun i =>
      .own 0xF0 (tableBase s + 0x80000 + 256 * i) (((statusPage t cause).drop (256 * i)).take 256) := by
  intro t
  let u := setReport s fun r => { r with refreshCount := r.refreshCount + 1, held := none }
  have hpage : statusPage t cause = statusPage u cause :=
    statusPage_withPage u (some (statusPage u cause))
      (u.path.issued ++ pageWrites 256 (statusBase u) (statusPage u cause)) cause
  have hissued : t.path.issued =
      s.path.issued ++ pageWrites 256 (tableBase s + 0x80000) (statusPage u cause) := rfl
  rw [hissued, hpage, pageWrites_eq]
  exact ⟨rfl, rfl, rfl, rfl⟩

/-- The cause of the refresh that a FRAME_START makes due (R184). -/
def frameCause (s : State) : RefreshCause :=
  if s.report.held = some .clockStop then .clockStop else .frameStart

theorem mergeCause_frameStart (s : State) : mergeCause s.report.held .frameStart = frameCause s := by
  unfold frameCause
  cases s.report.held with
  | none => rfl
  | some c => cases c <;> rfl

theorem report_frameStart (s : State) :
    (frameStart s).report.snapshot = s.report.snapshot ∧
    (frameStart s).report.refreshCount = s.report.refreshCount ∧
    (frameStart s).report.held = some (frameCause s) := by
  refine ⟨snapshot_frameUnits s, refreshCount_frameUnits s, ?_⟩
  change some (mergeCause (frameUnits s).report.held .frameStart) = _
  rw [held_frameUnits, mergeCause_frameStart]

theorem report_taken_frameStart (s : State) :
    (takeRaised (frameStart s)).report.snapshot = s.report.snapshot ∧
    (takeRaised (frameStart s)).report.refreshCount = s.report.refreshCount ∧
    (takeRaised (frameStart s)).report.held = some (frameCause s) ∧
    (takeRaised (frameStart s)).path.tbase = s.path.tbase := by
  have htaken : ∀ t : State,
      (takeRaised t).report.snapshot = t.report.snapshot ∧
      (takeRaised t).report.refreshCount = t.report.refreshCount ∧
      (takeRaised t).report.held = t.report.held ∧ (takeRaised t).path.tbase = t.path.tbase := fun t =>
    have h := sansRing_takeRaised t
    ⟨congrArg (fun u => u.report.snapshot) h, congrArg (fun u => u.report.refreshCount) h,
      congrArg (fun u => u.report.held) h, congrArg (fun u => u.path.tbase) h⟩
  obtain ⟨hsnapshot, hcount, hheld⟩ := report_frameStart s
  obtain ⟨htsnapshot, htcount, htheld, httbase⟩ := htaken (frameStart s)
  have htbase : (frameStart s).path.tbase = s.path.tbase := tbase_frameUnits s
  exact ⟨by rw [htsnapshot, hsnapshot], by rw [htcount, hcount], by rw [htheld, hheld],
    by rw [httbase, htbase]⟩

/-- The refresh at a FRAME_START, on an IDLE report unit and on one that is writing a page (R184). -/
theorem refresh_frameStart (s : State) :
    let t := settle (frameStart s)
    (s.report.snapshot = none → t.report.refreshCount = s.report.refreshCount + 1 ∧
      t.report.snapshot = some (statusPage t (frameCause s)) ∧ t.report.held = none ∧
      ∃ before, t.path.issued = before ++ (List.range 256).map fun i =>
        .own 0xF0 (tableBase s + 0x80000 + 256 * i)
          (((statusPage t (frameCause s)).drop (256 * i)).take 256)) ∧
    ∀ page, s.report.snapshot = some page → t.report.refreshCount = s.report.refreshCount ∧
      t.report.snapshot = some page ∧ t.report.held = some (frameCause s) := by
  obtain ⟨hsnapshot, hcount, hheld, htbase⟩ := report_taken_frameStart s
  unfold settle
  generalize takeRaised (frameStart s) = u at *
  refine ⟨fun hnone => ?_, fun page hpage => ?_⟩
  · rw [refreshStart_of_held (hsnapshot.trans hnone) hheld]
    obtain ⟨hc, hs, hh, hi⟩ := startRefresh_spec u (frameCause s)
    rw [tableBase, htbase] at hi
    exact ⟨by rw [hc, hcount], hs, hh, _, hi⟩
  · rw [refreshStart_of_snapshot (hsnapshot.trans hpage)]
    exact ⟨hcount, hsnapshot.trans hpage, hheld⟩

/-- What was issued at the units' handling stands before all that the command's end issues. -/
theorem issued_settle_frameStart (s : State) :
    ∃ l, (settle (frameStart s)).path.issued = (frameUnits s).path.issued ++ l := by
  obtain ⟨a, ha⟩ := issued_takeRaised (frameStart s)
  have hstart : (frameStart s).path.issued = (frameUnits s).path.issued := rfl
  unfold settle refreshStart
  split
  · exact ⟨_, (congrArg (· ++ _) (ha.trans (by rw [hstart]))).trans (List.append_assoc _ _ _)⟩
  · exact ⟨a, ha.trans (by rw [hstart])⟩

end Sys2Proof.FrameProofs
end

section
/-! The plan of a frame, its lock set, and what a frame in PASS empties (R2, R5, R6, R18, R58, R86, R107,
R133, R155). -/

namespace Sys2Proof.FrameProofs
open Sys2Proof.Machine

/-! ### Layers of the plan (R5, R6) -/

theorem creativeOk_iff (d : Descriptor) : CreativeOk d ↔ d.inRange = true := by
  simp [CreativeOk, Descriptor.inRange, and_assoc]

/-- What every layer of a plan holds, drawn or not (R2, R8). -/
theorem planLayer_fields (s : State) (l : Nat) :
    let x := planLayer s l
    x.rank = layerRank s.path.shadow l ∧ x.x = layerX s.path.shadow l ∧ x.y = layerY s.path.shadow l ∧
    x.w = layerW s.path.shadow l ∧ x.h = layerH s.path.shadow l ∧
    (x.drawn = false → x.content = .nothing ∧ x.sponsor = .nobody ∧
      x.opacity = idleOpacity s.path.shadow l) := by
  unfold planLayer
  dsimp only
  split
  · split
    · split
      · exact ⟨rfl, rfl, rfl, rfl, rfl, nofun⟩
      · exact ⟨rfl, rfl, rfl, rfl, rfl, fun _ => ⟨rfl, rfl, rfl⟩⟩
    · exact ⟨rfl, rfl, rfl, rfl, rfl, fun _ => ⟨rfl, rfl, rfl⟩⟩
  · exact ⟨rfl, rfl, rfl, rfl, rfl, fun _ => ⟨rfl, rfl, rfl⟩⟩

/-- A layer is drawn in LIVE where it is enabled and its owner hands over a source in range (R5). -/
theorem planLayer_drawn_iff {s : State} {l : Nat} (hm : s.report.mode = .live) :
    (planLayer s l).drawn = true ↔
      layerEnable s.path.shadow l = true ∧ ∃ x, handed s l = some x ∧ x.content.inRange = true := by
  unfold planLayer
  dsimp only
  by_cases he : layerEnable s.path.shadow l = true
  · rw [if_pos ⟨hm, he⟩]
    cases handed s l with
    | none => simp
    | some x => by_cases hx : x.content.inRange = true <;> simp [he, hx]
  · rw [if_neg fun h => he h.2]
    simp [he]

/-- A drawn layer holds what its owner handed over (R6). -/
theorem planLayer_of_drawn {s : State} {l : Nat} {x : Handed} (hd : (planLayer s l).drawn = true)
    (hx : handed s l = some x) : (planLayer s l).content = x.content ∧
      (planLayer s l).opacity = x.opacity ∧ (planLayer s l).sponsor = x.sponsor := by
  unfold planLayer at hd ⊢
  dsimp only at hd ⊢
  rw [hx] at hd ⊢
  dsimp only at hd ⊢
  split at hd
  · next h =>
    rw [if_pos h]
    split at hd
    · next hr =>
      rw [if_pos hr]
      exact ⟨rfl, rfl, rfl⟩
    · cases hd
  · cases hd

theorem planLayer_not_drawn_of_pass {s : State} (hm : s.report.mode = .pass) (l : Nat) :
    (planLayer s l).drawn = false := by
  unfold planLayer
  rw [if_neg (by simp [hm])]

theorem handed_of_lt {s : State} {l : Nat} (h : l < 4) : handed s l = handSponsor s l := by
  match l, h with
  | 0, _ | 1, _ | 2, _ | 3, _ => rfl

theorem isSlot_iff (src : Source) : src.isSlot = true ↔ ∃ k, src = .slot k := by
  cases src <;> simp [Source.isSlot]

/-- The sponsor a placement's entry names in the plan (R6). -/
def namedBy (e : StackEntry) : Named :=
  match e.sponsor with
  | some i => .sponsor i
  | none => .fallback

/-- What a placement whose top entry is `e` hands over (R6). -/
def namedEntry (s : State) (l : Nat) (e : StackEntry) : Handed :=
  { content := .creative e.creative, opacity := layerOpacity s.path.shadow l, sponsor := namedBy e }

/-- A placement hands over its top entry, on a bound placement only over a slot (R5, R6). -/
theorem handSponsor_eq_some {s : State} {l : Nat} {x : Handed} :
    handSponsor s l = some x ↔
      ((placementAt s l).fields.bound = true → ∃ k, programSource s = .slot k) ∧
      ∃ e, (placementAt s l).stack.getLast? = some e ∧ x = namedEntry s l e := by
  unfold handSponsor topEntry
  cases (placementAt s l).stack.getLast? with
  | none => simp
  | some e =>
    rw [← isSlot_iff]
    change (if _ then none else some (namedEntry s l e)) = some x ↔ _ ∧ ∃ e', some e = some e' ∧
      x = namedEntry s l e'
    cases (placementAt s l).fields.bound <;> cases (programSource s).isSlot <;>
      simp [@eq_comm _ x]

/-- A sponsor layer of a LIVE plan (R5, R6). -/
theorem planLayer_sponsor {s : State} {l : Nat} (hm : s.report.mode = .live) (hl : l < 4) :
    ((planLayer s l).drawn = true ↔ layerEnable s.path.shadow l = true ∧
      ((placementAt s l).fields.bound = true → ∃ k, programSource s = .slot k) ∧
      ∃ e, (placementAt s l).stack.getLast? = some e ∧ CreativeOk e.creative) ∧
    ∀ e, (planLayer s l).drawn = true → (placementAt s l).stack.getLast? = some e →
      (planLayer s l).content = .creative e.creative ∧
      (planLayer s l).opacity = layerOpacity s.path.shadow l ∧
      (planLayer s l).sponsor = namedBy e := by
  have hiff : (planLayer s l).drawn = true ↔ layerEnable s.path.shadow l = true ∧
      ((placementAt s l).fields.bound = true → ∃ k, programSource s = .slot k) ∧
      ∃ e, (placementAt s l).stack.getLast? = some e ∧ CreativeOk e.creative := by
    rw [planLayer_drawn_iff hm, handed_of_lt hl]
    simp only [handSponsor_eq_some, creativeOk_iff]
    constructor
    · rintro ⟨hon, x, ⟨hb, e, he, rfl⟩, hr⟩
      exact ⟨hon, hb, e, he, hr⟩
    · rintro ⟨hon, hb, e, he, hr⟩
      exact ⟨hon, _, ⟨hb, e, he, rfl⟩, hr⟩
  refine ⟨hiff, fun e hd he => planLayer_of_drawn (x := namedEntry s l e) hd ?_⟩
  rw [handed_of_lt hl, handSponsor_eq_some]
  exact ⟨(hiff.1 hd).2.1, e, he, rfl⟩

/-- The BUG layer of a LIVE plan (R5, R6). -/
theorem planLayer_bug {s : State} (hm : s.report.mode = .live) :
    ((planLayer s 4).drawn = true ↔
      layerEnable s.path.shadow 4 = true ∧ CreativeOk (bugPlate s.path.shadow)) ∧
    ((planLayer s 4).drawn = true →
      (planLayer s 4).content =
        .bug (bugPlate s.path.shadow) (bugAtlas s.path.shadow) s.score.fields ∧
      (planLayer s 4).opacity = layerOpacity s.path.shadow 4 ∧ (planLayer s 4).sponsor = .nobody) := by
  refine ⟨?_, fun hd => planLayer_of_drawn (l := 4) hd rfl⟩
  rw [planLayer_drawn_iff hm, creativeOk_iff]
  refine and_congr_right fun _ => ⟨?_, fun h => ⟨_, rfl, h⟩⟩
  rintro ⟨x, hx, hr⟩
  cases hx
  exact hr

/-- The TICKER layer of a LIVE plan (R5, R6, R162). -/
theorem planLayer_ticker {s : State} (hm : s.report.mode = .live) :
    ((planLayer s 5).drawn = true ↔ layerEnable s.path.shadow 5 = true ∧
      (s.ticker.state = .running ∨ s.ticker.state = .paused)) ∧
    ((planLayer s 5).drawn = true →
      (planLayer s 5).content =
        .ticker (plateColour s.path.shadow) (glyphRow s.path.shadow) (tickerAtlas s.path.shadow)
          (s.ticker.band.map fun e => { codes := e.text, x := e.x }) ∧
      (planLayer s 5).opacity = layerOpacity s.path.shadow 5 ∧ (planLayer s 5).sponsor = .nobody) := by
  have hband : bandDrawn s = true ↔ s.ticker.state = .running ∨ s.ticker.state = .paused := by
    simp [bandDrawn]
  have hiff : (planLayer s 5).drawn = true ↔ layerEnable s.path.shadow 5 = true ∧
      (s.ticker.state = .running ∨ s.ticker.state = .paused) := by
    rw [planLayer_drawn_iff hm, ← hband]
    refine and_congr_right fun _ => ?_
    change (∃ x, handTicker s = some x ∧ _) ↔ _
    unfold handTicker
    cases bandDrawn s <;> simp [Content.inRange]
  refine ⟨hiff, fun hd => ?_⟩
  have hx : handed s 5 = some
      { content := .ticker (plateColour s.path.shadow) (glyphRow s.path.shadow)
          (tickerAtlas s.path.shadow) (s.ticker.band.map fun e => { codes := e.text, x := e.x }),
        opacity := layerOpacity s.path.shadow tickerLayer, sponsor := .nobody } :=
    if_pos (hband.2 (hiff.1 hd).2)
  exact planLayer_of_drawn hd hx

/-- The FLASH layer of a LIVE plan (R6, R7). -/
theorem planLayer_flash {s : State} (hm : s.report.mode = .live) :
    ((planLayer s 6).drawn = true ↔ layerEnable s.path.shadow 6 = true ∧
      ∃ f, s.score.flash = some f ∧ CreativeOk f.creative) ∧
    ∀ f, (planLayer s 6).drawn = true → s.score.flash = some f →
      (planLayer s 6).content = .creative f.creative ∧
      (planLayer s 6).opacity = layerOpacity s.path.shadow 6 ∧ (planLayer s 6).sponsor = .nobody := by
  have hhanded : ∀ f, s.score.flash = some f → handed s 6 = some
      { content := .creative f.creative, opacity := layerOpacity s.path.shadow 6,
        sponsor := .nobody } := fun f hf => by
    change handFlash s = _
    rw [handFlash, hf]
    rfl
  refine ⟨?_, fun f hd hf => planLayer_of_drawn hd (hhanded f hf)⟩
  rw [planLayer_drawn_iff hm]
  refine and_congr_right fun _ => ?_
  cases hf : s.score.flash with
  | none =>
    have hnone : handed s 6 = none := by
      change handFlash s = _
      rw [handFlash, hf]
      rfl
    simp [hnone]
  | some f =>
    rw [hhanded f hf]
    simp [creativeOk_iff, Content.inRange]

/-- The TRANSITION layer of a LIVE plan (R6, R8). -/
theorem planLayer_bumper {s : State} (hm : s.report.mode = .live) :
    ((planLayer s 7).drawn = true ↔ layerEnable s.path.shadow 7 = true ∧
      ∃ i b d, runningBumper s = some (i, b, d) ∧ CreativeOk d) ∧
    ((planLayer s 7).drawn = false → (planLayer s 7).opacity = 0) ∧
    ∀ i b d, (planLayer s 7).drawn = true → runningBumper s = some (i, b, d) →
      (planLayer s 7).content = .creative d ∧ (planLayer s 7).opacity = bumperFade i b ∧
      (planLayer s 7).sponsor = .nobody := by
  have hhanded : ∀ i b d, runningBumper s = some (i, b, d) → handed s 7 = some
      { content := .creative d, opacity := bumperFade i b, sponsor := .nobody } := fun i b d h => by
    change handBumper s = _
    rw [handBumper, h]
    rfl
  refine ⟨?_, fun hd => ?_, fun i b d hd h => planLayer_of_drawn hd (hhanded i b d h)⟩
  · rw [planLayer_drawn_iff hm]
    refine and_congr_right fun _ => ?_
    cases hb : runningBumper s with
    | none =>
      have hnone : handed s 7 = none := by
        change handBumper s = _
        rw [handBumper, hb]
        rfl
      simp [hnone]
    | some x =>
      obtain ⟨i, b, d⟩ := x
      rw [hhanded i b d hb]
      simp [creativeOk_iff, Content.inRange]
  · obtain ⟨-, -, -, -, -, hidle⟩ := planLayer_fields s 7
    rw [(hidle hd).2.2]
    rfl

/-- The layers of a plan by number. -/
theorem getElem?_buildPlan {s : State} {l : Nat} {x : PlanLayer}
    (h : (buildPlan s).layers[l]? = some x) : l < 8 ∧ x = planLayer s l := by
  rw [buildPlan, List.getElem?_map] at h
  obtain ⟨i, hi, rfl⟩ := Option.map_eq_some_iff.1 h
  obtain ⟨hl, rfl⟩ := List.getElem?_eq_some_iff.1 hi
  rw [List.length_range] at hl
  exact ⟨hl, by rw [List.getElem_range]⟩

/-! ### The lock set (R18) -/

/-- A creative's span has a byte in a sector where a byte of it lies in both (R18). -/
theorem inSector_creativeSpan (g : Geometry) (j addr stride w h : Nat) :
    Span.inSector g j (creativeSpan addr stride w h) = true ↔
      ∃ a, inSector g j a = true ∧ occupies addr stride w h a := by
  simp only [Span.inSector, inSector, inRange, occupies, Bool.and_eq_true, decide_eq_true_eq,
    Nat.add_mul, Nat.one_mul]
  dsimp only [creativeSpan]
  constructor
  · rintro ⟨⟨⟨hfirst, hstop⟩, hspan⟩, hsize⟩
    rcases Nat.le_total addr (g.assetBase + j * g.sectorSize) with hle | hle
    · exact ⟨g.assetBase + j * g.sectorSize, ⟨le_rfl, by omega⟩, hle, hstop⟩
    · exact ⟨addr, ⟨hle, by omega⟩, le_rfl, hspan⟩
  · rintro ⟨a, ⟨hfrom, hto⟩, hleft, hright⟩
    exact ⟨⟨⟨by omega, by omega⟩, by omega⟩, by omega⟩

theorem usable_iff (a : Atlas) : a.usable = true ↔ a.stride % 16 = 0 ∧ 64 * a.cw ≤ a.stride := by
  simp [Atlas.usable]

/-- The spans of a content are those of its creative or its plate (R18). -/
theorem mem_contentSpans {c : Content} {x : Span} :
    x ∈ contentSpans c ↔
      (∃ d, c = .creative d ∧ x = creativeSpan d.addr d.stride d.width d.height) ∨
      ∃ d atlas fields, c = .bug d atlas fields ∧
        x = creativeSpan d.addr d.stride d.width d.height := by
  cases c <;> simp [contentSpans]

/-- Whatever locks a sector of a LIVE plan is a drawn layer's creative or plate, or a usable atlas. -/
theorem mem_lockingSpans {m : Memory} {p : Plan} {x : Span} (hp : p.mode = .live) :
    x ∈ lockingSpans m p ↔
      (∃ l ∈ p.layers, l.drawn = true ∧
        ((∃ d, l.content = .creative d ∧ x = creativeSpan d.addr d.stride d.width d.height) ∨
          ∃ d atlas fields, l.content = .bug d atlas fields ∧
            x = creativeSpan d.addr d.stride d.width d.height)) ∨
      ∃ a, (a = bugAtlas m ∨ a = tickerAtlas m) ∧ a.stride % 16 = 0 ∧ 64 * a.cw ≤ a.stride ∧
        x = creativeSpan a.addr a.stride (16 * a.cw) (8 * a.ch) := by
  simp only [lockingSpans, hp, List.mem_append, List.mem_flatMap, List.mem_filter, List.mem_map,
    mem_contentSpans, usable_iff, List.mem_cons, List.not_mem_nil, or_false, and_assoc, atlasSpan,
    @eq_comm _ _ x]

/-- The lock set of a LIVE plan: sector 0 and every sector with a byte of what the plan shows (R18). -/
theorem mem_lockSet {m : Memory} {g : Geometry} {p : Plan} (hp : p.mode = .live) (j : Nat) :
    j ∈ lockSet m g p ↔ j < 16 ∧ (j = 0 ∨ ∃ a, inSector g j a = true ∧
      ((∃ x ∈ p.layers, x.drawn = true ∧
        ((∃ d, x.content = .creative d ∧ occupies d.addr d.stride d.width d.height a) ∨
          ∃ d atlas fields, x.content = .bug d atlas fields ∧
            occupies d.addr d.stride d.width d.height a)) ∨
      ∃ x, (x = bugAtlas m ∨ x = tickerAtlas m) ∧ x.stride % 16 = 0 ∧ 64 * x.cw ≤ x.stride ∧
        occupies x.addr x.stride (16 * x.cw) (8 * x.ch) a)) := by
  simp only [lockSet, List.mem_filter, List.mem_range, Bool.or_eq_true, Bool.and_eq_true, beq_iff_eq,
    hp, true_and, List.any_eq_true, mem_lockingSpans hp]
  refine and_congr_right fun _ => or_congr_right ⟨?_, ?_⟩
  · rintro ⟨x, hx, hsector⟩
    rcases hx with ⟨l, hl, hd, ⟨d, hc, rfl⟩ | ⟨d, atlas, fields, hc, rfl⟩⟩ | ⟨at', hat, hs, hcw, rfl⟩ <;>
      obtain ⟨a, hin, ha⟩ := (inSector_creativeSpan _ _ _ _ _ _).1 hsector
    · exact ⟨a, hin, .inl ⟨l, hl, hd, .inl ⟨d, hc, ha⟩⟩⟩
    · exact ⟨a, hin, .inl ⟨l, hl, hd, .inr ⟨d, atlas, fields, hc, ha⟩⟩⟩
    · exact ⟨a, hin, .inr ⟨at', hat, hs, hcw, ha⟩⟩
  · rintro ⟨a, hin, hx⟩
    rcases hx with ⟨l, hl, hd, ⟨d, hc, ha⟩ | ⟨d, atlas, fields, hc, ha⟩⟩ | ⟨at', hat, hs, hcw, ha⟩
    · exact ⟨_, .inl ⟨l, hl, hd, .inl ⟨d, hc, rfl⟩⟩, (inSector_creativeSpan ..).2 ⟨a, hin, ha⟩⟩
    · exact ⟨_, .inl ⟨l, hl, hd, .inr ⟨d, atlas, fields, hc, rfl⟩⟩,
        (inSector_creativeSpan ..).2 ⟨a, hin, ha⟩⟩
    · exact ⟨_, .inr ⟨at', hat, hs, hcw, rfl⟩, (inSector_creativeSpan ..).2 ⟨a, hin, ha⟩⟩

/-- A plan in PASS locks nothing (R18). -/
theorem lockSet_of_pass {s : State} (hm : s.report.mode = .pass) (m : Memory) (g : Geometry) :
    lockSet m g (buildPlan s) = [] := by
  have hspans : lockingSpans m (buildPlan s) = [] := by
    have hlayers : (buildPlan s).layers.filter (fun l => l.drawn) = [] := by
      rw [List.filter_eq_nil_iff]
      intro x hx
      obtain ⟨l, -, rfl⟩ := List.mem_map.1 hx
      simp [planLayer_not_drawn_of_pass hm l]
    have hmode : (buildPlan s).mode = .pass := hm
    rw [lockingSpans, hlayers, hmode]
    rfl
  have hmode : (buildPlan s).mode = .pass := hm
  rw [lockSet, hspans, hmode]
  exact List.filter_eq_nil_iff.2 fun j _ => by simp

/-! ### A frame in PASS -/

/-- Step 3 in PASS leaves every stack and pending set empty (R58). -/
theorem placementAt_rotEmptyAll (s : State) {q : Nat} (hq : q < 4) :
    (placementAt (rotEmptyAll s) q).stack = [] ∧ (placementAt (rotEmptyAll s) q).spots = [] := by
  have hfold : ∀ (l : List Nat) (t : State),
      (q ∈ l ∨ ((placementAt t q).stack = [] ∧ (placementAt t q).spots = [])) →
      (placementAt (l.foldl (fun t p => takeFields (emptyPlacement t p) p) t) q).stack = [] ∧
      (placementAt (l.foldl (fun t p => takeFields (emptyPlacement t p) p) t) q).spots = [] := by
    intro l
    induction l with
    | nil => exact fun t h => h.resolve_left List.not_mem_nil
    | cons p l ih =>
      intro t h
      refine ih _ ?_
      have hat : placementAt (takeFields (emptyPlacement t p) p) q =
          if p = q then
            (t.rot.placements[q]?.map fun x =>
              { x with stack := [], spots := [],
                       fields := readPlacement t.path.shadow p }).getD .reset
          else placementAt t q := by
        change ((t.rot.placements.modify p _).modify p _).getD q .reset = _
        rw [List.getD_eq_getElem?_getD, getElem?_modify_ite, getElem?_modify_ite]
        split
        · rw [Option.map_map]
          rfl
        · rw [placementAt, List.getD_eq_getElem?_getD]
      rw [hat]
      by_cases hp : p = q
      · right
        rw [if_pos hp]
        cases t.rot.placements[q]? <;> exact ⟨rfl, rfl⟩
      · rw [if_neg hp]
        exact h.imp_left fun h => (List.mem_cons.1 h).resolve_left fun he => hp he.symm
  refine hfold placementList s (.inl ?_)
  simp only [placementList, List.mem_cons, List.not_mem_nil, or_false]
  omega

theorem replay_dropWaiting (s : State) :
    (dropWaiting s).replay = { s.replay with waiting := none } := by
  unfold dropWaiting
  split
  · next h =>
    rw [supersedeWaiting, h]
    rfl
  · rfl
  · next h => rw [← h]

/-- The return to the live program leaves what waits and the capture as they were (R107). -/
theorem replay_returnLive (s : State) :
    (returnLive s).replay.playback = .live ∧ (returnLive s).replay.waiting = s.replay.waiting ∧
    (returnLive s).replay.cutPending = s.replay.cutPending ∧
    (returnLive s).replay.captureSeq = s.replay.captureSeq := by
  unfold returnLive
  split <;> exact ⟨rfl, rfl, rfl, rfl⟩

/-- Abandoning the slot that fills leaves the playback as it was (R107). -/
theorem replay_abandonFilling (s : State) :
    (abandonFilling s).replay.fill = none ∧
    (abandonFilling s).replay.playback = s.replay.playback ∧
    (abandonFilling s).replay.waiting = s.replay.waiting ∧
    (abandonFilling s).replay.cutPending = s.replay.cutPending ∧
    (abandonFilling s).replay.captureSeq = s.replay.captureSeq := by
  unfold abandonFilling
  split
  · exact ⟨rfl, rfl, rfl, rfl, rfl⟩
  · next h => exact ⟨h, rfl, rfl, rfl, rfl⟩

/-- The replay unit in a PASS frame: live, nothing waiting, no slot filling (R107, R133). -/
theorem replayPass_spec (s : State) :
    let r := (replayPass s).replay
    r.playback = .live ∧ r.waiting = none ∧ r.cutPending = false ∧ r.fill = none ∧
      r.captureSeq = s.replay.captureSeq := by
  have hdropped := replay_dropWaiting (setReplay s fun r => { r with cutPending := false })
  unfold replayPass
  dsimp only
  generalize dropWaiting (setReplay s fun r => { r with cutPending := false }) = t at *
  obtain ⟨hwaiting, hcut, hseq⟩ : t.replay.waiting = none ∧ t.replay.cutPending = false ∧
      t.replay.captureSeq = s.replay.captureSeq := by
    rw [hdropped]
    exact ⟨rfl, rfl, rfl⟩
  split
  · next hlive =>
    obtain ⟨hf, hp, hw, hc, hs⟩ := replay_abandonFilling t
    exact ⟨hp.trans hlive, hw.trans hwaiting, hc.trans hcut, hf, hs.trans hseq⟩
  · obtain ⟨hf, hp, hw, hc, hs⟩ := replay_abandonFilling (returnLive t)
    obtain ⟨hp', hw', hc', hs'⟩ := replay_returnLive t
    exact ⟨hp.trans hp', hw.trans (hw'.trans hwaiting), hc.trans (hc'.trans hcut), hf,
      hs.trans (hs'.trans hseq)⟩

/-- Marking what is shown changes the last shown sequence alone (R122). -/
theorem replay_markShown (s : State) : ∃ n, (markShown s).replay = { s.replay with lastShown := n } := by
  unfold markShown
  split
  · exact ⟨_, rfl⟩
  · exact ⟨s.replay.lastShown, rfl⟩

theorem replayFrame_of_pass {s : State} (hm : s.report.mode = .pass) :
    let r := (replayFrame s).replay
    r.playback = .live ∧ r.waiting = none ∧ r.cutPending = false ∧ r.fill = none ∧
      r.captureSeq = s.replay.captureSeq := by
  have hframe : replayFrame s = markShown (replayPass s) := by
    unfold replayFrame
    rw [hm]
  obtain ⟨n, hn⟩ := replay_markShown (replayPass s)
  rw [hframe, hn]
  exact replayPass_spec s

end Sys2Proof.FrameProofs
end

section
/-! The band of a LIVE frame: suppressed, let go, scrolled, started, entered (R154 to R160). -/

namespace Sys2Proof.FrameProofs
open Sys2Proof.Machine

/-! ### What is left of the band, and whether the queue head finds room -/

/-- The entries that no withdrawal names (R159). -/
def unwithdrawn (k : TickerUnit) (band : List BandEntry) : List BandEntry :=
  band.filter fun e => !(k.withdrawals.contains e.id)

/-- The band list moved left by the speed (R158). -/
def movedBand (m : Memory) (k : TickerUnit) : List BandEntry :=
  k.band.map fun e => { e with x := e.x - (bandSpeed m : Int) }

/-- The entry has a column right of the left edge (R158). -/
def staysOn (e : BandEntry) : Bool := decide (0 < e.x + (e.width : Int))

/-- The band list has room for one more entry (R160). -/
def Room (m : Memory) (band : List BandEntry) : Prop :=
  band.length < 8 ∧
    ∀ e, band.getLast? = some e → e.x + (e.width : Int) + (bandGap m : Int) ≤ ((layerW m 5 : Nat) : Int)

/-- The entry a message becomes at the right edge (R160). -/
def enteredAt (m : Memory) (x : Message) : BandEntry :=
  { id := x.id, text := x.text, width := (tickerAtlas m).textWidth x.text, x := ((layerW m 5 : Nat) : Int) }

/-- The start test's condition (R157). -/
def StartDue (s : State) : Prop :=
  startLevel s.path.shadow ≤ s.msg.queue.length ∨
    ∃ x ∈ s.msg.queue, startDelay s.path.shadow * 1000 ≤ (s.clock.house - x.queued).toNat

/-- The fetch start test's condition once a head has left, `rest` waiting (R137). -/
abbrev FetchDue (s : State) (rest : List Message) : Prop :=
  s.msg.fetch = none ∧ 0 < outstanding s ∧ rest.length < 32

theorem waitedEnough_iff (s : State) : waitedEnough s = true ↔
    ∃ x ∈ s.msg.queue, startDelay s.path.shadow * 1000 ≤ (s.clock.house - x.queued).toNat := by
  simp [waitedEnough]

theorem canFetch_iff (s : State) : canFetch s = true ↔ FetchDue s s.msg.queue := by
  simp [canFetch, FetchDue, and_assoc]

theorem gone_eq : BandEntry.gone = fun e => !staysOn e := by
  funext e
  simp only [BandEntry.gone, staysOn, ← decide_not, not_lt]

theorem not_gone_eq : (fun e : BandEntry => !e.gone) = staysOn := by
  simp only [gone_eq, Bool.not_not]

/-! ### A departure from the queue (R137, R143, R145) -/

theorem releaseTest_eq (s : State) : releaseTest s =
    { s with msg := { s.msg with
      hold := if s.msg.queue.length ≤ lowMark s.path.shadow then false else s.msg.hold } } := by
  unfold releaseTest
  split <;> rfl

theorem fetchStart_of_due {s : State} (h : FetchDue s s.msg.queue) : fetchStart s =
    issue (setMsg s fun m => { m with fetch := some m.head })
      (.burst (.read (recordFetch s s.msg.head))) := by
  rw [fetchStart, if_pos ((canFetch_iff s).2 h)]

theorem fetchStart_of_not_due {s : State} (h : ¬FetchDue s s.msg.queue) : fetchStart s = s := by
  rw [fetchStart, if_neg fun hc => h ((canFetch_iff s).1 hc)]

/-- What a departure makes of the message unit, and the fetch it issues. -/
theorem departed_spec (s : State) :
    (departed s).ticker = s.ticker ∧
    (departed s).msg = { s.msg with
      hold := if s.msg.queue.length ≤ lowMark s.path.shadow then false else s.msg.hold,
      fetch := if FetchDue s s.msg.queue then some s.msg.head else s.msg.fetch } ∧
    (FetchDue s s.msg.queue → (departed s).path.issued =
      s.path.issued ++ [.burst (.read (recordFetch s s.msg.head))]) := by
  have hdeparted : departed s = fetchStart { s with msg := { s.msg with
      hold := if s.msg.queue.length ≤ lowMark s.path.shadow then false else s.msg.hold } } :=
    congrArg fetchStart (releaseTest_eq s)
  by_cases h : FetchDue s s.msg.queue
  · rw [hdeparted, fetchStart_of_due (by exact h), if_pos h]
    exact ⟨rfl, rfl, fun _ => rfl⟩
  · rw [hdeparted, fetchStart_of_not_due (by exact h), if_neg h]
    exact ⟨rfl, rfl, fun hd => absurd hd h⟩

/-! ### The entry of the queue head (R160) -/

/-- The state with this band running, `shown` entries shown so far. -/
def withRunning (s : State) (band : List BandEntry) (shown : BitVec 32) : State :=
  setTicker s fun _ =>
    { state := .running, prior := none, band := band, withdrawals := [], shown := shown }

theorem mayEnter_iff (s : State) : mayEnter s = true ↔ Room s.path.shadow s.ticker.band := by
  unfold mayEnter bandRight Room
  cases s.ticker.band.getLast? with
  | none => simp
  | some e =>
    simp only [Option.map_some, Option.some.injEq, forall_eq', Bool.and_eq_true, decide_eq_true_eq]
    rfl

/-- Where there is room the entry stands at the right edge. -/
theorem bandEntry_of_room {s : State} (h : Room s.path.shadow s.ticker.band) (x : Message) :
    bandEntry s x = enteredAt s.path.shadow x := by
  obtain ⟨-, hright⟩ := h
  have hx : max (bandWidth s : Int) ((bandRight s).getD (bandWidth s : Int)) = bandWidth s := by
    unfold bandRight
    cases hlast : s.ticker.band.getLast? with
    | none => exact max_self _
    | some e => exact max_eq_left (hright e hlast)
  rw [bandEntry, hx]
  rfl

/-- The band that runs with `band` on it once the queue head has had its chance to enter: `gone` entries
have left at the left edge (R157, R160). -/
def BandRuns (s t : State) (band : List BandEntry) (gone : Nat) : Prop :=
  t.ticker.prior = none ∧ t.ticker.withdrawals = [] ∧
  t.ticker.shown = s.ticker.shown + BitVec.ofNat 32 gone ∧
  (∀ x rest, s.msg.queue = x :: rest → Room s.path.shadow band →
    t.ticker.band = band ++ [enteredAt s.path.shadow x] ∧ t.ticker.state = .running ∧
    (FetchDue s rest → ∃ after, t.path.issued =
      s.path.issued ++ .burst (.read (recordFetch s s.msg.head)) :: after) ∧
    t.msg = { s.msg with
      queue := rest,
      hold := if rest.length ≤ lowMark s.path.shadow then false else s.msg.hold,
      fetch := if FetchDue s rest then some s.msg.head else s.msg.fetch }) ∧
  ((s.msg.queue = [] ∨ ¬Room s.path.shadow band) → t.ticker.band = band ∧ t.msg = s.msg ∧
    t.ticker.state = if band = [] ∧ s.msg.queue = [] then .hidden else .running)

/-- On a running band the queue head enters where there is room. -/
theorem bandEnter_of_room {s : State} {x : Message} {rest : List Message}
    (hrun : s.ticker.state = .running) (hq : s.msg.queue = x :: rest)
    (hroom : Room s.path.shadow s.ticker.band) :
    bandEnter s = departed (setMsg (setTicker s fun t =>
      { t with band := t.band ++ [enteredAt s.path.shadow x] }) fun q => { q with queue := rest }) := by
  have henter : enterHead s x rest = departed (setMsg (setTicker s fun t =>
      { t with band := t.band ++ [enteredAt s.path.shadow x] }) fun q => { q with queue := rest }) := by
    rw [enterHead, bandEntry_of_room hroom]
  have hband : (enterHead s x rest).ticker.band = s.ticker.band ++ [enteredAt s.path.shadow x] := by
    rw [henter, (departed_spec _).1]
    rfl
  rw [bandEnter, if_pos hrun, hq]
  dsimp only
  rw [if_pos ((mayEnter_iff s).2 hroom), if_neg (by simp [hband]), henter]

/-- On a running band where no head enters the state is RUNNING still, or HIDDEN with nothing left. -/
theorem bandEnter_of_no_room {s : State} (hrun : s.ticker.state = .running)
    (h : s.msg.queue = [] ∨ ¬Room s.path.shadow s.ticker.band) :
    bandEnter s = setTicker s fun t =>
      { t with state := if s.ticker.band = [] ∧ s.msg.queue = [] then .hidden else .running } := by
  have hstays : bandEnter s = if (s.ticker.band.isEmpty && s.msg.queue.isEmpty) = true then
      setTicker s fun t => { t with state := .hidden } else s := by
    unfold bandEnter
    rw [if_pos hrun]
    split
    · rfl
    · next hq =>
      have hroom := h.resolve_left (by simp [hq])
      rw [if_neg fun hm => hroom ((mayEnter_iff s).1 hm)]
  have hempty : (s.ticker.band.isEmpty && s.msg.queue.isEmpty) = true ↔
      s.ticker.band = [] ∧ s.msg.queue = [] := by simp
  rw [hstays]
  by_cases he : s.ticker.band = [] ∧ s.msg.queue = []
  · rw [if_pos (hempty.2 he), if_pos he]
  · rw [if_neg fun hb => he (hempty.1 hb), if_neg he, ← hrun]
    rfl

theorem bandRuns_bandEnter (s : State) (band : List BandEntry) (gone : Nat) :
    BandRuns s (bandEnter (withRunning s band (s.ticker.shown + BitVec.ofNat 32 gone))) band gone := by
  let u := withRunning s band (s.ticker.shown + BitVec.ofNat 32 gone)
  by_cases henters : s.msg.queue = [] ∨ ¬Room s.path.shadow band
  · have heq := bandEnter_of_no_room (s := u) rfl henters
    refine heq ▸ ⟨rfl, rfl, rfl, fun x rest hq hroom => ?_, fun _ => ⟨rfl, rfl, rfl⟩⟩
    exact absurd henters (by simp [hq, hroom])
  · obtain ⟨hne, hroom⟩ := not_or.1 henters
    obtain ⟨x, rest, hq⟩ := List.exists_cons_of_ne_nil hne
    have hroom := not_not.1 hroom
    have heq := bandEnter_of_room (s := u) rfl hq hroom
    obtain ⟨hticker, hmsg, hissued⟩ := departed_spec (setMsg (setTicker u fun t =>
      { t with band := t.band ++ [enteredAt u.path.shadow x] }) fun q => { q with queue := rest })
    rw [← heq] at hticker hmsg hissued
    refine ⟨by rw [hticker]; rfl, by rw [hticker]; rfl, by rw [hticker]; rfl, ?_,
      fun hn => absurd hn henters⟩
    intro x' rest' hq' _
    obtain ⟨rfl, rfl⟩ := List.cons.inj (hq.symm.trans hq')
    exact ⟨by rw [hticker]; rfl, by rw [hticker]; rfl, fun hf => ⟨[], hissued hf⟩, hmsg⟩

/-- The band's run is read off the ticker and message units and what was issued first. -/
theorem BandRuns.congr {s v t u : State} {band : List BandEntry} {gone : Nat}
    (h : BandRuns v u band gone) (hticker : v.ticker = s.ticker) (hmsg : v.msg = s.msg)
    (hpath : v.path = s.path) (hut : t.ticker = u.ticker) (hum : t.msg = u.msg)
    (hissued : ∃ l, t.path.issued = u.path.issued ++ l) : BandRuns s t band gone := by
  obtain ⟨hprior, hwith, hshown, henter, hstay⟩ := h
  obtain ⟨l, hl⟩ := hissued
  have hout : outstanding v = outstanding s := by rw [outstanding, outstanding, hmsg]
  have hfetch : recordFetch v = recordFetch s := by
    funext r
    rw [recordFetch, recordFetch, recordAddr, recordAddr, tableBase, tableBase, hpath]
  simp only [FetchDue, hmsg, hpath, hout, hfetch] at henter hstay
  rw [hticker] at hshown
  refine ⟨by rw [hut, hprior], by rw [hut, hwith], by rw [hut, hshown], fun x rest hq hroom => ?_,
    fun hn => by rw [hut, hum]; exact hstay hn⟩
  obtain ⟨hband, hstate, hfetches, hunit⟩ := henter x rest hq hroom
  refine ⟨by rw [hut, hband], by rw [hut, hstate], fun hf => ?_, by rw [hum, hunit]⟩
  obtain ⟨after, hafter⟩ := hfetches hf
  exact ⟨after ++ l, by rw [hl, hafter, List.append_assoc, List.cons_append]⟩

/-! ### Suppression, scrolling, withdrawals and the start test (R156 to R159) -/

/-- The state with the band in this state. -/
def withBandState (s : State) (st : BandState) (prior : Option BandState) : State :=
  setTicker s fun t => { t with state := st, prior := prior }

/-- The band hides over a slot where the configuration says so (R156). -/
def BandHides (s : State) : Prop :=
  (∃ j, programSource s = .slot j) ∧ hideOnReplay s.path.shadow = true

/-- The state a band not hidden goes on from: the one before its suppression, where it was suppressed. -/
def bandFound (k : TickerUnit) : BandState :=
  if k.state = .suppressed then k.prior.getD .hidden else k.state

theorem bandHides_iff (s : State) :
    ((programSource s).isSlot && hideOnReplay s.path.shadow) = true ↔ BandHides s := by
  rw [Bool.and_eq_true, isSlot_iff]
  rfl

theorem bandSuppress_of_hides {s : State} (h : BandHides s) :
    bandSuppress s = withBandState s .suppressed
      (if s.ticker.state = .suppressed then s.ticker.prior else some s.ticker.state) := by
  unfold bandSuppress
  dsimp only
  rw [if_pos ((bandHides_iff s).2 h)]
  split
  · next hs =>
    rw [if_pos hs, ← hs]
    rfl
  · next hs =>
    rw [if_pos ((bandHides_iff s).2 h), if_neg hs]
    rfl

theorem bandSuppress_of_not_hides {s : State} (h : ¬BandHides s)
    (hprior : s.ticker.state = .suppressed ∨ s.ticker.prior = none) :
    bandSuppress s = withBandState s (bandFound s.ticker) none := by
  have hnot : ¬((programSource s).isSlot && hideOnReplay s.path.shadow) = true :=
    fun hh => h ((bandHides_iff s).1 hh)
  unfold bandSuppress bandFound
  dsimp only
  rw [if_neg hnot]
  split
  · next hs =>
    rw [if_pos hs]
    rfl
  · next hs =>
    rw [if_neg hnot, if_neg hs, ← hprior.resolve_left hs]
    rfl

/-- A band that neither runs nor starts loses its withdrawn entries and nothing else. -/
theorem bandRest_waits {s : State} {st : BandState} {prior : Option BandState} (hst : st ≠ .running)
    (hdue : st = .hidden → ¬StartDue s) :
    bandEnter (bandStart (bandWithdraw (bandScroll (withBandState s st prior)))) =
      setTicker s fun k => { k with
        state := st, prior := prior, band := unwithdrawn k k.band, withdrawals := [] } := by
  have hscroll : bandScroll (withBandState s st prior) = withBandState s st prior := if_neg hst
  let t := bandWithdraw (withBandState s st prior)
  have hstart : bandStart t = t :=
    if_neg fun hh => hdue hh.1 (hh.2.imp_right (waitedEnough_iff t).1)
  have henter : bandEnter t = t := if_neg hst
  rw [hscroll, hstart, henter]
  rfl

/-- A HIDDEN band whose start test passes runs with what no withdrawal names (R157). -/
theorem bandRest_starts {s : State} (hdue : StartDue s) :
    bandEnter (bandStart (bandWithdraw (bandScroll (withBandState s .hidden none)))) =
      bandEnter (withRunning s (unwithdrawn s.ticker s.ticker.band) s.ticker.shown) := by
  have hscroll : bandScroll (withBandState s .hidden none) = withBandState s .hidden none :=
    if_neg nofun
  have hstart : bandStart (bandWithdraw (withBandState s .hidden none)) =
      withRunning s (unwithdrawn s.ticker s.ticker.band) s.ticker.shown :=
    if_pos ⟨rfl, hdue.imp_right (waitedEnough_iff (bandWithdraw (withBandState s .hidden none))).2⟩
  rw [hscroll, hstart]

/-- A RUNNING band moves, and keeps what stays on it and no withdrawal names (R158, R159). -/
theorem bandRest_scrolls (s : State) :
    bandEnter (bandStart (bandWithdraw (bandScroll (withBandState s .running none)))) =
      bandEnter (withRunning s
        (unwithdrawn s.ticker ((movedBand s.path.shadow s.ticker).filter staysOn))
        (s.ticker.shown + BitVec.ofNat 32
          ((movedBand s.path.shadow s.ticker).filter fun e => !staysOn e).length)) := by
  have hscroll : bandScroll (withBandState s .running none) =
      setTicker s fun k => { k with
        state := .running, prior := none,
        band := (movedBand s.path.shadow k).filter staysOn,
        shown := k.shown + BitVec.ofNat 32
          ((movedBand s.path.shadow k).filter fun e => !staysOn e).length } := by
    rw [← gone_eq, ← not_gone_eq]
    exact if_pos rfl
  have hstart : ∀ t : State, t.ticker.state = .running → bandStart t = t := fun t ht =>
    if_neg fun hh => BandState.noConfusion (ht.symm.trans hh.1)
  rw [hscroll, hstart _ rfl]
  rfl

/-! ### The ticker unit's handling of a LIVE FRAME_START -/

theorem tickerFrame_of_live {s : State} (hm : s.report.mode = .live) :
    tickerFrame s = bandEnter (bandStart (bandWithdraw (bandScroll (bandSuppress s)))) := by
  unfold tickerFrame
  rw [hm]

theorem tickerFrame_of_pass {s : State} (hm : s.report.mode = .pass) : tickerFrame s = bandEmpty s := by
  unfold tickerFrame
  rw [hm]

/-- A band that waits in `st`, its withdrawn entries gone (R156, R159). -/
def BandWaits (s t : State) (st : BandState) (prior : Option BandState) : Prop :=
  t.ticker = { s.ticker with
    state := st, prior := prior, band := unwithdrawn s.ticker s.ticker.band, withdrawals := [] } ∧
  t.msg = s.msg

section
variable {s : State} (hm : s.report.mode = .live)
include hm

theorem tickerFrame_hides (h : BandHides s) : BandWaits s (tickerFrame s) .suppressed
    (if s.ticker.state = .suppressed then s.ticker.prior else some s.ticker.state) := by
  rw [tickerFrame_of_live hm, bandSuppress_of_hides h, bandRest_waits (by decide) (by simp)]
  exact ⟨rfl, rfl⟩

variable (h : ¬BandHides s) (hprior : s.ticker.state = .suppressed ∨ s.ticker.prior = none)
include h hprior

theorem tickerFrame_waits {st : BandState} (hfound : bandFound s.ticker = st) (hst : st ≠ .running)
    (hdue : st = .hidden → ¬StartDue s) : BandWaits s (tickerFrame s) st none := by
  rw [tickerFrame_of_live hm, bandSuppress_of_not_hides h hprior, hfound, bandRest_waits hst hdue]
  exact ⟨rfl, rfl⟩

theorem tickerFrame_starts (hfound : bandFound s.ticker = .hidden) (hdue : StartDue s) :
    BandRuns s (tickerFrame s) (unwithdrawn s.ticker s.ticker.band) 0 := by
  have hruns := bandRuns_bandEnter s (unwithdrawn s.ticker s.ticker.band) 0
  rw [tickerFrame_of_live hm, bandSuppress_of_not_hides h hprior, hfound, bandRest_starts hdue]
  rwa [BitVec.add_zero] at hruns

theorem tickerFrame_scrolls (hfound : bandFound s.ticker = .running) :
    BandRuns s (tickerFrame s)
      (unwithdrawn s.ticker ((movedBand s.path.shadow s.ticker).filter staysOn))
      ((movedBand s.path.shadow s.ticker).filter fun e => !staysOn e).length := by
  rw [tickerFrame_of_live hm, bandSuppress_of_not_hides h hprior, hfound, bandRest_scrolls]
  exact bandRuns_bandEnter _ _ _

end

end Sys2Proof.FrameProofs
end

section
/-! FRAME_START begins a frame (O28): what the units leave, the plan, its lock set and the band together. -/

namespace Sys2Proof.FrameProofs
open Sys2Proof.Machine

/-! ### The end of a FRAME_START, after the units -/

/-- The plan, the refresh and the end of the command, from the state the units leave. -/
def frameEnd (u : State) : State := settle (refreshDue (setPlan u) .frameStart)

theorem settle_frameStart (s : State) : settle (frameStart s) = frameEnd (frameUnits s) := rfl

/-- What the end of a FRAME_START leaves as the units and the plan have it. -/
theorem aside_frameEnd (u : State) : aside (frameEnd u) = aside (setPlan u) := by
  rw [frameEnd, aside_settle]
  rfl

theorem units_of_aside {t u : State} (h : aside t = aside (setPlan u)) :
    t.rot = u.rot ∧ t.replay = u.replay ∧ t.score = u.score ∧ t.ticker = u.ticker ∧ t.msg = u.msg := by
  have hrot := rot_of_aside h
  have hreplay := replay_of_aside h
  have hscore := score_of_aside h
  have hticker := ticker_of_aside h
  have hmsg := msg_of_aside h
  exact ⟨hrot, hreplay, hscore, hticker, hmsg⟩

theorem placementAt_congr {s t : State} (h : s.rot = t.rot) : placementAt s = placementAt t := by
  funext q
  rw [placementAt, placementAt, h]

theorem programSource_congr {s t : State} (h : s.replay = t.replay) :
    programSource s = programSource t := by
  have hslot : slotOf s = slotOf t := by
    funext i
    rw [slotOf, slotOf, h]
  rw [programSource, programSource, hslot, h]

theorem runningBumper_congr {s t : State} (h : s.replay = t.replay) :
    runningBumper s = runningBumper t := by
  have hclip : clipAt s = clipAt t := by
    funext i
    rw [clipAt, clipAt, h]
  rw [runningBumper, runningBumper, hclip, h]

/-! ### A frame in PASS -/

theorem programSource_of_live {s : State} (h : s.replay.playback = .live) :
    programSource s = .liveCanvas := by
  rw [programSource, h]

theorem flash_of_pass {s : State} (hm : s.report.mode = .pass) :
    (scoreFrame s).score.flash = none ∧ (scoreFrame s).score.flashAsk = none := by
  have hflash : flashFrame s = { s with score := { s.score with flash := none, flashAsk := none } } := by
    unfold flashFrame
    rw [hm]
  rw [scoreFrame, hflash]
  exact ⟨rfl, rfl⟩

theorem rotFrame_of_pass {s : State} (hm : s.report.mode = .pass) (hand : List Handover)
    (returned : Bool) : rotFrame s hand returned = rotEmptyAll (rotOpen s hand) := by
  have hopen : (rotOpen s hand).report.mode = .pass :=
    (congrArg (fun t => t.report.mode) (sansAccrual_rotOpen s hand) :).trans hm
  unfold rotFrame
  dsimp only
  rw [hopen]

section
variable {s : State} (hm : modeAhead s = .pass)
include hm

/-- In PASS the units empty what they hold for the screen (R58, R86, R107, R133, R155). -/
theorem frameUnits_of_pass :
    (∀ q, q < 4 → (placementAt (frameUnits s) q).stack = [] ∧
      (placementAt (frameUnits s) q).spots = []) ∧
    (frameUnits s).score.flash = none ∧ (frameUnits s).score.flashAsk = none ∧
    (frameUnits s).replay.playback = .live ∧ (frameUnits s).replay.waiting = none ∧
    (frameUnits s).replay.cutPending = false ∧ (frameUnits s).replay.fill = none ∧
    (frameUnits s).replay.captureSeq = s.replay.captureSeq ∧
    (frameUnits s).ticker.state = .hidden ∧ (frameUnits s).ticker.band = [] ∧
    (frameUnits s).ticker.withdrawals = [] ∧ (frameUnits s).msg = s.msg := by
  have hticker : frameUnits s = bandEmpty (frameRotated s) :=
    tickerFrame_of_pass ((mode_frameRotated s).trans hm)
  have hrot : frameRotated s = rotEmptyAll (rotOpen (frameSourced s) (handover s)) :=
    rotFrame_of_pass ((mode_frameSourced s).trans hm) _ _
  have hstacks : ∀ q, q < 4 → (placementAt (frameUnits s) q).stack = [] ∧
      (placementAt (frameUnits s) q).spots = [] := fun q hq => by
    rw [placementAt_congr (rot_frameUnits s), hrot]
    exact placementAt_rotEmptyAll _ hq
  have hmode : (replayFrame (frameOpened s)).report.mode = .pass :=
    (congrArg (fun t => t.report.mode) (sansReplay_replayFrame (frameOpened s)) :).trans
      ((mode_frameOpened s).trans hm)
  obtain ⟨hflash, hask⟩ := flash_of_pass hmode
  obtain ⟨hplay, hwait, hcut, hfill, hseq⟩ := replayFrame_of_pass ((mode_frameOpened s).trans hm)
  have hopened : (frameOpened s).replay = s.replay :=
    (congrArg State.replay (sansMode_modeFrame (openFrame s)) :)
  rw [hopened] at hseq
  rw [← replay_frameUnits] at hplay hwait hcut hfill hseq
  rw [← frameSourced, ← score_frameUnits] at hflash hask
  refine ⟨hstacks, hflash, hask, hplay, hwait, hcut, hfill, hseq, ?_⟩
  rw [hticker]
  exact ⟨rfl, rfl, rfl, msg_frameRotated s⟩

end

/-! ### The ticker unit of a LIVE frame -/

/-- The band hides by the program source that the frame shows (R156). -/
theorem bandHides_frameRotated {s t : State} (h : t.replay = (frameUnits s).replay) :
    BandHides (frameRotated s) ↔
      (∃ j, programSource t = .slot j) ∧ hideOnReplay s.path.shadow = true := by
  have hreplay : (frameRotated s).replay = t.replay := by
    rw [h, replay_frameUnits, replay_frameRotated]
  rw [BandHides, programSource_congr hreplay, path_frameRotated]

theorem startDue_frameRotated (s : State) : StartDue (frameRotated s) ↔ StartDue s := by
  rw [StartDue, msg_frameRotated, path_frameRotated, clock_frameRotated, StartDue]

section
variable {s t : State} (hticker : t.ticker = (frameUnits s).ticker)
  (hmsg : t.msg = (frameUnits s).msg)
include hticker hmsg

theorem bandWaits_of_frameRotated {st : BandState} {prior : Option BandState}
    (h : BandWaits (frameRotated s) (tickerFrame (frameRotated s)) st prior) :
    BandWaits s t st prior := by
  obtain ⟨hk, hq⟩ := h
  rw [ticker_frameRotated] at hk
  rw [msg_frameRotated] at hq
  exact ⟨hticker.trans hk, hmsg.trans hq⟩

theorem bandRuns_of_frameRotated {band : List BandEntry} {gone : Nat}
    (hissued : ∃ l, t.path.issued = (frameUnits s).path.issued ++ l)
    (h : BandRuns (frameRotated s) (tickerFrame (frameRotated s)) band gone) :
    BandRuns s t band gone :=
  h.congr (ticker_frameRotated s) (msg_frameRotated s) (path_frameRotated s) hticker hmsg hissued

end

/-- The band of a LIVE frame: hidden, waiting, or running (R156 to R160). -/
theorem band_of_live {s t : State} (hm : modeAhead s = .live)
    (hreplay : t.replay = (frameUnits s).replay) (hticker : t.ticker = (frameUnits s).ticker)
    (hmsg : t.msg = (frameUnits s).msg)
    (hissued : ∃ l, t.path.issued = (frameUnits s).path.issued ++ l) :
    let k := s.ticker
    let hide := (∃ j, programSource t = .slot j) ∧ hideOnReplay s.path.shadow = true
    let moved := movedBand s.path.shadow k
    let known := k.state = .suppressed ∨ k.prior = none
    (hide → k.state = .suppressed → BandWaits s t .suppressed k.prior) ∧
    (hide → k.state ≠ .suppressed → BandWaits s t .suppressed (some k.state)) ∧
    (¬hide → bandFound k = .paused → known → BandWaits s t .paused none) ∧
    (¬hide → bandFound k = .hidden → known → ¬StartDue s → BandWaits s t .hidden none) ∧
    (¬hide → bandFound k = .hidden → known → StartDue s → BandRuns s t (unwithdrawn k k.band) 0) ∧
    (¬hide → bandFound k = .running → known → BandRuns s t (unwithdrawn k (moved.filter staysOn))
      (moved.filter fun e => !staysOn e).length) := by
  intro k hide moved known
  have hv : (frameRotated s).report.mode = .live := (mode_frameRotated s).trans hm
  have hk : (frameRotated s).ticker = k := ticker_frameRotated s
  have hhide : BandHides (frameRotated s) ↔ hide := bandHides_frameRotated hreplay
  have hdue := startDue_frameRotated s
  have hnot : ¬hide → ¬BandHides (frameRotated s) := mt hhide.1
  have hwaits := @bandWaits_of_frameRotated s t hticker hmsg
  have hruns := @bandRuns_of_frameRotated s t hticker hmsg
  refine ⟨fun hh hs => ?_, fun hh hs => ?_, fun hh hf hp => ?_, fun hh hf hp hd => ?_,
    fun hh hf hp hd => ?_, fun hh hf hp => ?_⟩
  · have h := hwaits (tickerFrame_hides hv (hhide.2 hh))
    rwa [hk, if_pos hs] at h
  · have h := hwaits (tickerFrame_hides hv (hhide.2 hh))
    rwa [hk, if_neg hs] at h
  · exact hwaits (tickerFrame_waits hv (hnot hh) (hk ▸ hp) (hk ▸ hf) (by decide) (by simp))
  · exact hwaits (tickerFrame_waits hv (hnot hh) (hk ▸ hp) (hk ▸ hf) (by decide)
      fun _ => mt hdue.1 hd)
  · have h := hruns hissued (tickerFrame_starts hv (hnot hh) (hk ▸ hp) (hk ▸ hf) (hdue.2 hd))
    rwa [hk] at h
  · have h := hruns hissued (tickerFrame_scrolls hv (hnot hh) (hk ▸ hp) (hk ▸ hf))
    rwa [hk, path_frameRotated] at h

/-! ### All together -/

theorem comp_settle_frameStart (s : State) : (settle (frameStart s)).comp =
    { (openFrame s).comp with
      plan := some (buildPlan (frameUnits s)),
      lock := lockSet s.path.shadow s.path.geom (buildPlan (frameUnits s)) } := by
  have hset : ∀ u : State, (setPlan u).comp = { u.comp with
      plan := some (buildPlan u), lock := lockSet u.path.shadow u.path.geom (buildPlan u) } :=
    fun _ => rfl
  rw [settle_frameStart, comp_of_aside (aside_frameEnd _), hset, comp_frameUnits, shadow_frameUnits,
    geom_frameUnits]

/-- Settles O28: the units' handling, each by its lemmas, then the plan, the lock set and the refresh. -/
theorem frameStartBeginsAFrame : Obligations.FrameStartBeginsAFrame := by
  intro s
  have hside := aside_frameEnd (frameUnits s)
  have hcomp := comp_settle_frameStart s
  have hissued := issued_settle_frameStart s
  have hshow := @show_of_no_mode s
  have hshown := @show_of_mode s
  have hrefresh := refresh_frameStart s
  have hexec : exec .frameStart s = .next (settle (frameStart s)) := rfl
  rw [← settle_frameStart] at hside
  generalize settle (frameStart s) = t at *
  have hmode : t.report.mode = modeAhead s := (mode_of_aside hside).trans (mode_frameUnits s)
  have hlive : ∀ m, modeAhead s = m → (frameUnits s).report.mode = m := fun m h =>
    (mode_frameUnits s).trans h
  obtain ⟨hrot, hreplay, hscore, hticker, hmsg⟩ := units_of_aside hside
  have hpath : t.path.shadow = s.path.shadow ∧ t.path.geom = s.path.geom ∧
      t.path.order = s.path.order ∧ t.path.returned = s.path.returned :=
    ⟨(shadow_of_aside hside).trans (shadow_frameUnits s), (geom_of_aside hside).trans (geom_frameUnits s),
      (order_of_aside hside).trans (order_frameUnits s),
      (returned_of_aside hside).trans (returned_frameUnits s)⟩
  obtain ⟨hshadow, hgeom, horder, hreturned⟩ := hpath
  refine ⟨t, buildPlan (frameUnits s), hexec, ?_, ?_, ?_, hmode,
    (pendingMode_of_aside hside).trans (pendingMode_frameUnits s), ?_, ?_,
    (mode_frameUnits s).trans hmode.symm, (programSource_congr hreplay).symm, ?_, rfl, ?_, ?_,
    (clock_of_aside hside).trans (clock_frameUnits s),
    (gateRun_of_aside hside).trans (gateRun_frameUnits s),
    (pending_of_aside hside).trans (pending_frameUnits s), hshadow, hgeom, horder, hreturned,
    ?_, ?_, hshow, fun m tag hp hm => hshown hp hm, hrefresh, ?_, ?_, ?_, ?_⟩
  · rw [hcomp]; rfl
  · rw [hcomp]; rfl
  · rw [hcomp]; rfl
  · rw [hcomp]
  · rw [hcomp]
    exact (congrArg (fun c => c.frame) (comp_frameUnits s) :)
  · rw [buildPlan, List.length_map, List.length_range]
  · rw [hcomp]
  · rw [hcomp]; rfl
  · rw [hmsg, head_frameUnits]
  · rw [hmsg, tail_frameUnits]
  · intro hpass
    obtain ⟨hstacks, hflash, hask, hplay, hrest⟩ := frameUnits_of_pass hpass
    have hplan : (frameUnits s).report.mode = .pass := hlive _ hpass
    have hlock : t.comp.lock = [] := by rw [hcomp]; exact lockSet_of_pass hplan _ _
    have hsource : programSource (frameUnits s) = .liveCanvas := programSource_of_live hplay
    rw [← hscore] at hflash hask
    rw [← hreplay] at hplay
    rw [← hreplay, ← hticker, ← hmsg] at hrest
    refine ⟨fun l hl => ?_, hsource, hlock, ?_, hflash, hask, hplay, hrest⟩
    · obtain ⟨i, -, rfl⟩ := List.mem_map.1 hl
      exact planLayer_not_drawn_of_pass hplan i
    · rw [placementAt_congr hrot]
      exact hstacks
  · intro l x hm hx
    have hplan := hlive _ hm
    obtain ⟨hl, rfl⟩ := getElem?_buildPlan hx
    rw [← shadow_frameUnits s, placementAt_congr hrot, programSource_congr hreplay,
      runningBumper_congr hreplay, hscore, hticker]
    obtain ⟨hrank, hx, hy, hw, hh, hidle⟩ := planLayer_fields (frameUnits s) l
    refine ⟨hrank, hx, hy, hw, hh, fun hd => ⟨(hidle hd).1, (hidle hd).2.1⟩,
      fun h => planLayer_sponsor hplan h, ?_, ?_, ?_, ?_⟩
    · rintro rfl
      exact planLayer_bug hplan
    · rintro rfl
      exact planLayer_ticker hplan
    · rintro rfl
      exact planLayer_flash hplan
    · rintro rfl
      exact planLayer_bumper hplan
  · intro hm j
    rw [hcomp]
    exact mem_lockSet (hlive _ hm) j
  · exact fun hm => band_of_live hm hreplay hticker hmsg hissued

end Sys2Proof.FrameProofs
end

section
/-! Effective alpha, blend, visible weights (R24 to R26). -/

namespace Sys2Proof.BlendProofs
open Sys2Proof.Machine

/-! ### The rounded division by 255 that the formulas share -/

/-- A whole multiple of 255 is not rounded. -/
theorem rounded_mul (n : Nat) : (255 * n + 127) / 255 = n := by omega

theorem rounded_le {x n : Nat} (h : x ≤ 255 * n) : (x + 127) / 255 ≤ n := by omega

theorem le_rounded {x n : Nat} (h : 255 * n ≤ x) : n ≤ (x + 127) / 255 := by omega

/-- Of two parts of a whole multiple of 255 one is rounded down as far as the other is rounded up: 127 is
just under a half, so the two roundings never meet. -/
theorem rounded_add_rounded {x y n : Nat} (h : x + y = 255 * n) :
    (x + 127) / 255 + (y + 127) / 255 = n := by omega

/-! ### Effective alpha (R24) -/

theorem effAlpha_comm (k o : Nat) : effAlpha k o = effAlpha o k := by
  rw [effAlpha, effAlpha, Nat.mul_comm]

theorem effAlpha_full_left (o : Nat) : effAlpha 255 o = o := rounded_mul o

theorem effAlpha_full_right (k : Nat) : effAlpha k 255 = k :=
  (effAlpha_comm k 255).trans (effAlpha_full_left k)

theorem effAlpha_le_right {k : Nat} (hk : k ≤ 255) (o : Nat) : effAlpha k o ≤ o :=
  rounded_le (Nat.mul_le_mul_right o hk)

theorem effAlpha_le_left (k : Nat) {o : Nat} (ho : o ≤ 255) : effAlpha k o ≤ k :=
  effAlpha_comm k o ▸ effAlpha_le_right ho k

/-! ### Blend (R25) -/

/-- The two weights of a blend step make up 255. -/
theorem weighted_same {a : Nat} (ha : a ≤ 255) (n : Nat) : a * n + (255 - a) * n = 255 * n := by
  rw [← Nat.add_mul, Nat.add_sub_cancel' ha]

theorem blendStep_le {a c b n : Nat} (ha : a ≤ 255) (hc : c ≤ n) (hb : b ≤ n) :
    blendStep a c b ≤ n :=
  rounded_le <| calc
    a * c + (255 - a) * b ≤ a * n + (255 - a) * n :=
      Nat.add_le_add (Nat.mul_le_mul_left _ hc) (Nat.mul_le_mul_left _ hb)
    _ = 255 * n := weighted_same ha n

theorem le_blendStep {a c b n : Nat} (ha : a ≤ 255) (hc : n ≤ c) (hb : n ≤ b) :
    n ≤ blendStep a c b :=
  le_rounded <| calc
    255 * n = a * n + (255 - a) * n := (weighted_same ha n).symm
    _ ≤ a * c + (255 - a) * b :=
      Nat.add_le_add (Nat.mul_le_mul_left _ hc) (Nat.mul_le_mul_left _ hb)

theorem blendStep_transparent (c b : Nat) : blendStep 0 c b = b := by
  rw [blendStep, Nat.zero_mul, Nat.zero_add, Nat.sub_zero, rounded_mul]

theorem blendStep_opaque (c b : Nat) : blendStep 255 c b = c := by
  rw [blendStep, Nat.sub_self, Nat.zero_mul, Nat.add_zero, rounded_mul]

/-! ### Weights (R26) -/

/-- A layer takes its visible weight from the transmission and passes on the rest, nothing lost. -/
theorem visible_add_transmit {a : Nat} (ha : a ≤ 255) (t : Nat) : visible a t + transmit a t = t :=
  rounded_add_rounded <| by rw [Nat.mul_comm t, weighted_same ha]

/-- Layers below a transmission share it with what passes through all of them. -/
theorem sum_weightWalk_add_transmitted {cs : List Covered} (h : ∀ x ∈ cs, x.alpha ≤ 255) (t : Nat) :
    ((weightWalk cs t).map Prod.snd).sum + cs.foldl (fun u x => transmit x.alpha u) t = t := by
  induction cs generalizing t with
  | nil => exact Nat.zero_add t
  | cons c cs ih =>
    have hrest := ih (fun x hx => h x (List.mem_cons_of_mem c hx)) (transmit c.alpha t)
    have hsplit := visible_add_transmit (h c List.mem_cons_self) t
    simp only [weightWalk, List.map_cons, List.sum_cons, List.foldl_cons]
    omega

/-- Settles O47: each bound from the rounded division, the weights by induction from the top layer down. -/
theorem alphaBlendAndWeightsStayInRange : Obligations.AlphaBlendAndWeightsStayInRange := by
  refine ⟨fun k o hk ho => ?_, fun a c b ha hc hb => ?_, fun cs h => ?_⟩
  · exact ⟨effAlpha_le_left k ho, effAlpha_le_right hk o, effAlpha_full_right k, effAlpha_full_left o⟩
  · exact ⟨le_blendStep ha (Nat.min_le_left c b) (Nat.min_le_right c b),
      blendStep_le ha (Nat.le_max_left c b) (Nat.le_max_right c b),
      blendStep_transparent c b, blendStep_opaque c b⟩
  · exact sum_weightWalk_add_transmitted (fun x hx => h x (List.mem_reverse.1 hx)) 255

end Sys2Proof.BlendProofs
end

section
/-! The bumper fade and the TRANSITION layer that has it as its opacity (R8, R32). -/

namespace Sys2Proof.BlendProofs
open Sys2Proof.Machine Sys2Proof.FrameProofs

/-! ### The fade (R32) -/

theorem bumperFade_le_full (i b : Nat) : bumperFade i b ≤ 255 := Nat.min_le_left _ _

/-- The fade reaches `n` where the frame is far enough from both ends. -/
theorem le_bumperFade {i b n : Nat} (hi : i < b) (hn : n ≤ 255)
    (h : n * b ≤ 510 * min (i + 1) (b - i)) : n ≤ bumperFade i b :=
  Nat.le_min.2 ⟨hn, (Nat.le_div_iff_mul_le (by omega)).2 h⟩

/-- The fade grows with the distance from the nearer end. -/
theorem bumperFade_mono {i j b : Nat} (h : min (i + 1) (b - i) ≤ min (j + 1) (b - j)) :
    bumperFade i b ≤ bumperFade j b :=
  min_le_min_left 255 (Nat.div_le_div_right (Nat.mul_le_mul_left 510 h))

/-- Frame `b − 1 − i` is as far from the nearer end as frame `i`. -/
theorem bumperFade_reflect {i b : Nat} (hi : i < b) : bumperFade i b = bumperFade (b - 1 - i) b :=
  Nat.le_antisymm (bumperFade_mono (by omega)) (bumperFade_mono (by omega))

/-! ### The TRANSITION layer (R8) -/

theorem bumper_of_runningBumper {s : State} {i b : Nat} {d : Descriptor}
    (h : runningBumper s = some (i, b, d)) : s.replay.bumper = some (i, b) := by
  unfold runningBumper at h
  split at h
  · next hbumper _ =>
    cases h
    exact hbumper
  · cases h

theorem live_of_drawn {s : State} {l : Nat} (hd : (planLayer s l).drawn = true) :
    s.report.mode = .live := by
  cases hm : s.report.mode with
  | live => rfl
  | pass =>
    rw [planLayer_not_drawn_of_pass hm l] at hd
    cases hd

/-- A TRANSITION layer that is drawn fades as the bumper of its state stands. -/
theorem planLayer_bumper_fade {s : State} {i b : Nat} (hd : (planLayer s 7).drawn = true)
    (hb : s.replay.bumper = some (i, b)) :
    (planLayer s 7).opacity = bumperFade i b ∧ (planLayer s 7).sponsor = .nobody := by
  obtain ⟨hdrawn, -, hshown⟩ := planLayer_bumper (live_of_drawn hd)
  obtain ⟨-, i', b', d, hrun, -⟩ := hdrawn.1 hd
  obtain ⟨rfl, rfl⟩ : i' = i ∧ b' = b := by
    simpa [hb, eq_comm] using bumper_of_runningBumper hrun
  exact (hshown i' b' d hd hrun).2

/-- A FRAME_START leaves the plan built from the replay unit that it leaves. -/
theorem plan_of_frameStart {s t : State} {p : Plan} (h : exec .frameStart s = .next t)
    (hp : t.comp.plan = some p) : ∃ u : State, p = buildPlan u ∧ t.replay = u.replay := by
  have ht : t = settle (frameStart s) := by cases h; rfl
  subst ht
  obtain ⟨-, hreplay, -⟩ := units_of_aside (aside_frameEnd (frameUnits s))
  rw [comp_settle_frameStart] at hp
  exact ⟨frameUnits s, (Option.some.inj hp).symm, hreplay⟩

/-- Settles O48: the fade by the distance from the nearer end, the layer by the state its plan is built
from. -/
theorem bumperFadeRisesAndFalls : Obligations.BumperFadeRisesAndFalls := by
  refine ⟨fun i b hi hb => ⟨rfl, ?_, bumperFade_le_full i b, bumperFade_reflect hi, fun hrise => ?_,
    fun hleft hright => ?_⟩, fun s t p l i b hexec hp hl hd hbumper => ?_⟩
  · exact le_bumperFade hi (by decide) (by omega)
  · exact bumperFade_mono (by omega)
  · exact Nat.le_antisymm (bumperFade_le_full i b) (le_bumperFade hi le_rfl (by omega))
  · obtain ⟨u, rfl, hreplay⟩ := plan_of_frameStart hexec hp
    obtain ⟨-, rfl⟩ := getElem?_buildPlan hl
    exact planLayer_bumper_fade hd (hreplay ▸ hbumper)

end Sys2Proof.BlendProofs
end

section
/-! The ledger of a state: all that the invariants of the stacks, the accounts, the tables, the clips and
the slots rest on (R29, R43, R101, R102, R110, R111, R119, R133). -/

namespace Sys2Proof.SponsorProofs
open Sys2Proof.Machine Sys2Proof.FrameProofs

/-! ### What the invariants rest on -/

/-- What a stack's form rests on: the kind and the sponsor of each entry, and the binding. -/
def placementForm (x : Placement) : List (EntryClass × Option Nat) × Bool :=
  (x.stack.map fun e => (e.kind, e.sponsor), x.fields.bound)

structure Ledger where
  forms : List (List (EntryClass × Option Nat) × Bool)
  accounts : List Nat
  outcomes : Nat
  slotCount : Nat
  mode : Mode
  slots : List (SlotState × Nat)
  fill : Option Nat
  captureSeq : Nat
  clips : List Clip
  live : Bool
  clip : Option Nat

def ledger (s : State) : Ledger :=
  { forms := s.rot.placements.map placementForm, accounts := s.rot.sponsors.map Sponsor.acc
    outcomes := s.report.outcomes.length, slotCount := s.path.geom.slotCount, mode := s.report.mode
    slots := s.replay.slots.map fun x => (x.state, x.seq), fill := s.replay.fill
    captureSeq := s.replay.captureSeq, clips := s.replay.clips, live := s.replay.playback == .live
    clip := s.replay.clip }

theorem stackOk_iff_form (x : Placement) : StackOk x ↔
    (placementForm x).1.length ≤ 3 ∧ (∀ e, (placementForm x).1.head? = some e → e.1 ≠ .spot) ∧
    (∀ e ∈ (placementForm x).1.tail, e.1 = .spot) ∧ ((placementForm x).1.filterMap Prod.snd).Nodup ∧
    ((placementForm x).2 = true → (placementForm x).1.length ≤ 1) := by
  simp [StackOk, placementForm, ← List.map_tail, List.filterMap_map]

/-- R29, R43: the stacks and the accumulators. -/
def StacksHold (s : State) : Prop := StacksOk s ∧ AccountsOk s

/-- R119: just the playing clip is PLAYING, and there is one just while the playback is not LIVE. -/
def PlayOk (s : State) : Prop :=
  (∀ c, (clipAt s c).state = .playing ↔ s.replay.clip = some c) ∧
  (s.replay.playback = .live ↔ s.replay.clip = none)

/-- The tables, the clips and the slots, but for what the mode asks of the playback. -/
def RingHolds (s : State) : Prop := TablesOk s ∧ PlayOk s ∧ SlotsOk s

/-- R133: the playback is LIVE in PASS. -/
def PassIsLive (s : State) : Prop := s.report.mode = .pass → s.replay.playback = .live

theorem clipsOk_iff (s : State) : ClipsOk s ↔ PlayOk s ∧ PassIsLive s := by
  simp only [ClipsOk, PlayOk, PassIsLive, and_assoc]

section
variable {s t : State}

theorem stacksHold_of_ledger (h : ledger t = ledger s) (hs : StacksHold s) : StacksHold t := by
  obtain ⟨⟨hlength, hstacks⟩, hacc⟩ := hs
  have hforms : t.rot.placements.map placementForm = s.rot.placements.map placementForm :=
    congrArg Ledger.forms h
  have haccounts : t.rot.sponsors.map Sponsor.acc = s.rot.sponsors.map Sponsor.acc :=
    congrArg Ledger.accounts h
  refine ⟨⟨by simpa [hlength] using congrArg List.length hforms, fun x hx => ?_⟩, fun x hx => ?_⟩
  · obtain ⟨y, hy, hxy⟩ := List.mem_map.1 (hforms ▸ List.mem_map_of_mem hx)
    rw [stackOk_iff_form, ← hxy, ← stackOk_iff_form]
    exact hstacks y hy
  · obtain ⟨y, hy, hxy⟩ := List.mem_map.1 (haccounts ▸ List.mem_map_of_mem hx)
    exact hxy ▸ hacc y hy

theorem getD_form (slots : List Slot) (k : Nat) :
    (slots.map fun x => (x.state, x.seq)).getD k (.empty, 0) =
      ((slots.getD k .emptied).state, (slots.getD k .emptied).seq) := by
  simp only [List.getD_eq_getElem?_getD, List.getElem?_map]
  cases slots[k]? <;> rfl

/-- What the clips hold rests on the state and the sequence of a slot alone (R110). -/
def heldForm (clips : List Clip) (x : SlotState × Nat) : Bool :=
  x.1 == .filled && clips.any fun c => c.holds x.2

theorem slotsOk_iff_form (s : State) : SlotsOk s ↔
    (∀ k, ((ledger s).slots.getD k (.empty, 0)).1 = .filling ↔ (ledger s).fill = some k) ∧
    (∀ x ∈ (ledger s).slots, x.1 = .filled → x.2 < (ledger s).captureSeq) ∧
    (∀ x ∈ (ledger s).clips, x.state ≠ .empty → x.outPoint < (ledger s).captureSeq) ∧
    ((∃ x ∈ (ledger s).slots, heldForm (ledger s).clips x = true) →
      3 ≤ ((ledger s).slots.filter fun x => !heldForm (ledger s).clips x).length) := by
  have hheld : ∀ x : Slot, heldForm s.replay.clips (x.state, x.seq) = heldBy s.replay.clips x :=
    fun x => rfl
  have hfree : ((s.replay.slots.map fun x => (x.state, x.seq)).filter
      fun x => !heldForm s.replay.clips x).length =
      (s.replay.slots.filter fun x => !heldBy s.replay.clips x).length := by
    rw [List.filter_map, List.length_map]
    rfl
  have hsome : (∃ x ∈ s.replay.slots.map fun x => (x.state, x.seq),
      heldForm s.replay.clips x = true) ↔ ∃ x ∈ s.replay.slots, heldBy s.replay.clips x = true := by
    simp [hheld]
  simp only [SlotsOk, ledger, getD_form, slotAt, List.forall_mem_map, hsome, hfree]

theorem ringHolds_of_ledger (h : ledger t = ledger s) (hs : RingHolds s) : RingHolds t := by
  obtain ⟨⟨hslots, hclips, houtcomes, hsponsors, hplacements⟩, ⟨hplaying, hlive⟩, hring⟩ := hs
  have hclipAt : clipAt t = clipAt s := by
    funext c
    exact congrArg (fun l : Ledger => l.clips.getD c .emptied) h
  have hclip : t.replay.clip = s.replay.clip := congrArg Ledger.clip h
  have hlen {α : Type} (f : Ledger → List α) : (f (ledger t)).length = (f (ledger s)).length := by
    rw [h]
  refine ⟨⟨?_, ?_, ?_, ?_, ?_⟩, ⟨fun c => ?_, ?_⟩, ?_⟩
  · have := hlen Ledger.slots
    simp only [ledger, List.length_map] at this
    rw [this, hslots]
    exact (congrArg Ledger.slotCount h).symm
  · exact (hlen Ledger.clips).trans hclips
  · exact (congrArg Ledger.outcomes h).trans houtcomes
  · simpa [ledger, hsponsors] using hlen Ledger.accounts
  · simpa [ledger, hplacements] using hlen Ledger.forms
  · rw [hclipAt, hclip]
    exact hplaying c
  · have : (t.replay.playback == .live) = (s.replay.playback == .live) := congrArg Ledger.live h
    rw [← beq_iff_eq, this, beq_iff_eq, hclip]
    exact hlive
  · rw [slotsOk_iff_form, h, ← slotsOk_iff_form]
    exact hring

theorem passIsLive_of_ledger (h : ledger t = ledger s) (hs : PassIsLive s) : PassIsLive t := by
  intro hpass
  have hlive : (t.replay.playback == .live) = (s.replay.playback == .live) := congrArg Ledger.live h
  rw [← beq_iff_eq, hlive, beq_iff_eq]
  exact hs ((congrArg Ledger.mode h : t.report.mode = s.report.mode).symm.trans hpass)

end

/-! ### What carries the invariants from one state to another -/

/-- Each of the two groups of invariants that `s` meets, `t` meets. -/
def Carries (s t : State) : Prop :=
  (StacksHold s → StacksHold t) ∧ (RingHolds s ∧ PassIsLive s → RingHolds t ∧ PassIsLive t)

theorem Carries.refl (s : State) : Carries s s := ⟨id, id⟩

theorem Carries.trans {s t u : State} (a : Carries s t) (b : Carries t u) : Carries s u :=
  ⟨b.1 ∘ a.1, b.2 ∘ a.2⟩

theorem carries_of_ledger {s t : State} (h : ledger t = ledger s) : Carries s t :=
  ⟨stacksHold_of_ledger h, fun hs => ⟨ringHolds_of_ledger h hs.1, passIsLive_of_ledger h hs.2⟩⟩

/-- Several operations that carry the invariants carry them together. -/
theorem carries_foldl {α : Type} {f : State → α → State} (hf : ∀ t x, Carries t (f t x)) (l : List α)
    (s : State) : Carries s (l.foldl f s) := by
  induction l generalizing s with
  | nil => exact .refl s
  | cons x l ih => exact (hf s x).trans (ih _)

end Sys2Proof.SponsorProofs
end

section
/-! What keeps the ledger: every operation of the clock, message, ticker, score and report units, every
answer, and the SPONSOR requests. -/

namespace Sys2Proof.SponsorProofs
open Sys2Proof.Machine Sys2Proof.FrameProofs

/-- A change that a projection of the elements does not see leaves the projected list. -/
theorem map_modify_of_eq {α β : Type} {g : α → β} {f : α → α} (h : ∀ x, g (f x) = g x) (l : List α)
    (n : Nat) : (l.modify n f).map g = l.map g := by
  apply List.ext_getElem?
  intro i
  simp only [List.getElem?_map, List.getElem?_modify]
  split
  · cases l[i]? <;> simp [h]
  · simp

section
variable (s : State)

@[simp] theorem ledger_setClock (f : ClockUnit → ClockUnit) : ledger (setClock s f) = ledger s := rfl
@[simp] theorem ledger_setMsg (f : MessageUnit → MessageUnit) : ledger (setMsg s f) = ledger s := rfl
@[simp] theorem ledger_setTicker (f : TickerUnit → TickerUnit) :
    ledger (setTicker s f) = ledger s := rfl
@[simp] theorem ledger_raise (k : NoticeKind) (d : List (Nat × List Byte)) :
    ledger (raise s k d) = ledger s := rfl
@[simp] theorem ledger_refreshDue (c : RefreshCause) : ledger (refreshDue s c) = ledger s := rfl
@[simp] theorem ledger_issue (d : DownTxn) : ledger (issue s d) = ledger s := rfl
@[simp] theorem ledger_enterOrder (id : BitVec 8) (dir : Dir) (k : EntryKind) (n m : Nat)
    (a : Option UpResp) : ledger (enterOrder s id dir k n m a) = ledger s := rfl
@[simp] theorem ledger_mergeCapture (bytes : List (Nat × Byte)) :
    ledger (mergeCapture s bytes) = ledger s := rfl
@[simp] theorem ledger_modifyEntry (k : Nat) (f : Entry → Entry) :
    ledger (modifyEntry s k f) = ledger s := rfl
@[simp] theorem ledger_aside : ledger (aside s) = ledger s := rfl

theorem ledger_modifyPlacement (p : Nat) {f : Placement → Placement}
    (hf : ∀ x, placementForm (f x) = placementForm x) :
    ledger (modifyPlacement s p f) = ledger s := by
  simp only [ledger, modifyPlacement, map_modify_of_eq hf]

theorem ledger_modifySponsor (i : Nat) {f : Sponsor → Sponsor} (hf : ∀ x, (f x).acc = x.acc) :
    ledger (modifySponsor s i f) = ledger s := by
  simp only [ledger, modifySponsor, map_modify_of_eq hf]

@[simp] theorem ledger_setOutcomeRow (w : ReqWord) (f : OutcomeRow → OutcomeRow) :
    ledger (setOutcomeRow s w f) = ledger s := by
  simp [ledger, setOutcomeRow]

@[simp] theorem ledger_settle : ledger (settle s) = ledger s := by
  rw [← ledger_aside, aside_settle, ledger_aside]

@[simp] theorem ledger_refreshStart : ledger (refreshStart s) = ledger s := by
  rw [← ledger_aside, aside_refreshStart, ledger_aside]

@[simp] theorem ledger_issueAll (l : List DownTxn) : ledger (issueAll s l) = ledger s :=
  view_foldl s ledger_issue l

@[simp] theorem ledger_raiseAll {α : Type} (k : NoticeKind) (key : α → Nat)
    (detail : α → List (Nat × List Byte)) (l : List α) : ledger (raiseAll s k key detail l) = ledger s := by
  unfold raiseAll
  split <;> exact view_foldl _ (fun t x => ledger_raise t k (detail x)) _

@[simp] theorem ledger_recordOutcome (w : ReqWord) (tag : Byte) (code : Nat) (v : Verdict) :
    ledger (recordOutcome s w tag code v) = ledger s := by
  unfold recordOutcome
  dsimp only
  split <;> simp

/-! ### The SPONSOR requests -/

@[simp] theorem ledger_spotRequest (o : SpotOffsets) (i p dwell c : Nat) :
    ledger (spotRequest s o i p dwell c).1 = ledger s := by
  have hjoin : ∀ l, ledger (modifyPlacement s p fun x => { x with spots := x.spots ++ l }) = ledger s :=
    fun l => ledger_modifyPlacement s p fun _ => rfl
  simp only [spotRequest, apply_ite Prod.fst, apply_ite ledger, hjoin, ite_self]

@[simp] theorem ledger_periodEndSpot : ledger (periodEndSpot s) = ledger s := by
  unfold periodEndSpot
  split <;> simp

/-- The END mark leaves the kinds and the sponsors (R53). -/
theorem form_markTop (stack : List StackEntry) :
    (markTop stack).map (fun e => (e.kind, e.sponsor)) = stack.map fun e => (e.kind, e.sponsor) := by
  induction stack with
  | nil => rfl
  | cons e es ih =>
    cases es with
    | nil => rfl
    | cons e' es =>
      rw [markTop, List.map_cons, ih]
      rfl

theorem ledger_sponsorRequest (x : RequestWord) : ledger (sponsorRequest s x).1 = ledger s := by
  have hend : ∀ p, ledger (endRequest s p).1 = ledger s := fun p => by
    have hmark : ledger (modifyPlacement s p fun x => { x with stack := markTop x.stack }) = ledger s :=
      ledger_modifyPlacement s p fun x => by simp [placementForm, form_markTop]
    unfold endRequest
    split
    · rfl
    · split
      · rfl
      · simp only [apply_ite Prod.fst, apply_ite ledger, hmark, ite_self]
  have hlowest : ∀ i p, ledger (modifyPlacement s p fun x => { x with lowest := i }) = ledger s :=
    fun i p => ledger_modifyPlacement s p fun _ => rfl
  have hsuspend : ∀ i on, ledger (suspendRequest s i on).1 = ledger s := fun i on => by
    unfold suspendRequest
    repeat' split
    all_goals rfl
  unfold sponsorRequest
  split
  · exact ledger_spotRequest s _ _ _ _ _
  · simp only [setLowestRequest, apply_ite Prod.fst, apply_ite ledger, hlowest, ite_self]
  · exact hend _
  · exact hsuspend _ _
  · exact hsuspend _ _
  · rfl

/-! ### The clock unit -/

@[simp] theorem ledger_tryStart (c : ClockCause) : ledger (tryStart s c) = ledger s := by
  rw [tryStart_eq]
  rfl

@[simp] theorem ledger_takeConfig : ledger (takeConfig s) = ledger s := by
  rw [takeConfig_eq]
  rfl

@[simp] theorem ledger_stopClock (g : GameState) (c : ClockCause) :
    ledger (stopClock s g c) = ledger s := by
  simp only [stopClock, apply_ite ledger, ledger_takeConfig, ledger_refreshDue, ledger_raise,
    ledger_setClock, ite_self]

@[simp] theorem ledger_reevaluate (c : ClockCause) : ledger (reevaluate s c) = ledger s := by
  simp only [reevaluate, apply_ite ledger, ledger_stopClock, ledger_tryStart, ite_self]

@[simp] theorem ledger_tick : ledger (tick s) = ledger s := by
  have hshot : ∀ t, ledger (shotExpire t) = ledger t := fun t => rfl
  have hdown : ∀ t, ledger (expireClock t) = ledger t := fun t => by
    simp [expireClock, raisePeriodEnd, startHornGame]
  have hpoint : ∀ t, ledger (reachSetPoint t) = ledger t := fun t => by
    unfold reachSetPoint
    dsimp only
    split <;> rfl
  have hlimit : ∀ t, ledger (reachLimit t) = ledger t := fun t => by simp [reachLimit]
  unfold tick
  dsimp only
  split
  · simp only [apply_ite ledger, hshot, hdown, tickValues, ledger_setClock, ite_self]
  · simp only [apply_ite ledger, hshot, hpoint, hlimit, tickValues, ledger_setClock, ite_self]

@[simp] theorem ledger_creditTicks (n : Nat) : ledger (creditTicks n s) = ledger s := by
  induction n generalizing s with
  | zero => rfl
  | succ n ih => simp only [creditTicks, apply_ite ledger, ih, ledger_tick, ite_self]

@[simp] theorem ledger_advanceClock : ledger (advanceClock s) = ledger s := by
  simp only [advanceClock, loseTimebase, raiseTimebase, apply_ite ledger, ledger_setClock, ledger_raise,
    ledger_creditTicks, ledger_tick, ite_self]

@[simp] theorem ledger_timebaseEdge : ledger (timebaseEdge s) = ledger s := by
  unfold timebaseEdge
  split
  · simp only [apply_ite ledger, ledger_tick, ledger_setClock, ite_self]
  · simp only [countReturn, raiseTimebase, apply_ite ledger, ledger_setClock, ledger_raise, ite_self]

@[simp] theorem ledger_gateEdge : ledger (gateEdge s) = ledger s := by
  unfold gateEdge
  dsimp only
  rw [ledger_reevaluate, ledger_setClock]
  rfl

@[simp] theorem ledger_stopForGame : ledger (stopForGame s) = ledger s := by
  simp only [stopForGame, apply_ite ledger, ledger_stopClock, ledger_setClock, ite_self]

theorem ledger_clockRequest (x : RequestWord) : ledger (clockRequest s x).1 = ledger s := by
  have hadjust : ∀ t, ledger (adjustState t) = ledger t := fun t => by
    unfold adjustState
    split
    · rfl
    · simp only [apply_ite ledger, ledger_stopClock, ledger_tryStart, ledger_setClock, ite_self]
  have hsoft : ∀ on, ledger (softRequest s on).1 = ledger s := fun on => by
    simp only [softRequest, apply_ite Prod.fst, apply_ite ledger, ledger_reevaluate, ledger_setClock,
      ite_self]
  have hswitch : ∀ on, ledger (shotSwitchRequest s on).1 = ledger s := fun on => by
    simp only [shotSwitchRequest, apply_ite Prod.fst, apply_ite ledger, ledger_setClock, ite_self]
  unfold clockRequest
  split
  · exact hsoft _
  · exact hsoft _
  · simp only [setRequest, apply_ite Prod.fst, apply_ite ledger, ledger_tryStart, ledger_setClock,
      ite_self]
  · exact (hadjust _).trans (ledger_setClock s _)
  · exact (ledger_setClock _ _).trans (ledger_stopForGame s)
  · rfl
  · simp only [shotSetRequest, apply_ite Prod.fst, apply_ite ledger, ledger_setClock, ite_self]
  · exact hswitch _
  · exact hswitch _
  · simp only [hornRequest, startHornGame, apply_ite Prod.fst, apply_ite ledger, ledger_setClock, ite_self]
  · rfl

/-! ### The message unit -/

@[simp] theorem ledger_fetchStart : ledger (fetchStart s) = ledger s := by
  unfold fetchStart
  split <;> rfl

theorem ledger_releaseTest : ledger (releaseTest s) = ledger s := by
  unfold releaseTest
  split <;> rfl

@[simp] theorem ledger_departed : ledger (departed s) = ledger s := by
  rw [departed, ledger_fetchStart, ledger_releaseTest]

theorem ledger_overrunTest : ledger (overrunTest s) = ledger s := by
  unfold overrunTest
  split <;> rfl

theorem ledger_tailCaptured : ledger (tailCaptured s) = ledger s := by
  unfold tailCaptured
  dsimp only
  split <;> simp [ledger_overrunTest]

theorem ledger_withdraw (id : BitVec 32) : ledger (withdraw s id) = ledger s := by
  have hhand : ∀ t, ledger (handWithdrawal t id) = ledger t := fun t => by
    unfold handWithdrawal
    split <;> rfl
  simp only [withdraw, removeQueued, apply_ite ledger, ledger_releaseTest, ledger_setMsg, hhand,
    ledger_raise, ite_self]

theorem ledger_completeFetch (r : BitVec 16) (error : Bool) (data : List Byte) :
    ledger (completeFetch s r error data) = ledger s := by
  have hqueue : ∀ t m, ledger (queueMessage t m) = ledger t := fun t m => by
    unfold queueMessage assertTest
    split <;> rfl
  have hrecord : ∀ t, ledger (takeRecord t r error data) = ledger t := fun t => by
    unfold takeRecord
    split
    · simp [raiseBad]
    · split <;> simp [raiseBad, hqueue, ledger_withdraw]
  simp [completeFetch, hrecord, ledger_overrunTest]

@[simp] theorem ledger_houseAdvance : ledger (houseAdvance s) = ledger s := by
  unfold houseAdvance expireMessages
  dsimp only
  split <;> simp

@[simp] theorem ledger_tickArrival : ledger (tickArrival s) = ledger s := by
  unfold tickArrival
  split <;> simp

theorem ledger_tickerRequest (x : RequestWord) : ledger (tickerRequest s x).1 = ledger s := by
  have hact : ∀ b, ledger (setActedOn s b) = ledger s := fun b => by
    unfold setActedOn
    split <;> rfl
  unfold tickerRequest
  split
  · unfold purgeRequest
    split
    · rfl
    · exact (ledger_departed _).trans (ledger_setMsg s _)
  · unfold pauseRequest
    split
    · exact hact _
    all_goals rfl
  · unfold tickerResumeRequest
    split
    · exact hact _
    all_goals rfl
  · rfl

/-! ### Captures -/

theorem ledger_clockConfigCaptured : ledger (clockConfigCaptured s) = ledger s := by
  simp only [clockConfigCaptured, apply_ite ledger, ledger_setClock, ledger_takeConfig, ite_self]

theorem ledger_teamCaptured (t : Team) (old : Nat) : ledger (teamCaptured s t old) = ledger s := by
  have hask : ∀ u, ledger (askFlash u t) = ledger u := fun u => by
    unfold askFlash
    split <;> rfl
  have hcut : ∀ u, ledger (sendCut u) = ledger u := fun u => by
    unfold sendCut
    split <;> rfl
  simp only [teamCaptured, scoreRise, apply_ite ledger, hcut, hask, ledger_raise, ite_self]

theorem ledger_sponsorCaptured (i : Nat) : ledger (sponsorCaptured s i) = ledger s := by
  unfold sponsorCaptured
  split
  · rfl
  · exact ledger_modifySponsor s i fun _ => rfl

/-! ### Reads, answers and errors -/

theorem ledger_of_sameButAnswers {s t : State} (h : SameButAnswers s t) : ledger t = ledger s := by
  rw [h]
  rfl

theorem ledger_arriveRead (r : ReadReq) : ledger (arriveRead s r) = ledger s := by
  unfold arriveRead
  split
  · next p _ _ =>
    calc ledger (compositedRead s r p)
        = ledger (enterOrder (issueAll s _) r.id .read .composited _ r.beats none) := rfl
      _ = ledger s := by rw [ledger_enterOrder, ledger_issueAll]
  · split
    · simp [windowRead]
    · simp [forwardRead]

theorem ledger_programError (read : ReadName) : ledger (programError s read) = ledger s := by
  have hfail : ∀ c : CompRead, ledger (failRead (modifyRead s c.key fun x => { x with failed := true }) c) =
      ledger s := fun c => ledger_of_sameButAnswers ((modifyRead_same s _ _).trans (failRead_same _ _))
  unfold programError
  split
  · rfl
  · split
    · simp only [apply_ite ledger, hfail, ite_self]
    · rfl

theorem ledger_overlayError (read : ReadName) (l addr : Nat) :
    ledger (overlayError s read l addr) = ledger s := by
  have herase : ∀ f, ledger (eraseLayer s f l) = ledger s := fun f => ledger_issueAll _ _
  unfold overlayError
  split
  · rfl
  · split
    · rfl
    · simp only [apply_ite ledger, ledger_raise, herase, ite_self]

theorem ledger_compositedAnswer (read : ReadName) (f : Fetched) :
    ledger (compositedAnswer s read f) = ledger s := by
  unfold compositedAnswer
  split
  · rfl
  · split
    · rfl
    · next c _ =>
      simp only [apply_ite ledger, ledger_of_sameButAnswers (completeRead_same s c _), ite_self]

/-- A write error mark leaves the states and the sequences of the slots (R106). -/
theorem ledger_markWriteError (k : Nat) : ledger (markWriteError s k) = ledger s := by
  have hmark : (s.replay.slots.modify k fun x => { x with writeError := true }).map
      (fun x => (x.state, x.seq)) = s.replay.slots.map fun x => (x.state, x.seq) :=
    map_modify_of_eq (by intro x; rfl) _ _
  simp only [ledger, markWriteError, modifySlot, setReplay, hmark]

theorem ledger_ingestResponse (id : BitVec 8) (outside : Bool) (code : Resp) :
    ledger (ingestResponse s id outside code) = ledger s := by
  have hset : ∀ u e k a b, ledger (setPieces u e k a b) = ledger u := fun u e k a b => by
    unfold setPieces
    split
    · exact ledger_of_sameButAnswers (answerKey_same u _ _)
    · rfl
  unfold ingestResponse
  split
  · rfl
  · split
    · rfl
    · split
      · exact hset _ _ _ _ _
      · simp only [hset, apply_ite ledger, ledger_markWriteError, ite_self]
      · rfl

theorem ledger_forwardedResponse (dir : Dir) (id : BitVec 8) (data : List Byte) (status : List Resp) :
    ledger (forwardedResponse s dir id data status) = ledger s := by
  unfold forwardedResponse
  split
  · rfl
  · split
    · rfl
    · next e _ =>
      simp only [apply_ite ledger, ledger_of_sameButAnswers (answerKey_same s e.key _), ite_self]

theorem ledger_refreshComplete : ledger (refreshComplete s) = ledger s := by
  unfold refreshComplete
  split
  · rfl
  · split <;> rfl

end
end Sys2Proof.SponsorProofs
end

section
/-! What the replay unit's operations make of the clips and the slots (R102 to R108, R110, R119, R124,
R128). -/

namespace Sys2Proof.SponsorProofs
open Sys2Proof.Machine Sys2Proof.FrameProofs

/-! ### Clips that hold no more than before -/

/-- The slots and the fill slot stand as they were, and every clip that is not EMPTY has the range of one
that was not. -/
structure Narrows (r r' : ReplayUnit) : Prop where
  slots : r'.slots = r.slots
  fill : r'.fill = r.fill
  captureSeq : r'.captureSeq = r.captureSeq
  length : r'.clips.length = r.clips.length
  ranges : ∀ x ∈ r'.clips, x.state ≠ .empty →
    ∃ y ∈ r.clips, y.state ≠ .empty ∧ y.inPoint = x.inPoint ∧ y.outPoint = x.outPoint

theorem Narrows.of_same {r r' : ReplayUnit} (slots : r'.slots = r.slots) (fill : r'.fill = r.fill)
    (captureSeq : r'.captureSeq = r.captureSeq) (clips : r'.clips = r.clips) : Narrows r r' :=
  ⟨slots, fill, captureSeq, by rw [clips], fun x hx he => ⟨x, clips ▸ hx, he, rfl, rfl⟩⟩

section
variable {s : State}

/-- What fewer clips hold, more clips hold. -/
theorem heldBy_of_ranges {new old : List Clip} (h : ∀ x ∈ new, x.state ≠ .empty →
    ∃ y ∈ old, y.state ≠ .empty ∧ y.inPoint = x.inPoint ∧ y.outPoint = x.outPoint) {x : Slot}
    (hx : heldBy new x = true) : heldBy old x = true := by
  simp only [heldBy, Clip.holds, Bool.and_eq_true, List.any_eq_true, bne_iff_ne,
    decide_eq_true_eq] at hx ⊢
  obtain ⟨hfilled, c, hc, ⟨hstate, hin⟩, hout⟩ := hx
  obtain ⟨y, hy, hne, heqin, heqout⟩ := h c hc hstate
  exact ⟨hfilled, y, hy, ⟨hne, heqin ▸ hin⟩, heqout ▸ hout⟩

theorem slotsOk_setReplay {f : ReplayUnit → ReplayUnit} (hs : SlotsOk s)
    (h : Narrows s.replay (f s.replay)) : SlotsOk (setReplay s f) := by
  obtain ⟨hfill, hseq, hout, hfree⟩ := hs
  obtain ⟨eslots, efill, eseq, -, hranges⟩ := h
  refine ⟨fun k => ?_, fun x hx hstate => ?_, fun x hx hstate => ?_, fun ⟨x, hx, hheld⟩ => ?_⟩
  · simp only [slotAt, setReplay_replay, eslots, efill]
    exact hfill k
  · simp only [setReplay_replay, eslots, eseq] at hx ⊢
    exact hseq x hx hstate
  · obtain ⟨y, hy, hne, -, heq⟩ := hranges x hx hstate
    simp only [setReplay_replay, eseq, ← heq]
    exact hout y hy hne
  · simp only [setReplay_replay, eslots] at hx hheld ⊢
    refine (hfree ⟨x, hx, heldBy_of_ranges hranges hheld⟩).trans ?_
    rw [← List.countP_eq_length_filter, ← List.countP_eq_length_filter]
    refine List.countP_mono_left fun z _ hz => ?_
    simp only [Bool.not_eq_true'] at hz ⊢
    exact Bool.eq_false_iff.2 fun hheld => Bool.eq_false_iff.1 hz (heldBy_of_ranges hranges hheld)

theorem ringHolds_setReplay {f : ReplayUnit → ReplayUnit} (hs : RingHolds s)
    (h : Narrows s.replay (f s.replay)) (hplay : PlayOk (setReplay s f)) :
    RingHolds (setReplay s f) := by
  obtain ⟨⟨hslots, hclips, hrest⟩, -, hring⟩ := hs
  exact ⟨⟨(congrArg List.length h.slots).trans hslots, h.length.trans hclips, hrest⟩, hplay,
    slotsOk_setReplay hring h⟩

/-! ### A clip in the table -/

theorem clipAt_of_modify {t : State} {c : Nat} {f : Clip → Clip}
    (h : t.replay.clips = s.replay.clips.modify c f) (hc : c < s.replay.clips.length) (j : Nat) :
    clipAt t j = if j = c then f (clipAt s j) else clipAt s j := by
  simp only [clipAt, h, List.getD_eq_getElem?_getD, List.getElem?_modify, eq_comm (a := j)]
  split
  · next hj => simp [← hj, hc]
  · cases s.replay.clips[j]? <;> rfl

theorem lt_of_clipAt {c : Nat} (h : (clipAt s c).state ≠ .empty) : c < s.replay.clips.length := by
  by_contra hc
  rw [clipAt, List.getD_eq_default _ _ (by omega)] at h
  exact h rfl

theorem clipAt_mem {c : Nat} (h : c < s.replay.clips.length) : clipAt s c ∈ s.replay.clips := by
  rw [clipAt, List.getD_eq_getElem _ _ h]
  exact List.getElem_mem h

/-- A clip changed in place keeps the ranges if it keeps its own, or is emptied. -/
theorem ranges_modify {c : Nat} {f : Clip → Clip}
    (hf : (f (clipAt s c)).state ≠ .empty → (clipAt s c).state ≠ .empty ∧
      (clipAt s c).inPoint = (f (clipAt s c)).inPoint ∧ (clipAt s c).outPoint = (f (clipAt s c)).outPoint) :
    ∀ x ∈ s.replay.clips.modify c f, x.state ≠ .empty →
      ∃ y ∈ s.replay.clips, y.state ≠ .empty ∧ y.inPoint = x.inPoint ∧ y.outPoint = x.outPoint := by
  intro x hx hstate
  obtain ⟨i, hi⟩ := List.mem_iff_getElem?.1 hx
  rw [List.getElem?_modify] at hi
  obtain ⟨y, hy, rfl⟩ := Option.map_eq_some_iff.1 hi
  refine ⟨y, List.mem_of_getElem? hy, ?_⟩
  by_cases hc : c = i
  · subst hc
    have hat : clipAt s c = y := by rw [clipAt, List.getD_eq_getElem?_getD, hy, Option.getD_some]
    rw [hat] at hf
    simp only [if_pos] at hstate ⊢
    exact hf hstate
  · simpa [hc] using hstate

/-! ### Return to live (R124) -/

theorem released_range (x : Clip) (h : x.released.state ≠ .empty) :
    x.inPoint = x.released.inPoint ∧ x.outPoint = x.released.outPoint := by
  unfold Clip.released at h ⊢
  split at h
  · exact absurd rfl h
  · next hd => simp [hd]

theorem released_state (x : Clip) : x.released.state ≠ .playing := by
  unfold Clip.released
  split <;> simp [Clip.emptied]

theorem ringHolds_returnLive (hs : RingHolds s) : RingHolds (returnLive s) := by
  obtain ⟨hplaying, hlive⟩ := hs.2.1
  cases hclip : s.replay.clip with
  | none =>
    have ht : returnLive s = setReplay s fun r =>
        { r with playback := .live, clip := none, position := 0, counter := 0, bumper := none,
                 lastShown := 0 } := by simp only [returnLive, hclip]
    rw [ht]
    refine ringHolds_setReplay hs (.of_same rfl rfl rfl rfl) ⟨fun c => ?_, by simp⟩
    exact (hplaying c).trans (by simp [hclip])
  | some c =>
    have hc : (clipAt s c).state = .playing := (hplaying c).2 hclip
    have ht : returnLive s = setReplay s fun r =>
        { r with clips := r.clips.modify c Clip.released, playback := .live, clip := none, position := 0,
                 counter := 0, bumper := none, lastShown := 0 } := by
      simp only [returnLive, hclip]
      rfl
    rw [ht]
    have hin : c < s.replay.clips.length := lt_of_clipAt (by simp [hc])
    have hranges := ranges_modify (s := s) (c := c) fun h => ⟨by simp [hc], released_range _ h⟩
    refine ringHolds_setReplay hs ⟨rfl, rfl, rfl, by simp, hranges⟩ ⟨fun j => ?_, by simp⟩
    · rw [clipAt_of_modify rfl hin]
      simp only [setReplay_replay, reduceCtorEq, iff_false]
      split
      · exact released_state _
      · next hj => exact fun hp => hj (by simpa [hclip, eq_comm] using (hplaying j).1 hp)

/-- The return actions after a replay (R124). -/
theorem ringHolds_endReplay (hs : RingHolds s) (cause : EndCause) : RingHolds (endReplay s cause) :=
  ringHolds_of_ledger (ledger_raise _ _ _) (ringHolds_returnLive hs)

theorem playback_returnLive (s : State) : (returnLive s).replay.playback = .live := by
  unfold returnLive
  split <;> rfl

/-! ### Going to air (R128) -/

theorem stopped_state (x : Clip) : x.stopped.state ≠ .playing := by
  unfold Clip.stopped
  split
  · simp
  · next h => exact h

theorem stopped_range (x : Clip) : (x.stopped.state = .empty ↔ x.state = .empty) ∧
    x.stopped.inPoint = x.inPoint ∧ x.stopped.outPoint = x.outPoint := by
  unfold Clip.stopped
  split
  · next h => simp [h]
  · simp

/-- Whatever puts the clip that `swapPlaying` has made PLAYING into the playback keeps the ring (R128). -/
theorem ringHolds_swapPlaying (hs : RingHolds s) {c : Nat} (harmed : (clipAt s c).state = .armed)
    {f : ReplayUnit → ReplayUnit}
    (hf : Narrows (swapPlaying s c).replay (f (swapPlaying s c).replay))
    (hclips : (f (swapPlaying s c).replay).clips = (swapPlaying s c).replay.clips)
    (hclip : (f (swapPlaying s c).replay).clip = some c)
    (hplayback : (f (swapPlaying s c).replay).playback ≠ .live) :
    RingHolds (setReplay (swapPlaying s c) f) := by
  have hin : c < s.replay.clips.length := lt_of_clipAt (by simp [harmed])
  let u := setReplay s fun r => { r with clips := r.clips.map Clip.stopped }
  have hat : ∀ j, clipAt u j = (clipAt s j).stopped := fun j => by
    simp only [u, clipAt, setReplay_replay, List.getD_eq_getElem?_getD, List.getElem?_map]
    cases s.replay.clips[j]? <;> rfl
  have hu : ∀ x ∈ u.replay.clips, x.state ≠ .empty →
      ∃ y ∈ s.replay.clips, y.state ≠ .empty ∧ y.inPoint = x.inPoint ∧ y.outPoint = x.outPoint := by
    intro x hx hstate
    obtain ⟨y, hy, rfl⟩ := List.mem_map.1 hx
    obtain ⟨hempty, hi, ho⟩ := stopped_range y
    exact ⟨y, hy, mt hempty.2 hstate, hi.symm, ho.symm⟩
  have hranges : ∀ x ∈ (swapPlaying s c).replay.clips, x.state ≠ .empty →
      ∃ y ∈ s.replay.clips, y.state ≠ .empty ∧ y.inPoint = x.inPoint ∧ y.outPoint = x.outPoint := by
    intro x hx hstate
    obtain ⟨y, hy, hne, hi, ho⟩ := ranges_modify (s := u) (c := c)
      (fun _ => ⟨by simp [hat, (stopped_range _).1, harmed], rfl, rfl⟩) x hx hstate
    obtain ⟨z, hz, hne, hi', ho'⟩ := hu y hy hne
    exact ⟨z, hz, hne, hi'.trans hi, ho'.trans ho⟩
  refine ringHolds_setReplay (f := fun r => f (swapPlaying { s with replay := r } c).replay) hs
    ⟨hf.slots, hf.fill, hf.captureSeq, ?_, ?_⟩ ⟨fun j => ?_, ?_⟩
  · exact hf.length.trans (by simp [swapPlaying, modifyClip])
  · exact fun x hx hstate => hranges x (hclips ▸ hx) hstate
  · rw [clipAt_of_modify (s := u) (f := fun x => { x with state := .playing }) hclips (by simpa [u] using hin)]
    change _ ↔ (f (swapPlaying s c).replay).clip = some j
    rw [hclip, hat]
    split
    · next hj => simp [hj]
    · next hj => simp [stopped_state, Ne.symm hj]
  · change (f (swapPlaying s c).replay).playback = .live ↔ (f (swapPlaying s c).replay).clip = none
    simp [hclip, hplayback]

theorem ringHolds_carryPlay (hs : RingHolds s) (c : Nat) : RingHolds (carryPlay s c) := by
  have hfulfil : ledger (fulfilWaiting s) = ledger s := (ledger_setOutcomeRow s _ _ :)
  unfold carryPlay
  split
  · next harmed =>
    have hu : RingHolds (fulfilWaiting s) := ringHolds_of_ledger hfulfil hs
    have hair : RingHolds (putOnAir (swapPlaying (fulfilWaiting s) c) c) :=
      ringHolds_swapPlaying hu harmed (.of_same rfl rfl rfl rfl) rfl rfl nofun
    have henter : ∀ b, RingHolds (enterClip (swapPlaying (fulfilWaiting s) c) c b) := fun b =>
      ringHolds_swapPlaying hu harmed (.of_same rfl rfl rfl rfl) rfl rfl nofun
    have hstart : RingHolds (startReplay (swapPlaying (fulfilWaiting s) c) c) :=
      ringHolds_of_ledger (ledger_raise _ _ _) hair
    unfold cutToClip
    dsimp only
    split
    · split
      · exact henter _
      · exact hstart
    · split
      · exact henter _
      · exact hstart
    all_goals exact hair
  · refine ringHolds_of_ledger ?_ hs
    unfold refusePlay
    dsimp only
    split
    · exact (ledger_setOutcomeRow s _ _ :)
    · exact (ledger_setOutcomeRow s _ _ :)

/-! ### Advance, take, cut (R120 to R123, R131 to R133) -/

/-- What leaves the ring, the clip on air and whether there is one leaves the ledger. -/
theorem ledger_setReplay {f : ReplayUnit → ReplayUnit} (hslots : (f s.replay).slots = s.replay.slots)
    (hfill : (f s.replay).fill = s.replay.fill) (hseq : (f s.replay).captureSeq = s.replay.captureSeq)
    (hclips : (f s.replay).clips = s.replay.clips) (hclip : (f s.replay).clip = s.replay.clip)
    (hlive : (f s.replay).playback = .live ↔ s.replay.playback = .live) :
    ledger (setReplay s f) = ledger s := by
  have hbeq : ((f s.replay).playback == .live) = (s.replay.playback == .live) := by
    rw [Bool.eq_iff_iff, beq_iff_eq, beq_iff_eq, hlive]
  simp only [ledger, setReplay, hslots, hfill, hseq, hclips, hclip, hbeq]

theorem ledger_leaveReplay (b : Nat) (cause : EndCause) (h : s.replay.playback ≠ .live) :
    ledger (leaveReplay s b cause) = ledger s :=
  ledger_setReplay rfl rfl rfl rfl rfl (by simp [h])

theorem ringHolds_endAction (hs : RingHolds s) (h : s.replay.playback ≠ .live) :
    RingHolds (endAction s) := by
  unfold endAction
  dsimp only
  split
  · exact ringHolds_of_ledger (ledger_setReplay rfl rfl rfl rfl rfl (by simp [h])) hs
  · split
    · exact ringHolds_of_ledger (ledger_leaveReplay _ _ h) hs
    · exact ringHolds_endReplay hs _

theorem ringHolds_advanceReplay (hs : RingHolds s) : RingHolds (advanceReplay s) := by
  have hnext : RingHolds (nextBumper s) :=
    ringHolds_of_ledger (ledger_setReplay rfl rfl rfl rfl rfl .rfl) hs
  unfold advanceReplay
  split
  · exact hs
  · exact hs
  · next hentering =>
    split
    · obtain ⟨c, hc⟩ := Option.ne_none_iff_exists'.1 (mt hs.2.1.2.2 (by simp [hentering]))
      have hair : ledger (putOnAir s (s.replay.clip.getD 16)) = ledger s :=
        ledger_setReplay rfl rfl rfl rfl (by simp [hc]) (by simp [hentering])
      exact ringHolds_of_ledger ((ledger_raise _ _ _).trans hair) hs
    · exact hnext
  · split
    · exact ringHolds_endReplay hs _
    · exact hnext
  · next hair =>
    split
    · exact ringHolds_of_ledger (ledger_setReplay rfl rfl rfl rfl rfl .rfl) hs
    · split
      · exact ringHolds_of_ledger (ledger_setReplay rfl rfl rfl rfl rfl .rfl) hs
      · exact ringHolds_endAction hs (by simp [hair])

theorem ledger_fulfilWaiting (s : State) : ledger (fulfilWaiting s) = ledger s :=
  (ledger_setOutcomeRow s _ _ :)

theorem ledger_supersedeWaiting (s : State) : ledger (supersedeWaiting s) = ledger s := by
  unfold supersedeWaiting
  split
  · rfl
  · exact (ledger_setOutcomeRow s _ _ :)

theorem ledger_dropWaiting (s : State) : ledger (dropWaiting s) = ledger s := by
  unfold dropWaiting
  split
  · exact ledger_supersedeWaiting s
  · exact ledger_fulfilWaiting s
  · rfl

theorem ringHolds_carryTakeLive (hs : RingHolds s) : RingHolds (carryTakeLive s) := by
  have hu : RingHolds (fulfilWaiting s) := ringHolds_of_ledger (ledger_fulfilWaiting s) hs
  have hleave : ∀ b, s.replay.playback ≠ .live → RingHolds (leaveReplay (fulfilWaiting s) b .takeLive) :=
    fun b h => ringHolds_of_ledger (ledger_leaveReplay _ _ h) hu
  unfold carryTakeLive
  dsimp only
  split
  · next hair =>
    split
    · exact hleave _ (by simp [hair])
    · exact ringHolds_endReplay hu _
  · next hfrozen =>
    split
    · exact hleave _ (by simp [hfrozen])
    · exact ringHolds_endReplay hu _
  · exact ringHolds_endReplay hu _
  · exact hu
  · exact hu

theorem ringHolds_carryCut (hs : RingHolds s) : RingHolds (carryCut s) := by
  have ht : RingHolds (setReplay s fun r => { r with cutPending := false }) :=
    ringHolds_of_ledger (ledger_setReplay rfl rfl rfl rfl rfl .rfl) hs
  unfold carryCut
  dsimp only
  split
  · exact ht
  · exact ringHolds_of_ledger (ledger_dropWaiting _) (ringHolds_endReplay ht _)

theorem ringHolds_replayLive (hs : RingHolds s) : RingHolds (replayLive s) := by
  unfold replayLive
  split
  · exact ringHolds_carryCut hs
  · split
    · exact ringHolds_carryPlay hs _
    · exact ringHolds_carryTakeLive hs
    · exact ringHolds_advanceReplay hs

/-! ### A slot that no clip holds, before and after -/

/-- Where a slot is held, three are not (R110). -/
def LeavesThree (slots : List Slot) (clips : List Clip) : Prop :=
  (∃ x ∈ slots, heldBy clips x = true) → 3 ≤ (slots.filter fun x => !heldBy clips x).length

theorem leavesThree_congr {slots slots' : List Slot} {clips : List Clip}
    (h : slots'.map (heldBy clips) = slots.map (heldBy clips)) (hs : LeavesThree slots clips) :
    LeavesThree slots' clips := by
  have hcount : ∀ l : List Slot, (l.filter fun x => !heldBy clips x).length =
      ((l.map (heldBy clips)).filter fun b => !b).length := fun l => by
    rw [List.filter_map, List.length_map]
    rfl
  have hany : ∀ l : List Slot, (∃ x ∈ l, heldBy clips x = true) ↔ true ∈ l.map (heldBy clips) :=
    fun l => by simp
  unfold LeavesThree at hs ⊢
  rwa [hcount, hany, h, ← hany, ← hcount]

theorem lt_of_slotAt {k : Nat} (h : (slotAt s k).state ≠ .empty) : k < s.replay.slots.length := by
  by_contra hk
  rw [slotAt, List.getD_eq_default _ _ (by omega)] at h
  exact h rfl

theorem slotAt_mem {k : Nat} (h : k < s.replay.slots.length) : slotAt s k ∈ s.replay.slots := by
  rw [slotAt, List.getD_eq_getElem _ _ h]
  exact List.getElem_mem h

/-- Slot `k` changes into one that no clip holds, and it was held by none; it was the fill slot or there was
none, and it is FILLING just if it is the fill slot now. -/
theorem ringHolds_setSlot {t : State} {g : Slot → Slot} {k : Nat} (hs : RingHolds s)
    (hk : k < s.replay.slots.length) (hkept : { t with replay := s.replay } = s)
    (hslots : t.replay.slots = s.replay.slots.modify k g)
    (hclips : t.replay.clips = s.replay.clips) (hclip : t.replay.clip = s.replay.clip)
    (hplayback : t.replay.playback = s.replay.playback)
    (hseq : s.replay.captureSeq ≤ t.replay.captureSeq)
    (hfill : s.replay.fill = none ∨ s.replay.fill = some k)
    (hnow : t.replay.fill = if (g (slotAt s k)).state = .filling then some k else none)
    (hbehind : (g (slotAt s k)).state = .filled → (g (slotAt s k)).seq < t.replay.captureSeq)
    (hbefore : slotHeld s k = false) (hafter : heldBy s.replay.clips (g (slotAt s k)) = false) :
    RingHolds t := by
  obtain ⟨⟨hlength, hcount, hrest⟩, ⟨hplaying, hlive⟩, hfilling, hfilled, hout, hfree⟩ := hs
  have hat : ∀ j, slotAt t j = if j = k then g (slotAt s j) else slotAt s j := fun j => by
    simp only [slotAt, hslots, List.getD_eq_getElem?_getD, List.getElem?_modify, eq_comm (a := j)]
    split
    · next hj => simp [← hj, hk]
    · cases s.replay.slots[j]? <;> rfl
  have hheld : (s.replay.slots.modify k g).map (heldBy s.replay.clips) =
      s.replay.slots.map (heldBy s.replay.clips) := by
    apply List.ext_getElem?
    intro j
    simp only [List.getElem?_map, List.getElem?_modify]
    by_cases hj : k = j
    · subst hj
      have hget : s.replay.slots[k]? = some (slotAt s k) := by
        rw [slotAt, List.getD_eq_getElem _ _ hk, List.getElem?_eq_getElem hk]
      simpa [hget, hafter, slotHeld] using hbefore
    · simp [hj]
  have hreport : t.report = s.report := (congrArg State.report hkept :)
  have hrot : t.rot = s.rot := (congrArg State.rot hkept :)
  have hgeom : t.path = s.path := (congrArg State.path hkept :)
  refine ⟨⟨?_, ?_, ?_⟩, ⟨fun c => ?_, ?_⟩, fun j => ?_, fun x hx hstate => ?_, fun x hx hstate => ?_, ?_⟩
  · rw [hslots, List.length_modify, hgeom, hlength]
  · rw [hclips, hcount]
  · rw [hreport, hrot]
    exact hrest
  · rw [clipAt, hclips, hclip]
    exact hplaying c
  · rw [hclip, hplayback]
    exact hlive
  · rw [hat, hnow]
    split
    · next hj =>
      subst hj
      split <;> simp_all
    · next hj =>
      have hother : s.replay.fill ≠ some j := by
        rcases hfill with h | h <;> simp [h, Ne.symm hj]
      refine ⟨fun h => absurd ((hfilling j).1 h) hother, fun h => ?_⟩
      split at h
      · exact absurd (Option.some.inj h).symm hj
      · cases h
  · obtain ⟨j, hj⟩ := List.mem_iff_getElem?.1 hx
    have hxj : x = slotAt t j := by rw [slotAt, List.getD_eq_getElem?_getD, hj]; rfl
    rw [hxj, hat] at hstate ⊢
    split at hstate
    · next h =>
      subst h
      simpa using hbehind hstate
    · next h =>
      rw [if_neg h]
      exact (hfilled _ (slotAt_mem (lt_of_slotAt (by simp [hstate]))) hstate).trans_le hseq
  · rw [hclips] at hx
    exact (hout x hx hstate).trans_le hseq
  · rw [hslots, hclips]
    exact leavesThree_congr hheld hfree

theorem slotHeld_of_fill (hs : RingHolds s) {k : Nat} (h : s.replay.fill = some k) :
    k < s.replay.slots.length ∧ slotHeld s k = false := by
  have hfilling : (slotAt s k).state = .filling := (hs.2.2.1 k).2 h
  exact ⟨lt_of_slotAt (by simp [hfilling]), by simp [slotHeld, heldBy, hfilling]⟩

theorem heldBy_of_not_filled (clips : List Clip) {x : Slot} (h : x.state ≠ .filled) :
    heldBy clips x = false := by simp [heldBy, h]

/-- A sequence from the capture sequence on is in no clip's range (R113). -/
theorem heldBy_of_captureSeq (hs : RingHolds s) {x : Slot} (h : s.replay.captureSeq ≤ x.seq) :
    heldBy s.replay.clips x = false := by
  simp only [heldBy, Bool.and_eq_false_iff, List.any_eq_false, Clip.holds, Bool.and_eq_true, bne_iff_ne,
    decide_eq_true_eq]
  refine .inr fun c hc hholds => ?_
  have := hs.2.2.2.2.1 c hc hholds.1.1
  omega

theorem ringHolds_openInto (hs : RingHolds s) {k : Nat} (hk : k < s.replay.slots.length)
    (hfree : slotHeld s k = false) (hfill : s.replay.fill = none ∨ s.replay.fill = some k) :
    RingHolds (openInto s k) :=
  ringHolds_setSlot (g := fun _ => { Slot.emptied with state := .filling }) hs hk rfl rfl rfl rfl rfl le_rfl
    hfill rfl nofun hfree (heldBy_of_not_filled _ nofun)

theorem ringHolds_emptyFill (hs : RingHolds s) {k : Nat} (h : s.replay.fill = some k) :
    RingHolds (emptyFill s k) :=
  ringHolds_setSlot (g := fun x => { Slot.emptied with writeError := x.writeError }) hs
    (slotHeld_of_fill hs h).1 rfl rfl rfl rfl rfl le_rfl (.inr h) rfl nofun (slotHeld_of_fill hs h).2
    (heldBy_of_not_filled _ nofun)

theorem ringHolds_abandonFrame (hs : RingHolds s) {k : Nat} (h : s.replay.fill = some k)
    (cause : AbandonCause) : RingHolds (abandonFrame s k cause) :=
  ringHolds_of_ledger (ledger_raise _ _ _) (ringHolds_emptyFill hs h)

theorem ringHolds_commitFrame (hs : RingHolds s) {k : Nat} (h : s.replay.fill = some k) :
    RingHolds (commitFrame s k) := by
  unfold commitFrame
  split
  · exact ringHolds_abandonFrame hs h _
  · split
    · exact ringHolds_abandonFrame hs h _
    · exact ringHolds_setSlot (k := k)
        (g := fun x =>
          { x with state := .filled, seq := s.replay.captureSeq, commitFrame := s.comp.frame,
                   stampValue := s.clock.value, stampMode := s.clock.config.mode,
                   stampPeriod := s.clock.period })
        hs (slotHeld_of_fill hs h).1 rfl rfl rfl rfl rfl (Nat.le_succ _) (.inr h) rfl
        (fun _ => Nat.lt_succ_self _) (slotHeld_of_fill hs h).2 (heldBy_of_captureSeq hs le_rfl)

/-! ### The slot of an ingest write (R102, R110) -/

theorem mem_searchOrder {k : Nat} (hk : k < s.replay.slots.length) : k ∈ searchOrder s := by
  let n := s.replay.slots.length
  let r := searchStart s % n
  have hr : r < n := Nat.mod_lt _ (by omega)
  refine List.mem_map.2 ⟨(k + (n - r)) % n, List.mem_range.2 (Nat.mod_lt _ (by omega)), ?_⟩
  calc (searchStart s + (k + (n - r)) % n) % n = (r + (k + (n - r))) % n := by
        rw [Nat.add_mod_mod, ← Nat.mod_add_mod]
    _ = (k + n) % n := by congr 1; omega
    _ = k := by rw [Nat.add_mod_right, Nat.mod_eq_of_lt hk]

theorem nextFill_spec {k : Nat} (h : nextFill s = some k) :
    k < s.replay.slots.length ∧ slotHeld s k = false := by
  have hmem := List.mem_of_find?_eq_some h
  obtain ⟨i, hi, rfl⟩ := List.mem_map.1 hmem
  exact ⟨Nat.mod_lt _ (by have := List.mem_range.1 hi; omega), by simpa using List.find?_some h⟩

/-- Some slot is not held, for where one is, three are not (R110). -/
theorem exists_unheld (hs : SlotsOk s) (hne : s.replay.slots ≠ []) :
    ∃ k, k < s.replay.slots.length ∧ slotHeld s k = false := by
  have hmem : ∃ x ∈ s.replay.slots, heldBy s.replay.clips x = false := by
    by_contra hall
    push Not at hall
    obtain ⟨x, hx⟩ := List.exists_mem_of_ne_nil _ hne
    have hthree := hs.2.2.2 ⟨x, hx, by simpa using hall x hx⟩
    rw [List.filter_eq_nil_iff.2 fun y hy => by simpa using hall y hy] at hthree
    simp at hthree
  obtain ⟨x, hx, hheld⟩ := hmem
  obtain ⟨k, hk, rfl⟩ := List.mem_iff_getElem.1 hx
  exact ⟨k, hk, by rwa [slotHeld, slotAt, List.getD_eq_getElem _ _ hk]⟩

theorem nextFill_isSome (hs : SlotsOk s) (hne : s.replay.slots ≠ []) : ∃ k, nextFill s = some k := by
  obtain ⟨k, hk, hheld⟩ := exists_unheld hs hne
  exact Option.isSome_iff_exists.1 (List.find?_isSome.2 ⟨k, mem_searchOrder hk, by simp [hheld]⟩)

theorem openFor_keeps {first : Bool} {k : Nat} {t : State} (h : openFor s first = some (k, t)) :
    t.replay.fill = some k ∧ t.rot = s.rot ∧ t.report.mode = s.report.mode ∧
      t.replay.playback = s.replay.playback := by
  unfold openFor at h
  split at h
  · obtain ⟨j, -, h⟩ := Option.map_eq_some_iff.1 h
    cases h
    exact ⟨rfl, rfl, rfl, rfl⟩
  · next j hj =>
    split at h <;> cases h
    · exact ⟨rfl, rfl, rfl, rfl⟩
    · exact ⟨hj, rfl, rfl, rfl⟩

theorem ringHolds_openFor (hs : RingHolds s) {first : Bool} {k : Nat} {t : State}
    (h : openFor s first = some (k, t)) : RingHolds t := by
  unfold openFor at h
  split at h
  · next hnone =>
    obtain ⟨j, hj, h⟩ := Option.map_eq_some_iff.1 h
    cases h
    obtain ⟨hk, hheld⟩ := nextFill_spec hj
    exact ringHolds_openInto hs hk hheld (.inl hnone)
  · next j hj =>
    obtain ⟨hk, -⟩ := slotHeld_of_fill hs hj
    split at h <;> cases h
    · have hempty : (slotAt (abandonFrame s k .firstBytes) k).state = .empty := by
        simp [slotAt, abandonFrame, emptyFill, modifySlot, List.getD_eq_getElem?_getD, hk, Slot.emptied]
      refine ringHolds_openInto (ringHolds_abandonFrame hs hj _) ?_
        (heldBy_of_not_filled _ (by simp [hempty])) (.inl rfl)
      simpa [abandonFrame, emptyFill, modifySlot] using hk
    · exact hs

/-! ### The replay unit's FRAME_START (R120) -/

theorem ringHolds_replayPass (hs : RingHolds s) : RingHolds (replayPass s) := by
  have hfill : ∀ t, RingHolds t → RingHolds (abandonFilling t) := fun t ht => by
    unfold abandonFilling
    split
    · next k hk => exact ringHolds_emptyFill ht hk
    · exact ht
  have hdrop : RingHolds (dropWaiting (setReplay s fun r => { r with cutPending := false })) :=
    ringHolds_of_ledger ((ledger_dropWaiting _).trans (ledger_setReplay rfl rfl rfl rfl rfl .rfl)) hs
  unfold replayPass
  refine hfill _ ?_
  split
  · exact hdrop
  · exact ringHolds_returnLive hdrop

theorem playback_replayPass (s : State) : (replayPass s).replay.playback = .live := by
  have hfill : ∀ t, (abandonFilling t).replay.playback = t.replay.playback := fun t => by
    unfold abandonFilling
    split <;> rfl
  unfold replayPass
  rw [hfill]
  split
  · next h => exact h
  · exact playback_returnLive _

theorem ringHolds_replayFrame (hs : RingHolds s) :
    RingHolds (replayFrame s) ∧ PassIsLive (replayFrame s) := by
  have hshown : ∀ t, ledger (markShown t) = ledger t := fun t => by
    unfold markShown
    split
    · exact ledger_setReplay rfl rfl rfl rfl rfl .rfl
    · rfl
  have hplayback : ∀ t, (markShown t).replay.playback = t.replay.playback := fun t => by
    unfold markShown
    split <;> rfl
  have hmode : (replayFrame s).report.mode = s.report.mode :=
    (congrArg (fun t => t.report.mode) (sansReplay_replayFrame s) :)
  unfold PassIsLive
  rw [hmode]
  unfold replayFrame
  split
  · exact ⟨ringHolds_of_ledger (hshown _) (ringHolds_replayPass hs),
      fun _ => (hplayback _).trans (playback_replayPass s)⟩
  · next hlive => exact ⟨ringHolds_of_ledger (hshown _) (ringHolds_replayLive hs), by simp [hlive]⟩

end
end Sys2Proof.SponsorProofs
end

section
/-! What the requests, the captures and the arrivals carry from one state to the next (R37, R108, R113 to
R116, R126 to R131, R173). -/

namespace Sys2Proof.SponsorProofs
open Sys2Proof.Machine Sys2Proof.FrameProofs

section
variable {s : State}

/-- What leaves the rotation unit and the mode carries the invariants if it keeps the ring. -/
theorem carries_of_ring {t : State} (hrot : t.rot = s.rot)
    (h : RingHolds s → PassIsLive s → RingHolds t ∧ PassIsLive t) : Carries s t :=
  ⟨fun hs => by unfold StacksHold StacksOk AccountsOk at hs ⊢; rwa [hrot], fun hs => h hs.1 hs.2⟩

/-- What changes the ring alone, and leaves the playback, carries the invariants if it keeps the ring. -/
theorem carries_of_playback {t : State} (hrot : t.rot = s.rot) (hmode : t.report.mode = s.report.mode)
    (hplayback : t.replay.playback = s.replay.playback) (h : RingHolds s → RingHolds t) :
    Carries s t :=
  carries_of_ring hrot fun hs hpass => ⟨h hs, by unfold PassIsLive; rwa [hmode, hplayback]⟩

/-! ### Requests on the ring (R113 to R116) -/

theorem foldl_max_mem (l : List Nat) (a : Nat) : l.foldl max a = a ∨ l.foldl max a ∈ l := by
  induction l generalizing a with
  | nil => exact .inl rfl
  | cons q l ih =>
    rw [List.foldl_cons]
    rcases ih (max a q) with h | h
    · rcases max_choice a q with hm | hm
      · exact .inl (h.trans hm)
      · exact .inr (by rw [h, hm]; exact List.mem_cons_self)
    · exact .inr (List.mem_cons_of_mem _ h)

/-- Every present sequence is behind the capture sequence (R104). -/
theorem newestSeq_lt (hs : SlotsOk s) (h : 0 < newestSeq s) : newestSeq s < s.replay.captureSeq := by
  rcases foldl_max_mem (filledSeqs s) 0 with hz | hmem
  · exact absurd hz h.ne'
  · obtain ⟨x, hx, hseq⟩ := List.mem_map.1 hmem
    obtain ⟨hx, hfilled⟩ := List.mem_filter.1 hx
    have hlt := hs.2.1 x hx (by simpa using hfilled)
    rwa [hseq] at hlt

theorem outPoint_pos_of_armBadParam {a : ArmParams} (h : armBadParam a = none) :
    a.clip ≤ 15 ∧ 0 < a.outPoint := by
  unfold armBadParam at h
  split at h
  · cases h
  · split at h
    · cases h
    · split at h
      · cases h
      · omega

/-- A clip that is not PLAYING changes into one that is not. -/
theorem playOk_modifyClip (hs : PlayOk s) {c : Nat} {f : Clip → Clip} (hc : c < s.replay.clips.length)
    (hbefore : (clipAt s c).state ≠ .playing) (hafter : (f (clipAt s c)).state ≠ .playing) :
    PlayOk (modifyClip s c f) := by
  refine ⟨fun j => ?_, hs.2⟩
  rw [clipAt_of_modify (s := s) rfl hc]
  split
  · next hj =>
    subst hj
    exact iff_of_false hafter (mt (hs.1 j).2 hbefore)
  · exact hs.1 j

/-- An ARM that passes the checks of R113 writes its clip, any other changes nothing. -/
theorem armRequest_cases (s : State) (a : ArmParams) : (armRequest s a).1 = s ∨
    ((armRequest s a).1 = modifyClip s a.clip (fun _ => armedClip s a) ∧ a.clip ≤ 15 ∧ 0 < a.outPoint ∧
      (clipAt s a.clip).state ≠ .playing ∧ a.outPoint ≤ newestSeq s ∧
      3 ≤ unheldCount s (modifyClip s a.clip fun _ => armedClip s a).replay.clips) := by
  cases hparams : armBadParam a with
  | some v => exact .inl (by simp only [armRequest, hparams])
  | none =>
    obtain ⟨hclip, hpos⟩ := outPoint_pos_of_armBadParam hparams
    simp only [armRequest, hparams, apply_ite Prod.fst]
    repeat' split
    case isFalse.isFalse.isFalse.isFalse.isFalse =>
      refine .inr ⟨rfl, hclip, hpos, ?_, ?_, ?_⟩
      · assumption
      · omega
      · omega
    all_goals exact .inl rfl

theorem carries_armRequest (a : ArmParams) : Carries s (armRequest s a).1 := by
  obtain h | ⟨h, hclip, hpos, hidle, hnewest, hroom⟩ := armRequest_cases s a
  · rw [h]
    exact .refl s
  · rw [h]
    refine carries_of_playback rfl rfl rfl fun hs => ?_
    have hring := hs.2.2
    obtain ⟨⟨hslots, hclips, hrest⟩, hplay, hfilling, hfilled, hout, -⟩ := hs
    refine ⟨⟨hslots, by simpa [modifyClip] using hclips, hrest⟩,
      playOk_modifyClip hplay (by omega) hidle nofun, hfilling, hfilled, fun x hx hstate => ?_,
      fun _ => hroom⟩
    obtain ⟨i, hi⟩ := List.mem_iff_getElem?.1 hx
    obtain ⟨y, hy, rfl⟩ := Option.map_eq_some_iff.1 ((List.getElem?_modify ..).symm.trans hi)
    by_cases hc : a.clip = i
    · simp only [if_pos hc]
      exact hnewest.trans_lt (newestSeq_lt hring (by omega))
    · simp only [if_neg hc] at hstate ⊢
      exact hout y (List.mem_of_getElem? hy) hstate

theorem carries_disarmRequest (c : Nat) : Carries s (disarmRequest s c).1 := by
  unfold disarmRequest
  split
  · exact .refl s
  · split
    · exact .refl s
    · exact .refl s
    · next harmed =>
      have hranges := ranges_modify (s := s) (c := c) (f := fun _ => Clip.emptied) (absurd rfl)
      exact carries_of_playback rfl rfl rfl fun hs =>
        ringHolds_setReplay hs ⟨rfl, rfl, rfl, by simp, hranges⟩
          (playOk_modifyClip hs.2.1 (lt_of_clipAt (by simp [harmed])) (by simp [harmed]) nofun)

theorem ringHolds_emptyRing {t : State} (hs : RingHolds s) (hidle : s.replay.clip = none)
    (hreplay : t.replay = s.replay) (hrot : t.rot = s.rot) (hreport : t.report = s.report) :
    RingHolds (emptyRing t) := by
  obtain ⟨⟨-, -, hrest⟩, ⟨-, hlive⟩, -⟩ := hs
  have hclip : ∀ c, clipAt (emptyRing t) c = .emptied := fun c => by
    simp only [clipAt, emptyRing, setReplay_replay, List.getD_eq_getElem?_getD, List.getElem?_replicate]
    split <;> rfl
  have hslot : ∀ k, slotAt (emptyRing t) k = .emptied := fun k => by
    simp only [slotAt, emptyRing, setReplay_replay, List.getD_eq_getElem?_getD, List.getElem?_replicate]
    split <;> rfl
  refine ⟨⟨List.length_replicate, List.length_replicate, ?_⟩, ⟨fun c => ?_, ?_⟩, fun k => ?_,
    fun x hx hstate => ?_, fun x hx hstate => ?_, fun ⟨x, hx, hheld⟩ => ?_⟩
  · simpa [emptyRing, hreport, hrot] using hrest
  · rw [hclip, emptyRing, setReplay_replay, hreplay, hidle]
    simp [Clip.emptied]
  · simpa [emptyRing, hreplay] using hlive
  · rw [hslot]
    simp [Slot.emptied, emptyRing]
  · obtain rfl : x = .emptied := List.eq_of_mem_replicate hx
    cases hstate
  · obtain rfl : x = .emptied := List.eq_of_mem_replicate hx
    exact absurd rfl hstate
  · obtain rfl : x = .emptied := List.eq_of_mem_replicate hx
    cases hheld

theorem carries_resetRingRequest : Carries s (resetRingRequest s).1 := by
  unfold resetRingRequest
  split
  · exact .refl s
  · next hidle =>
    refine carries_of_playback rfl rfl rfl fun hs => ringHolds_emptyRing hs ?_ rfl rfl rfl
    by_contra hclip
    obtain ⟨c, hc⟩ := Option.ne_none_iff_exists'.1 hclip
    have hplaying := (hs.2.1.1 c).2 hc
    have hmem := clipAt_mem (lt_of_clipAt (s := s) (c := c) (by simp [hplaying]))
    exact hidle (List.any_eq_true.2 ⟨_, hmem, by simp [hplaying]⟩)

theorem carries_replayRequest (x : RequestWord) : Carries s (replayRequest s x).1 := by
  have hwait : ∀ w, ledger (waitFor s w).1 = ledger s := fun w => ledger_supersedeWaiting s
  have hplay : ∀ c, ledger (playRequest s c).1 = ledger s := fun c => by
    simp only [playRequest, apply_ite Prod.fst, apply_ite ledger, hwait, ite_self]
  have hfreeze : ledger (freezeRequest s).1 = ledger s := by
    unfold freezeRequest
    split
    · next h => exact ledger_setReplay rfl rfl rfl rfl rfl (by simp [h])
    all_goals rfl
  have hresume : ledger (replayResumeRequest s).1 = ledger s := by
    unfold replayResumeRequest
    split
    · next h => exact ledger_setReplay rfl rfl rfl rfl rfl (by simp [h])
    all_goals rfl
  have hstep : ∀ d, ledger (stepRequest s d).1 = ledger s := fun d => by
    unfold stepRequest
    repeat' split
    all_goals rfl
  have htake : ledger (takeLiveRequest s).1 = ledger s := by
    unfold takeLiveRequest
    split
    · rfl
    · split
      · rfl
      · simp only [apply_ite Prod.fst, apply_ite ledger, hwait, ite_self]
      all_goals exact hwait _
  unfold replayRequest
  split
  · exact carries_armRequest _
  · exact carries_disarmRequest _
  · exact carries_resetRingRequest
  · exact carries_of_ledger (hplay _)
  · exact carries_of_ledger hfreeze
  · exact carries_of_ledger hresume
  · exact carries_of_ledger (hstep _)
  · exact carries_of_ledger htake
  · exact .refl s

/-! ### The other requests -/

/-- CLEAR_EXPOSURE leaves every accumulator at 0 (R37). -/
theorem carries_clearExposureRequest : Carries s (clearExposureRequest s).1 := by
  refine ⟨fun ⟨hstacks, _⟩ => ⟨hstacks, fun x hx => ?_⟩, fun ⟨⟨⟨h1, h2, h3, h4, h5⟩, hrest⟩, hpass⟩ =>
    ⟨⟨⟨h1, h2, h3, (List.length_map _).trans h4, h5⟩, hrest⟩, hpass⟩⟩
  obtain ⟨y, -, rfl⟩ := List.mem_map.1 hx
  exact Nat.zero_le _

theorem carries_showRequest (x : RequestWord) : Carries s (showRequest s x).1 := by
  have hsupersede : ledger (supersedeMode s) = ledger s := by
    unfold supersedeMode
    split
    · rfl
    · exact ledger_setOutcomeRow s _ _
  have hpend : ∀ m tag, ledger (pendMode s m tag).1 = ledger s := fun m tag => hsupersede
  have hunpend : ledger (unpendMode s).1 = ledger s := hsupersede
  have hlive : ∀ tag, ledger (goLiveRequest s tag).1 = ledger s := fun tag => by
    unfold goLiveRequest
    split
    · rfl
    · split
      · rfl
      · split
        · exact hpend _ _
        · exact hunpend
  have hpass : ∀ tag, ledger (goPassRequest s tag).1 = ledger s := fun tag => by
    unfold goPassRequest
    split
    · rfl
    · split
      · exact hpend _ _
      · exact hunpend
  have hclear : ledger (clearGameRequest s).1 = ledger s := ledger_stopForGame s
  unfold showRequest
  split
  · exact carries_of_ledger (hlive _)
  · exact carries_of_ledger (hpass _)
  · exact carries_of_ledger hclear
  · exact carries_clearExposureRequest
  · exact .refl s

theorem carries_takeRequest (w : ReqWord) : Carries s (takeRequest s w) := by
  refine Carries.trans ?_ (carries_of_ledger (ledger_recordOutcome _ _ _ _ _))
  cases w with
  | showWord => exact carries_showRequest _
  | clockWord => exact carries_of_ledger (ledger_clockRequest s _)
  | sponsorWord => exact carries_of_ledger (ledger_sponsorRequest s _)
  | replayWord => exact carries_replayRequest _
  | tickerWord => exact carries_of_ledger (ledger_tickerRequest s _)
  | spareWord => exact .refl s

/-! ### Captures -/

theorem carries_geometryCaptured (w : WriteReq) (bytes : List (Nat × Byte)) :
    Carries s (geometryCaptured s w bytes) := by
  unfold geometryCaptured
  split
  · next htakes =>
    have hpass : s.report.mode = .pass := by
      simp only [takesGeometry, Bool.and_eq_true, beq_iff_eq] at htakes
      exact htakes.1
    unfold setGeometry
    dsimp only
    split
    · exact carries_of_ring rfl fun hs hlive =>
        ⟨ringHolds_emptyRing hs (hs.2.1.2.1 (hlive hpass)) rfl rfl rfl, hlive⟩
    · next hsame =>
      refine carries_of_ledger ?_
      have hcount : (takenGeometry bytes (readGeometry s.path.shadow) s.path.geom).slotCount =
          s.path.geom.slotCount := by
        simp only [slotGeometryDiffers, Bool.or_eq_true, bne_iff_ne, not_or, not_not] at hsame
        exact hsame.1.1.2
      simp only [ledger, hcount]
  · split
    · exact .refl s
    · exact carries_of_ledger (ledger_raise _ _ _)

theorem carries_reacting {f : State → State} (reached : Bool) (hf : ∀ t, Carries t (f t)) (t : State) :
    Carries t (reacting reached f t) := by
  unfold reacting
  split
  · exact hf t
  · exact .refl t

theorem carries_capture (w : WriteReq) : Carries s (capture s w) := by
  have hconfig : ∀ t bytes, Carries t (configReactions t w bytes) := fun t bytes =>
    (carries_reacting _ (fun u => carries_geometryCaptured w bytes) t).trans
      (carries_reacting _ (fun u => carries_of_ledger (ledger_clockConfigCaptured u)) _)
  have hrecords : ∀ t bytes home away, Carries t (recordReactions t bytes home away) :=
    fun t bytes home away =>
    ((carries_reacting _ (fun u => carries_of_ledger (ledger_teamCaptured u .home home)) t).trans
      (carries_reacting _ (fun u => carries_of_ledger (ledger_teamCaptured u .away away)) _)).trans
      (carries_foldl (fun u i => carries_of_ledger (ledger_sponsorCaptured u i)) _ _)
  have hwords : ∀ t bytes, Carries t (wordReactions t bytes) := fun t bytes =>
    (carries_reacting _ (fun u => carries_of_ledger (t := consumeCaptured u) rfl) t).trans
      (carries_reacting _ (fun u => carries_of_ledger (ledger_tailCaptured u)) _)
  have hrequests : ∀ t ws, Carries t (takeRequests ws t) := fun t ws =>
    takeRequests_keeps (P := Carries t) (fun w u h => h.trans (carries_takeRequest w))
      (fun u h => h.trans (carries_of_ledger (ledger_settle u))) ws t (.refl t)
  exact ((((carries_of_ledger (ledger_mergeCapture s _)).trans (hconfig _ _)).trans
    (hrecords _ _ _ _)).trans (hwords _ _)).trans (hrequests _ _)

/-! ### Arrivals -/

theorem carries_fillWrite (w : WriteReq) {k : Nat} (hfill : s.replay.fill = some k) :
    Carries s (fillWrite s w k) := by
  let u := enterOrder (issueAll s (ingestPieces s.path.geom w k)) w.id .write
    (.ingest k .waiting (outsidePiece s.path.geom w)) 0 1 none
  have hu : ledger u = ledger s := (ledger_enterOrder _ _ _ _ _ _ _).trans (ledger_issueAll s _)
  have hcommit : Carries u (commitFrame u k) := by
    have hrest : (commitFrame u k).rot = u.rot ∧ (commitFrame u k).report.mode = u.report.mode ∧
        (commitFrame u k).replay.playback = u.replay.playback := by
      unfold commitFrame
      split
      · exact ⟨rfl, rfl, rfl⟩
      · split <;> exact ⟨rfl, rfl, rfl⟩
    exact carries_of_playback hrest.1 hrest.2.1 hrest.2.2 fun h =>
      ringHolds_commitFrame h ((congrArg Ledger.fill hu).trans hfill)
  refine (carries_of_ledger hu).trans (Carries.trans ?_ (carries_capture w))
  split
  · exact hcommit
  · exact .refl u

theorem carries_ingestWrite {w : WriteReq} {t : State} (h : ingestWrite s w = some t) : Carries s t := by
  obtain ⟨⟨k, u⟩, hopen, rfl⟩ := Option.map_eq_some_iff.1 h
  obtain ⟨hfill, hrot, hmode, hplayback⟩ := openFor_keeps hopen
  exact (carries_of_playback hrot hmode hplayback fun hs => ringHolds_openFor hs hopen).trans
    (carries_fillWrite w hfill)

theorem carries_arriveWrite {w : WriteReq} {t : State} (h : arriveWrite s w = some t) : Carries s t := by
  have hforward : ledger (forwardWrite s w) = ledger s := rfl
  unfold arriveWrite at h
  split at h
  case h_3 => exact carries_ingestWrite h
  all_goals cases h
  · exact carries_of_ledger rfl
  · exact carries_of_ledger rfl
  · exact (carries_of_ledger hforward).trans (carries_capture w)
  · exact carries_of_ledger hforward

end
end Sys2Proof.SponsorProofs
end

section
/-! The rotation unit's operations placement by placement: each changes its own placement alone, and what it
makes of it (R41, R44 to R49, R55, R56, R58). -/

namespace Sys2Proof.SponsorProofs
open Sys2Proof.Machine Sys2Proof.FrameProofs

/-! ### Operations on one placement -/

/-- No placement but `p` differs. -/
def OnlyPlacement (p : Nat) (s t : State) : Prop :=
  t.rot.placements.length = s.rot.placements.length ∧ ∀ q, q ≠ p → placementAt t q = placementAt s q

theorem OnlyPlacement.trans {p : Nat} {s t u : State} (a : OnlyPlacement p s t)
    (b : OnlyPlacement p t u) : OnlyPlacement p s u :=
  ⟨b.1.trans a.1, fun q hq => (b.2 q hq).trans (a.2 q hq)⟩

theorem placementAt_of_placements {s t : State} (h : t.rot.placements = s.rot.placements) :
    placementAt t = placementAt s := by
  unfold placementAt
  rw [h]

theorem onlyPlacement_of_placements {p : Nat} {s t : State}
    (h : t.rot.placements = s.rot.placements) : OnlyPlacement p s t :=
  ⟨congrArg List.length h, fun _ _ => congrFun (placementAt_of_placements h) _⟩

theorem OnlyPlacement.refl (p : Nat) (s : State) : OnlyPlacement p s s := onlyPlacement_of_placements rfl

section
variable (s : State) (p : Nat)

theorem onlyPlacement_modifyPlacement (f : Placement → Placement) :
    OnlyPlacement p s (modifyPlacement s p f) := by
  refine ⟨List.length_modify .., fun q hq => ?_⟩
  simp [placementAt, modifyPlacement, List.getD_eq_getElem?_getD, Ne.symm hq]

theorem placementAt_modifyPlacement {p : Nat} (hp : p < s.rot.placements.length)
    (f : Placement → Placement) : placementAt (modifyPlacement s p f) p = f (placementAt s p) := by
  simp [placementAt, modifyPlacement, List.getD_eq_getElem?_getD, hp]

theorem placements_raiseDrops (drops : List (Spot × DropCause)) :
    (raiseDrops s p drops).rot.placements = s.rot.placements :=
  congrArg RotationUnit.placements (rot_raiseAll ..)

theorem onlyPlacement_rotEmptyOne : OnlyPlacement p s (rotEmptyOne s p) := by
  have hdrop : ∀ drops, OnlyPlacement p s (raiseDrops (emptyPlacement s p) p drops) := fun drops =>
    (onlyPlacement_modifyPlacement s p _).trans
      (onlyPlacement_of_placements (placements_raiseDrops _ p drops))
  unfold rotEmptyOne
  dsimp only
  refine .trans ?_ (onlyPlacement_modifyPlacement _ p _)
  split
  · exact hdrop _
  · split
    · exact hdrop _
    · exact .refl p s

theorem onlyPlacement_rotSuspend : OnlyPlacement p s (rotSuspend s p) :=
  onlyPlacement_modifyPlacement s p _

theorem onlyPlacement_rotDropSpots : OnlyPlacement p s (rotDropSpots s p) :=
  (onlyPlacement_modifyPlacement s p _).trans (onlyPlacement_of_placements (placements_raiseDrops _ p _))

theorem onlyPlacement_rotEnd (before : State) (returned : Bool) :
    OnlyPlacement p s (rotEnd before returned s p) := onlyPlacement_modifyPlacement s p _

theorem onlyPlacement_selectOn : OnlyPlacement p s (selectOn s p) := by
  unfold selectOn
  split
  · split
    · exact onlyPlacement_modifyPlacement s p _
    · exact .refl p s
  · exact onlyPlacement_modifyPlacement s p _

theorem onlyPlacement_pushSpot (x : Spot) (c : Nat) : OnlyPlacement p s (pushSpot s p x c) := by
  unfold pushSpot
  dsimp only
  split
  all_goals exact (onlyPlacement_modifyPlacement s p _).trans (onlyPlacement_modifyPlacement _ p _)

theorem onlyPlacement_pushWalk (l : List Nat) : OnlyPlacement p s (pushWalk p l s) := by
  induction l generalizing s with
  | nil => exact .refl p s
  | cons i is ih =>
    unfold pushWalk
    split
    · exact ih s
    · split
      · exact ih s
      · split
        · exact onlyPlacement_pushSpot s p _ _
        · exact ((onlyPlacement_modifyPlacement s p _).trans
            (onlyPlacement_of_placements (placements_raiseDrops _ p _))).trans (ih _)

theorem onlyPlacement_pushOn : OnlyPlacement p s (pushOn s p) := by
  unfold pushOn
  split
  · exact onlyPlacement_pushWalk s p _
  · exact .refl p s

theorem onlyPlacement_rotRefill : OnlyPlacement p s (rotRefill s p) := by
  unfold rotRefill
  dsimp only
  split
  · split
    · exact onlyPlacement_selectOn s p
    · exact .refl p s
  · refine .trans ?_ (onlyPlacement_pushOn _ p)
    split
    · exact .refl p s
    · exact onlyPlacement_selectOn s p

end

/-! ### Several placements, each in its turn -/

section
variable {op : State → Nat → State}

/-- Operations on other placements leave a placement. -/
theorem placementAt_foldl_other (hop : ∀ t p, OnlyPlacement p t (op t p)) {l : List Nat} {q : Nat}
    (hq : q ∉ l) (s : State) : placementAt (l.foldl op s) q = placementAt s q := by
  induction l generalizing s with
  | nil => rfl
  | cons p l ih =>
    obtain ⟨hp, hl⟩ := not_or.1 (mt List.mem_cons.2 hq)
    exact (ih hl _).trans ((hop s p).2 q hp)

theorem length_foldl_placements (hop : ∀ t p, OnlyPlacement p t (op t p)) (l : List Nat) (s : State) :
    (l.foldl op s).rot.placements.length = s.rot.placements.length :=
  view_foldl (view := fun t : State => t.rot.placements.length) s (fun t p => (hop t p).1) l

/-- What a placement is after its turn, it is after all. -/
theorem placementAt_foldl_turn (hop : ∀ t p, OnlyPlacement p t (op t p)) {before after : List Nat}
    {q : Nat} (hbefore : q ∉ before) (hafter : q ∉ after) (s : State) :
    placementAt (before.foldl op s) q = placementAt s q ∧
    placementAt ((before ++ q :: after).foldl op s) q = placementAt (op (before.foldl op s) q) q := by
  refine ⟨placementAt_foldl_other hop hbefore s, ?_⟩
  rw [List.foldl_append, List.foldl_cons]
  exact placementAt_foldl_other hop hafter _

/-- An operation that brings its placement from `P` to `Q` brings every placement of a list there. -/
theorem foldl_placements {P Q : Placement → Prop} (hop : ∀ t p, OnlyPlacement p t (op t p))
    (hPQ : ∀ t p, p < t.rot.placements.length → P (placementAt t p) → Q (placementAt (op t p) p))
    {l : List Nat} (hl : l.Nodup) {s : State} {q : Nat} (hq : q ∈ l) (hlt : q < s.rot.placements.length)
    (hs : P (placementAt s q)) : Q (placementAt (l.foldl op s) q) := by
  obtain ⟨before, after, rfl⟩ := List.append_of_mem hq
  obtain ⟨-, hnodup, hdisjoint⟩ := List.nodup_append.1 hl
  have hbefore : q ∉ before := fun h => hdisjoint q h q List.mem_cons_self rfl
  obtain ⟨hat, hturn⟩ := placementAt_foldl_turn hop hbefore (List.nodup_cons.1 hnodup).1 s
  rw [hturn]
  refine hPQ _ q ?_ (hat ▸ hs)
  rwa [length_foldl_placements hop]

end

/-! ### The steps of a LIVE frame (R44) -/

theorem nodup_activeList (s : State) : (activeList s).Nodup := (by decide : placementList.Nodup).filter _

theorem mem_placementList {p : Nat} : p ∈ placementList ↔ p < 4 := by
  simp only [placementList, List.mem_cons, List.not_mem_nil, or_false]
  omega

theorem lt_of_mem_activeList {s : State} {p : Nat} (h : p ∈ activeList s) : p < 4 :=
  mem_placementList.1 (List.mem_filter.1 h).1

/-- What step 4 leaves of the state that step 3 finds. -/
def rotSuspended (s : State) : State := (activeList s).foldl rotSuspend (rotEmpty s)

/-- What step 5 leaves of the state that step 3 finds. -/
def rotDropped (s : State) : State := (activeList s).foldl rotDropSpots (rotSuspended s)

/-- What step 6 leaves of the state that step 3 finds. -/
def rotEnded (returned : Bool) (s : State) : State :=
  (activeList s).foldl (rotEnd (rotEmpty s) returned) (rotDropped s)

/-- What step 7 leaves of the state that step 3 finds. -/
def rotRefilled (returned : Bool) (s : State) : State :=
  (activeList s).foldl rotRefill (rotEnded returned s)

theorem rotFrame_of_live {s : State} (hm : s.report.mode = .live) (hand : List Handover)
    (returned : Bool) : rotFrame s hand returned = rotRefilled returned (rotOpen s hand) := by
  have hmode : (rotOpen s hand).report.mode = .live :=
    (congrArg (fun t => t.report.mode) (sansAccrual_rotOpen s hand) :).trans hm
  unfold rotFrame
  dsimp only
  rw [hmode]
  rfl

section
variable (s : State) (returned : Bool)

@[simp] theorem length_rotEmpty : (rotEmpty s).rot.placements.length = s.rot.placements.length :=
  length_foldl_placements onlyPlacement_rotEmptyOne _ s
@[simp] theorem length_rotSuspended :
    (rotSuspended s).rot.placements.length = s.rot.placements.length :=
  (length_foldl_placements onlyPlacement_rotSuspend _ _).trans (length_rotEmpty s)
@[simp] theorem length_rotDropped : (rotDropped s).rot.placements.length = s.rot.placements.length :=
  (length_foldl_placements onlyPlacement_rotDropSpots _ _).trans (length_rotSuspended s)
@[simp] theorem length_rotEnded :
    (rotEnded returned s).rot.placements.length = s.rot.placements.length :=
  (length_foldl_placements (fun t p => onlyPlacement_rotEnd t p _ _) _ _).trans (length_rotDropped s)
@[simp] theorem length_rotRefilled :
    (rotRefilled returned s).rot.placements.length = s.rot.placements.length :=
  (length_foldl_placements onlyPlacement_rotRefill _ _).trans (length_rotEnded s returned)

end
end Sys2Proof.SponsorProofs
end

section
/-! What each of steps 3 to 6 makes of one placement (R44, R45, R48, R56, R58). -/

namespace Sys2Proof.SponsorProofs
open Sys2Proof.Machine Sys2Proof.FrameProofs

/-! ### One step on one placement -/

/-- Placement `p` is emptied without rotation: its layer is disabled, or its binding has changed (R58). -/
def emptied (s : State) (p : Nat) : Bool := !layerEnable s.path.shadow p || bindingChanged s p

/-- Step 3 on the placement `p`, found as `x` (R58). -/
def emptyStep (s : State) (p : Nat) (x : Placement) : Placement :=
  let f := readPlacement s.path.shadow p
  if !layerEnable s.path.shadow p || f.bound != x.fields.bound then
    { x with fields := f, stack := [], spots := [] }
  else { x with fields := f }

/-- Step 4 on a placement (R44). -/
def suspendStep (s : State) (x : Placement) : Placement :=
  { x with stack := x.stack.filter fun e => !entrySuspended s e }

/-- Why a spot cannot run any more on a placement with these fields (R48). -/
def cannotRun (s : State) (f : PlacementFields) (y : Spot) : Option DropCause :=
  if sponsorSuspended s.path.shadow y.sponsor then some .suspended
  else if f.member y.sponsor then none
  else some .notMember

/-- Step 5 on a placement (R48). -/
def dropStep (s : State) (x : Placement) : Placement :=
  { x with spots := x.spots.filter fun y => (cannotRun s x.fields y).isNone }

/-- Step 6 on a placement (R45, R56). -/
def endStep (returned counts : Bool) (x : Placement) : Placement :=
  if returned && x.fields.bound then endBound x else endTop counts x

section
variable {s : State} {p : Nat} (hp : p < s.rot.placements.length)
include hp

theorem placementAt_rotEmptyOne : placementAt (rotEmptyOne s p) p = emptyStep s p (placementAt s p) := by
  have htake : ∀ t : State, p < t.rot.placements.length →
      placementAt (takeFields t p) p = { placementAt t p with fields := readPlacement t.path.shadow p } :=
    fun t ht => placementAt_modifyPlacement t ht _
  have hempty : ∀ drops, placementAt (takeFields (raiseDrops (emptyPlacement s p) p drops) p) p =
      { placementAt s p with fields := readPlacement s.path.shadow p, stack := [], spots := [] } := by
    intro drops
    have hplaces := placements_raiseDrops (emptyPlacement s p) p drops
    have hpath : (raiseDrops (emptyPlacement s p) p drops).path = s.path :=
      (congrArg State.path (sansRot_raiseDrops (emptyPlacement s p) p drops) :)
    rw [htake _ (by rw [hplaces]; simpa [emptyPlacement] using hp), placementAt_of_placements hplaces,
      hpath, emptyPlacement, placementAt_modifyPlacement s hp]
  unfold rotEmptyOne emptyStep
  dsimp only
  cases layerEnable s.path.shadow p with
  | false => exact hempty _
  | true =>
    cases hb : bindingChanged s p with
    | true => exact (hempty _).trans (if_pos hb).symm
    | false => exact (htake s hp).trans (if_neg (Bool.eq_false_iff.1 hb)).symm

theorem placementAt_rotSuspend : placementAt (rotSuspend s p) p = suspendStep s (placementAt s p) :=
  placementAt_modifyPlacement s hp _

theorem placementAt_rotDropSpots : placementAt (rotDropSpots s p) p = dropStep s (placementAt s p) := by
  rw [rotDropSpots, placementAt_of_placements (placements_raiseDrops _ p _),
    placementAt_modifyPlacement s hp]
  rfl

theorem placementAt_rotEnd (before : State) (returned : Bool) :
    placementAt (rotEnd before returned s p) p =
      endStep returned (topStayed before p) (placementAt s p) :=
  placementAt_modifyPlacement s hp _

end

end Sys2Proof.SponsorProofs
end

section
/-! Step 7 on one placement: the selection, the push of a spot, and what the rotation unit raises (R39, R41,
R42, R46 to R49, R55). -/

namespace Sys2Proof.SponsorProofs
open Sys2Proof.Machine Sys2Proof.FrameProofs

/-! ### What is raised -/

/-- The details of the occurrences of this kind that wait to be taken. -/
def details (k : NoticeKind) (s : State) : List (List Byte) := detailsOf k s.report.raised

/-- The detail of SPOT_DROPPED for this spot of placement `p` (ch. 12.6). -/
def dropDetail (p : Nat) (y : Spot) (c : DropCause) : List Byte := layout 16 (spotDroppedDetail p (y, c))

/-- What `s` has raised, `t` has raised. -/
def Appends (s t : State) : Prop := s.report.raised <+: t.report.raised

theorem Appends.refl (s : State) : Appends s s := List.prefix_rfl

theorem Appends.trans {s t u : State} (a : Appends s t) (b : Appends t u) : Appends s u :=
  List.IsPrefix.trans a b

theorem appends_of_raised {s t : State} (h : t.report.raised = s.report.raised) : Appends s t := by
  unfold Appends
  rw [h]

theorem Appends.details_subset {s t : State} (h : Appends s t) (k : NoticeKind) :
    details k s ⊆ details k t := by
  obtain ⟨l, hl⟩ := h
  rw [details, details, ← hl, detailsOf_append]
  exact List.subset_append_left _ _

theorem appends_foldl {op : State → Nat → State} (h : ∀ t p, Appends t (op t p)) (l : List Nat)
    (s : State) : Appends s (l.foldl op s) := by
  induction l generalizing s with
  | nil => exact .refl s
  | cons p l ih => exact (h s p).trans (ih _)

theorem appends_raise (s : State) (k : NoticeKind) (d : List (Nat × List Byte)) :
    Appends s (raise s k d) := List.prefix_append _ _

theorem details_raise (s : State) (k : NoticeKind) (d : List (Nat × List Byte)) :
    details k (raise s k d) = details k s ++ [layout 16 d] := by
  rw [details, raise, raiseReport, detailsOf_append]
  simp [details, detailsOf]

section
variable (s : State) (p : Nat) (drops : List (Spot × DropCause))

theorem path_raiseDrops : (raiseDrops s p drops).path = s.path :=
  (congrArg State.path (sansRot_raiseDrops s p drops) :)

theorem appends_raiseDrops : Appends s (raiseDrops s p drops) := by
  obtain ⟨l, -, hraised⟩ := raised_raiseAll s .spotDropped (fun x => x.1.sponsor) (spotDroppedDetail p)
    drops
  exact ⟨_, hraised.symm⟩

theorem mem_details_raiseDrops {d : List Byte} : d ∈ details .spotDropped (raiseDrops s p drops) ↔
    d ∈ details .spotDropped s ∨ ∃ x ∈ drops, d = dropDetail p x.1 x.2 := by
  obtain ⟨l, hl, hraised⟩ := raised_raiseAll s .spotDropped (fun x => x.1.sponsor)
    (spotDroppedDetail p) drops
  rw [details, raiseDrops, hraised, detailsOf_append,
    detailsOf_map .spotDropped (fun x => layout 16 (spotDroppedDetail p x)), List.mem_append,
    List.mem_map]
  refine or_congr .rfl (exists_congr fun x => ?_)
  rw [hl.mem_iff]
  exact and_congr_right fun _ => eq_comm

end

/-! ### The priority order (R39) and the pointer rule (R42) -/

theorem find?_map_range_eq_some {f : Nat → Nat} {n i : Nat} {P : Nat → Bool}
    (h : ((List.range n).map f).find? P = some i) :
    ∃ k < n, i = f k ∧ P i = true ∧ ∀ j < k, P (f j) = false := by
  obtain ⟨hP, k, hk, hget, hbefore⟩ := List.find?_eq_some_iff_getElem.1 h
  simp only [List.length_map, List.length_range] at hk
  refine ⟨k, hk, by simpa using hget.symm, hP, fun j hj => ?_⟩
  simpa using hbefore j hj

/-- Every sponsor has a place in the priority order. -/
theorem mem_priorityOrder {l i : Nat} : i ∈ priorityOrder l ↔ i < 32 := by
  rw [priorityOrder, List.mem_map]
  constructor
  · rintro ⟨k, -, rfl⟩
    omega
  · intro hi
    exact ⟨(i + 63 - l % 32) % 32, List.mem_range.2 (by omega), by omega⟩

theorem nodup_priorityOrder (l : Nat) : (priorityOrder l).Nodup := by
  refine List.Nodup.map_on (fun a ha b hb hab => ?_) List.nodup_range
  rw [List.mem_range] at ha hb
  omega

/-- Creative `c` of sponsor `i` is in use and fits placement `p` (R33). -/
def Usable (m : Memory) (p i c : Nat) : Prop := c < 8 ∧ usableOn m p (sponsorCreative m i c) = true

section
variable {s : State} {p i : Nat}

theorem usable_of_nextCreative {c : Nat} (h : nextCreative s p i = some c) :
    Usable s.path.shadow p i c ∧ ∃ n < 8, c = ((sponsorAt s i).pointer + n) % 8 ∧
      ∀ j < n, ¬Usable s.path.shadow p i (((sponsorAt s i).pointer + j) % 8) := by
  obtain ⟨n, hn, hc, husable, hbefore⟩ := find?_map_range_eq_some h
  refine ⟨⟨by omega, husable⟩, n, hn, hc, fun j hj hu => ?_⟩
  rw [Usable, hbefore j hj] at hu
  cases hu.2

theorem nextCreative_isSome_iff :
    (nextCreative s p i).isSome = true ↔ ∃ c, Usable s.path.shadow p i c := by
  constructor
  · intro h
    obtain ⟨c, hc⟩ := Option.isSome_iff_exists.1 h
    exact ⟨c, (usable_of_nextCreative hc).1⟩
  · rintro ⟨c, hc, hu⟩
    refine List.find?_isSome.2 ⟨c, List.mem_map.2
      ⟨(c + 8 - (sponsorAt s i).pointer % 8) % 8, List.mem_range.2 (by omega), by omega⟩, hu⟩

/-! ### Selection (R41) -/

theorem inStack_iff (stack : List StackEntry) (i : Nat) :
    inStack stack i = true ↔ ∃ e ∈ stack, e.sponsor = some i := by
  simp [inStack]

theorem eligible_iff : eligible s p i = true ↔ (placementAt s p).fields.member i = true ∧
    sponsorState s i = .ready ∧ (∃ c, Usable s.path.shadow p i c) ∧
    ∀ e ∈ (placementAt s p).stack, e.sponsor ≠ some i := by
  simp only [eligible, Bool.and_eq_true, beq_iff_eq, nextCreative_isSome_iff, Bool.not_eq_true',
    Bool.eq_false_iff, Ne, inStack_iff, not_exists, not_and, and_assoc]

theorem onOtherTop_iff : onOtherTop s p i = true ↔ ∃ r, r < 4 ∧ r ≠ p ∧
    ∃ e, (placementAt s r).stack.getLast? = some e ∧ e.sponsor = some i := by
  simp only [onOtherTop, List.any_eq_true, mem_placementList, Bool.and_eq_true, bne_iff_ne, topEntry,
    Option.any_eq_true, beq_iff_eq]

/-- Sponsor `n` of the priority order on placement `p` (R39). -/
def orderAt (s : State) (p n : Nat) : Nat := ((placementAt s p).lowest + 1 + n) % 32

/-- Which sponsor a selection takes (R41). -/
theorem selectSponsor_spec (h : selectSponsor s p = some i) :
    ∃ k < 32, i = orderAt s p k ∧ eligible s p i = true ∧
      ((placementAt s p).fields.separate = false →
        ∀ n < k, eligible s p (orderAt s p n) = false) ∧
      ((placementAt s p).fields.separate = true →
        (onOtherTop s p i = false ∧ ∀ n < k, eligible s p (orderAt s p n) = true →
          onOtherTop s p (orderAt s p n) = true) ∨
        ((∀ n < 32, eligible s p (orderAt s p n) = true → onOtherTop s p (orderAt s p n) = true) ∧
          ∀ n < k, eligible s p (orderAt s p n) = false)) := by
  unfold selectSponsor at h
  dsimp only at h
  split at h
  · next hsep =>
    rcases Option.or_eq_some_iff.1 h with h | ⟨hnone, h⟩
    · obtain ⟨k, hk, hi, helig, hbefore⟩ := find?_map_range_eq_some h
      rw [Bool.and_eq_true, Bool.not_eq_true'] at helig
      refine ⟨k, hk, hi, helig.1, fun hs => by simp [hs] at hsep, fun _ =>
        .inl ⟨helig.2, fun n hn he => ?_⟩⟩
      have := hbefore n hn
      rw [orderAt] at he ⊢
      simpa [he] using this
    · obtain ⟨k, hk, hi, helig, hbefore⟩ := find?_map_range_eq_some h
      refine ⟨k, hk, hi, helig, fun _ => hbefore, fun _ => .inr ⟨fun n hn he => ?_, hbefore⟩⟩
      have := List.find?_eq_none.1 hnone (orderAt s p n)
        (List.mem_map.2 ⟨n, List.mem_range.2 hn, rfl⟩)
      simpa [he] using this
  · next hsep =>
    obtain ⟨k, hk, hi, helig, hbefore⟩ := find?_map_range_eq_some h
    exact ⟨k, hk, hi, helig, fun _ => hbefore, fun hs => absurd hs hsep⟩

/-- Without a sponsor to take, none is eligible (R47). -/
theorem not_eligible_of_selectSponsor (h : selectSponsor s p = none) (hi : i < 32) :
    eligible s p i = false := by
  have hplain : (priorityOrder (placementAt s p).lowest).find? (eligible s p) = none := by
    unfold selectSponsor at h
    dsimp only at h
    split at h
    · exact (Option.or_eq_none_iff.1 h).2
    · exact h
  exact Bool.eq_false_iff.2 (List.find?_eq_none.1 hplain i (mem_priorityOrder.2 hi))

end

/-! ### The push (R49) -/

/-- The SPOT entry of a spot that runs with creative `c` (R49). -/
def spotEntry (m : Memory) (y : Spot) (c : Nat) : StackEntry :=
  { kind := .spot, sponsor := some y.sponsor, creative := sponsorCreative m y.sponsor c,
    dwell := some y.dwell, endMark := false }

/-- The spots of the sponsors that are not among these. -/
def spotsBut (gone : List Nat) (spots : List Spot) : List Spot :=
  spots.filter fun y => !gone.contains y.sponsor

theorem mem_spotsBut {gone : List Nat} {spots : List Spot} {y : Spot} :
    y ∈ spotsBut gone spots ↔ y ∈ spots ∧ y.sponsor ∉ gone := by
  simp [spotsBut, List.mem_filter]

theorem spotsBut_nil (spots : List Spot) : spotsBut [] spots = spots := by simp [spotsBut]

theorem spotsBut_spotsBut (a b : List Nat) (spots : List Spot) :
    spotsBut a (spotsBut b spots) = spotsBut (b ++ a) spots := by
  simp only [spotsBut, List.filter_filter]
  exact List.filter_congr fun y _ => by simp [Bool.and_comm]

section
variable {s : State} {p : Nat} (hp : p < s.rot.placements.length)
include hp

theorem placementAt_removeSpot (i : Nat) : placementAt (removeSpot s p i) p =
    { placementAt s p with spots := spotsBut [i] (placementAt s p).spots } := by
  rw [removeSpot, placementAt_modifyPlacement s hp]
  congr 1
  exact List.filter_congr fun y _ => by simp [bne, beq_eq_decide]

theorem placementAt_pushSpot (y : Spot) (c : Nat) : placementAt (pushSpot s p y c) p =
    { placementAt s p with
      stack := (placementAt s p).stack ++ [spotEntry s.path.shadow y c]
      spots := spotsBut [y.sponsor] (placementAt s p).spots } := by
  have hlen : p < (removeSpot s p y.sponsor).rot.placements.length := by simpa [removeSpot] using hp
  have hpush : placementAt (pushSpot s p y c) p = placementAt (modifyPlacement (removeSpot s p y.sponsor) p
      fun x => { x with stack := x.stack ++ [spotEntry s.path.shadow y c] }) p := by
    unfold pushSpot
    dsimp only
    split <;> rfl
  rw [hpush, placementAt_modifyPlacement _ hlen, placementAt_removeSpot hp]

end

theorem sponsorAt_movePointer_other (s : State) {i j : Nat} (h : j ≠ i) (c : Nat) :
    sponsorAt (movePointer s i c) j = sponsorAt s j := by
  simp [movePointer, modifySponsor, sponsorAt, List.getD_eq_getElem?_getD, Ne.symm h]

theorem sponsorAt_pushSpot (s : State) (p : Nat) (y : Spot) (c : Nat) {j : Nat} (h : j ≠ y.sponsor) :
    sponsorAt (pushSpot s p y c) j = sponsorAt s j := by
  unfold pushSpot
  dsimp only
  split
  · rw [sponsorAt_movePointer_other _ h]
    rfl
  · rfl

/-- What a walk over the sponsors `l` comes to when it has dropped the spots of `gone`: it has pushed no
spot, or that of the sponsor between `before` and `after` (R49). -/
inductive WalkEnds (p : Nat) (s t : State) (l gone : List Nat) : Prop
  | rest
      (placement : placementAt t p =
        { placementAt s p with spots := spotsBut gone (placementAt s p).spots })
      (left : ∀ y ∈ spotsBut gone (placementAt s p).spots, y.sponsor ∈ l →
        inStack (placementAt s p).stack y.sponsor = true)
      (sponsors : t.rot.sponsors = s.rot.sponsors)
  | push (before after : List Nat) (y : Spot) (c : Nat)
      (order : l = before ++ y.sponsor :: after)
      (subset : gone ⊆ before)
      (waiting : y ∈ (placementAt s p).spots)
      (out : inStack (placementAt s p).stack y.sponsor = false)
      (creative : spotCreative s p y = some c)
      (placement : placementAt t p =
        { placementAt s p with
          stack := (placementAt s p).stack ++ [spotEntry s.path.shadow y c]
          spots := spotsBut (gone ++ [y.sponsor]) (placementAt s p).spots })
      (left : ∀ z ∈ spotsBut (gone ++ [y.sponsor]) (placementAt s p).spots, z.sponsor ∈ before →
        inStack (placementAt s p).stack z.sponsor = true)
      (sponsors : ∀ j, j ≠ y.sponsor → sponsorAt t j = sponsorAt s j)

/-- A walk drops this sponsor's spot: no entry of the stack is his, and SPOT_DROPPED is raised (R49). -/
def WalkDrops (p : Nat) (s t : State) (l : List Nat) (i : Nat) : Prop :=
  i ∈ l ∧ inStack (placementAt s p).stack i = false ∧
    ∃ y ∈ (placementAt s p).spots, y.sponsor = i ∧ dropDetail p y .noCreative ∈ details .spotDropped t

/-- The next sponsor's spot is not pushed. -/
theorem WalkEnds.cons {p i : Nat} {s t : State} {l gone : List Nat} (h : WalkEnds p s t l gone)
    (hi : ∀ y ∈ (placementAt s p).spots, y.sponsor = i → inStack (placementAt s p).stack i = true) :
    WalkEnds p s t (i :: l) gone := by
  cases h with
  | rest placement left sponsors =>
    refine .rest placement (fun y hy hl => ?_) sponsors
    rcases List.mem_cons.1 hl with he | hl
    · exact he ▸ hi y (mem_spotsBut.1 hy).1 he
    · exact left y hy hl
  | push before after y c order subset waiting out creative placement left sponsors =>
    refine .push (i :: before) after y c (by rw [order]; rfl) (fun j hj => List.mem_cons_of_mem _ (subset hj))
      waiting out creative placement (fun z hz hl => ?_) sponsors
    rcases List.mem_cons.1 hl with he | hl
    · exact he ▸ hi z (mem_spotsBut.1 hz).1 he
    · exact left z hz hl

/-- The next sponsor's spot is dropped before the rest of the walk. -/
theorem WalkEnds.cons_drop {p i : Nat} {s u t : State} {l gone : List Nat} (h : WalkEnds p u t l gone)
    (hplace : placementAt u p = { placementAt s p with spots := spotsBut [i] (placementAt s p).spots })
    (hsponsors : u.rot.sponsors = s.rot.sponsors) (hpath : u.path = s.path) :
    WalkEnds p s t (i :: l) (i :: gone) := by
  have hspots : ∀ a, spotsBut a (placementAt u p).spots = spotsBut ([i] ++ a) (placementAt s p).spots :=
    fun a => by rw [hplace, spotsBut_spotsBut]
  have hat : ∀ j, sponsorAt u j = sponsorAt s j := fun j => by rw [sponsorAt, hsponsors]; rfl
  have hstack : (placementAt u p).stack = (placementAt s p).stack := by rw [hplace]
  cases h with
  | rest placement left sponsors =>
    refine .rest (by rw [placement, hspots, hplace]; rfl) (fun y hy hl => ?_) (sponsors.trans hsponsors)
    rcases List.mem_cons.1 hl with he | hl
    · exact absurd (he ▸ List.mem_cons_self) (mem_spotsBut.1 hy).2
    · exact hstack ▸ left y (by rw [hspots]; exact hy) hl
  | push before after y c order subset waiting out creative placement left sponsors =>
    have hcreative : spotCreative u p y = spotCreative s p y := by
      simp only [spotCreative, nextCreative, hat, hpath]
    refine .push (i :: before) after y c (by rw [order]; rfl)
      (List.cons_subset_cons _ subset) ?_ (hstack ▸ out) (hcreative ▸ creative) ?_
      (fun z hz hl => ?_) (fun j hj => (sponsors j hj).trans (hat j))
    · rw [hplace] at waiting
      exact (mem_spotsBut.1 waiting).1
    · rw [placement, hspots, hstack, hpath, hplace]
      rfl
    · rcases List.mem_cons.1 hl with he | hl
      · exact absurd (he ▸ List.mem_cons_self) (mem_spotsBut.1 hz).2
      · exact hstack ▸ left z (by rw [hspots]; exact hz) hl

theorem appends_pushWalk (p : Nat) (l : List Nat) (s : State) : Appends s (pushWalk p l s) := by
  induction l generalizing s with
  | nil => exact .refl s
  | cons i is ih =>
    unfold pushWalk
    split
    · exact ih s
    · split
      · exact ih s
      · split
        · refine appends_of_raised ?_
          unfold pushSpot
          dsimp only
          split <;> rfl
        · exact (appends_raiseDrops (removeSpot s p i) p _).trans (ih _)

/-- What the walk of R49 comes to. -/
theorem walkEnds_pushWalk {p : Nat} (l : List Nat) {s : State} (hp : p < s.rot.placements.length) :
    ∃ gone, (∀ i ∈ gone, WalkDrops p s (pushWalk p l s) l i) ∧
      WalkEnds p s (pushWalk p l s) l gone := by
  induction l generalizing s with
  | nil => exact ⟨[], nofun, .rest (by rw [spotsBut_nil]; rfl) nofun rfl⟩
  | cons i is ih =>
    have skip : (∀ y ∈ (placementAt s p).spots, y.sponsor = i →
        inStack (placementAt s p).stack i = true) → pushWalk p (i :: is) s = pushWalk p is s →
        ∃ gone, (∀ j ∈ gone, WalkDrops p s (pushWalk p (i :: is) s) (i :: is) j) ∧
          WalkEnds p s (pushWalk p (i :: is) s) (i :: is) gone := by
      intro hi heq
      obtain ⟨gone, hdrops, hends⟩ := ih hp
      rw [heq]
      exact ⟨gone, fun j hj => ⟨List.mem_cons_of_mem _ (hdrops j hj).1, (hdrops j hj).2⟩, hends.cons hi⟩
    cases hfind : (placementAt s p).spots.find? (fun x => x.sponsor == i) with
    | none =>
      refine skip (fun y hy he => ?_) (by simp only [pushWalk, hfind])
      exact absurd (by simpa using he) (List.find?_eq_none.1 hfind y hy)
    | some y =>
      have hy := List.mem_of_find?_eq_some hfind
      obtain rfl : y.sponsor = i := by simpa using List.find?_some hfind
      cases hin : inStack (placementAt s p).stack y.sponsor with
      | true => exact skip (fun _ _ _ => hin) (by simp only [pushWalk, hfind, hin, if_true])
      | false =>
        cases hc : spotCreative s p y with
        | some c =>
          have heq : pushWalk p (y.sponsor :: is) s = pushSpot s p y c := by
            simp only [pushWalk, hfind, hin, hc, Bool.false_eq_true, if_false]
          rw [heq]
          refine ⟨[], nofun, .push [] is y c rfl (List.nil_subset _) hy hin hc
            (placementAt_pushSpot hp y c) (fun _ _ h => nomatch h)
            fun j hj => sponsorAt_pushSpot s p y c hj⟩
        | none =>
          have heq : pushWalk p (y.sponsor :: is) s =
              pushWalk p is (raiseDrops (removeSpot s p y.sponsor) p [(y, .noCreative)]) := by
            simp only [pushWalk, hfind, hin, hc, Bool.false_eq_true, if_false]
          generalize hu : raiseDrops (removeSpot s p y.sponsor) p [(y, .noCreative)] = u at heq
          have hrot : u.rot = (removeSpot s p y.sponsor).rot := hu ▸ rot_raiseAll ..
          have hpath : u.path = s.path := by
            rw [← hu, path_raiseDrops]
            rfl
          have hplace : placementAt u p =
              { placementAt s p with spots := spotsBut [y.sponsor] (placementAt s p).spots } := by
            rw [placementAt_of_placements (congrArg RotationUnit.placements hrot),
              placementAt_removeSpot hp]
          obtain ⟨gone, hdrops, hends⟩ := ih (s := u) (by rw [hrot]; simpa [removeSpot] using hp)
          rw [heq]
          refine ⟨y.sponsor :: gone, fun j hj => ?_,
            hends.cons_drop hplace (by rw [hrot]; rfl) hpath⟩
          rcases List.mem_cons.1 hj with rfl | hj
          · refine ⟨List.mem_cons_self, hin, y, hy, rfl, (appends_pushWalk p is u).details_subset _ ?_⟩
            rw [← hu]
            exact (mem_details_raiseDrops _ p _).2 (.inr ⟨_, List.mem_singleton_self _, rfl⟩)
          · obtain ⟨hmem, hout, z, hz, hzj, hdetail⟩ := hdrops j hj
            rw [hplace] at hout hz
            exact ⟨List.mem_cons_of_mem _ hmem, hout, z, (mem_spotsBut.1 hz).1, hzj, hdetail⟩

end Sys2Proof.SponsorProofs
end

section
/-! The form of the stacks through a FRAME_START (R43, R44). -/

namespace Sys2Proof.SponsorProofs
open Sys2Proof.Machine Sys2Proof.FrameProofs

/-! ### Stacks with and without a bottom -/

/-- SPOT entries that wait for a bottom (R46): room for it, on a placement that is not bound. -/
def Bottomless (x : Placement) : Prop :=
  x.stack.length ≤ 2 ∧ (∀ e ∈ x.stack, e.kind = .spot) ∧ (x.stack.filterMap StackEntry.sponsor).Nodup ∧
  x.fields.bound = false

/-- What steps 4 to 6 may leave of a stack, and what step 7 finds. -/
def Refillable (x : Placement) : Prop := StackOk x ∨ Bottomless x

theorem stackOk_of_nil {x : Placement} (h : x.stack = []) : StackOk x := by simp [StackOk, h]

theorem stackOk_cons_iff {x : Placement} {b : StackEntry} {es : List StackEntry} (h : x.stack = b :: es) :
    StackOk x ↔ es.length ≤ 2 ∧ b.kind ≠ .spot ∧ (∀ e ∈ es, e.kind = .spot) ∧
      ((b :: es).filterMap StackEntry.sponsor).Nodup ∧ (x.fields.bound = true → es = []) := by
  simp [StackOk, h, Nat.lt_succ_iff]

theorem stackOk_of_form {x y : Placement} (h : placementForm y = placementForm x) (hx : StackOk x) :
    StackOk y := by
  rw [stackOk_iff_form, h, ← stackOk_iff_form]
  exact hx

theorem bottomless_of_form {x y : Placement} (h : placementForm y = placementForm x)
    (hx : Bottomless x) : Bottomless y := by
  have hiff : ∀ z : Placement, Bottomless z ↔ (placementForm z).1.length ≤ 2 ∧
      (∀ e ∈ (placementForm z).1, e.1 = .spot) ∧ ((placementForm z).1.filterMap Prod.snd).Nodup ∧
      (placementForm z).2 = false := fun z => by
    simp [Bottomless, placementForm, List.filterMap_map]
  rwa [hiff, h, ← hiff]

theorem refillable_of_form {x y : Placement} (h : placementForm y = placementForm x)
    (hx : Refillable x) : Refillable y :=
  hx.imp (stackOk_of_form h) (bottomless_of_form h)

/-- A stack that loses entries stands on its bottom or waits for one. -/
theorem refillable_of_sublist {x y : Placement} (hx : Refillable x) (hbound : y.fields.bound = x.fields.bound)
    (hsub : y.stack.Sublist x.stack) : Refillable y := by
  have hnodup := (hsub.filterMap StackEntry.sponsor).nodup
  rcases hx with hx | ⟨hlength, hspots, hdistinct, hfree⟩
  · cases hstack : x.stack with
    | nil =>
      rw [hstack, List.sublist_nil] at hsub
      exact .inl (stackOk_of_nil hsub)
    | cons b es =>
      obtain ⟨hlength, hbottom, hspots, hdistinct, hone⟩ := (stackOk_cons_iff hstack).1 hx
      rw [hstack] at hsub hnodup
      rcases List.sublist_cons_iff.1 hsub with hsub | ⟨fs, hy, hsub⟩
      · by_cases hb : x.fields.bound = true
        · rw [hone hb, List.sublist_nil] at hsub
          exact .inl (stackOk_of_nil hsub)
        · exact .inr ⟨hsub.length_le.trans hlength, fun e he => hspots e (hsub.subset he),
            hnodup hdistinct, by simpa [hbound] using hb⟩
      · refine .inl ((stackOk_cons_iff hy).2 ⟨hsub.length_le.trans hlength, hbottom,
          fun e he => hspots e (hsub.subset he), hy ▸ hnodup hdistinct, fun hb => ?_⟩)
        rw [hone (hbound ▸ hb), List.sublist_nil] at hsub
        exact hsub
  · exact .inr ⟨hsub.length_le.trans hlength, fun e he => hspots e (hsub.subset he), hnodup hdistinct,
      hbound.trans hfree⟩

/-! ### Steps 3 to 6 -/

section
variable {s : State} {p : Nat} (hp : p < s.rot.placements.length)
include hp

/-- Step 3 of R44: a placement that changes its binding is emptied (R58). -/
theorem stackOk_rotEmptyOne (h : StackOk (placementAt s p)) : StackOk (placementAt (rotEmptyOne s p) p) := by
  rw [placementAt_rotEmptyOne hp, emptyStep]
  split
  · exact stackOk_of_nil rfl
  · next hsame =>
    simp only [Bool.or_eq_true, bne_iff_ne, not_or, not_not] at hsame
    refine stackOk_of_form ?_ h
    rw [placementForm, placementForm, hsame.2]

theorem refillable_rotSuspend (h : StackOk (placementAt s p)) :
    Refillable (placementAt (rotSuspend s p) p) := by
  rw [placementAt_rotSuspend hp]
  exact refillable_of_sublist (.inl h) rfl List.filter_sublist

theorem refillable_rotDropSpots (h : Refillable (placementAt s p)) :
    Refillable (placementAt (rotDropSpots s p) p) := by
  rw [placementAt_rotDropSpots hp]
  exact refillable_of_form rfl h

end

theorem form_loseFrame (stack : List StackEntry) :
    (loseFrame stack).map (fun e => (e.kind, e.sponsor)) = stack.map fun e => (e.kind, e.sponsor) := by
  induction stack with
  | nil => rfl
  | cons e es ih =>
    cases es with
    | nil => rfl
    | cons e' es =>
      rw [loseFrame, List.map_cons, ih]
      rfl

theorem refillable_endTop {x : Placement} (counts : Bool) (h : Refillable x) :
    Refillable (endTop counts x) := by
  unfold endTop
  split
  · exact h
  · split
    · exact refillable_of_sublist h rfl (List.dropLast_sublist _)
    · split
      · exact refillable_of_form (by simp [placementForm, form_loseFrame]) h
      · exact h

theorem refillable_endBound {x : Placement} (h : Refillable x) : Refillable (endBound x) := by
  unfold endBound
  split
  · exact h
  · exact .inl (stackOk_of_nil rfl)

theorem refillable_rotEnd {s : State} {p : Nat} (hp : p < s.rot.placements.length) (before : State)
    (returned : Bool) (h : Refillable (placementAt s p)) :
    Refillable (placementAt (rotEnd before returned s p) p) := by
  rw [placementAt_rotEnd hp, endStep]
  split
  · exact refillable_endBound h
  · exact refillable_endTop _ h

/-! ### Step 7: selection (R41, R46, R47) -/

theorem eligible_of_selectSponsor {s : State} {p i : Nat} (h : selectSponsor s p = some i) :
    eligible s p i = true := by
  unfold selectSponsor at h
  dsimp only at h
  split at h
  · rcases Option.or_eq_some_iff.1 h with h | ⟨-, h⟩
    · have := List.find?_some h
      simp only [Bool.and_eq_true] at this
      exact this.1
    · exact List.find?_some h
  · exact List.find?_some h

/-- A selection puts the entry of an eligible sponsor at the bottom, or the FALLBACK entry (R41, R47). -/
theorem selectOn_cases (s : State) (p : Nat) :
    (∃ i c, selectSponsor s p = some i ∧ nextCreative s p i = some c ∧
      selectOn s p = movePointer (putBottom s p (selectedEntry s p i c)) i c) ∨
    (selectSponsor s p = none ∧
      selectOn s p = raise (putBottom s p (fallbackEntry s p)) .fallbackShown [(0, leBytes 1 p)]) := by
  cases hselect : selectSponsor s p with
  | none => exact .inr ⟨rfl, by simp only [selectOn, hselect]⟩
  | some i =>
    have helig := eligible_of_selectSponsor hselect
    simp only [eligible, Bool.and_eq_true] at helig
    obtain ⟨c, hc⟩ := Option.isSome_iff_exists.1 helig.1.2
    exact .inl ⟨i, c, rfl, hc, by simp only [selectOn, hselect, hc]⟩

/-- What a selection puts at the bottom is no SPOT, and its sponsor is in no entry of the stack. -/
theorem selectOn_bottom {s : State} {p : Nat} (hp : p < s.rot.placements.length) :
    ∃ b, placementAt (selectOn s p) p = { placementAt s p with stack := b :: (placementAt s p).stack } ∧
      b.kind ≠ .spot ∧ ∀ i, b.sponsor = some i → inStack (placementAt s p).stack i = false := by
  obtain ⟨i, c, hselect, -, h⟩ | ⟨-, h⟩ := selectOn_cases s p
  · refine ⟨selectedEntry s p i c, ?_, ?_, fun j hj => ?_⟩
    · rw [h]
      exact placementAt_modifyPlacement s hp _
    · unfold selectedEntry
      dsimp only
      split <;> simp
    · have helig := eligible_of_selectSponsor hselect
      simp only [eligible, Bool.and_eq_true, Bool.not_eq_true'] at helig
      obtain rfl : i = j := Option.some.inj hj
      exact helig.2
  · refine ⟨fallbackEntry s p, ?_, nofun, nofun⟩
    rw [h]
    exact placementAt_modifyPlacement s hp _

/-- A bottom whose sponsor is not in the stack completes it. -/
theorem stackOk_putBottom {x y : Placement} {b : StackEntry} (hx : Bottomless x ∨ x.stack = [])
    (hstack : y.stack = b :: x.stack) (hbound : y.fields.bound = x.fields.bound) (hb : b.kind ≠ .spot)
    (hnew : ∀ i, b.sponsor = some i → inStack x.stack i = false) : StackOk y := by
  rw [stackOk_cons_iff hstack]
  rcases hx with ⟨hlength, hspots, hdistinct, hfree⟩ | hnil
  · refine ⟨hlength, hb, hspots, ?_, by simp [hbound, hfree]⟩
    cases hsponsor : b.sponsor with
    | none => rwa [List.filterMap_cons_none hsponsor]
    | some i =>
      rw [List.filterMap_cons_some hsponsor, List.nodup_cons]
      refine ⟨fun hmem => ?_, hdistinct⟩
      have hin := hnew i hsponsor
      rw [(inStack_iff _ i).2 (List.mem_filterMap.1 hmem)] at hin
      cases hin
  · rw [hnil]
    refine ⟨by simp, hb, by simp, ?_, by simp⟩
    cases hsponsor : b.sponsor <;> simp [hsponsor]

/-! ### Step 7: push (R49) -/

theorem stackOk_pushOn {s : State} {p : Nat} (hp : p < s.rot.placements.length)
    (hfree : (placementAt s p).fields.bound = false) (hne : (placementAt s p).stack ≠ [])
    (h : StackOk (placementAt s p)) : StackOk (placementAt (pushOn s p) p) := by
  unfold pushOn
  split
  · next hroom =>
    obtain ⟨gone, -, hends⟩ := walkEnds_pushWalk (priorityOrder (placementAt s p).lowest) hp
    cases hends with
    | rest placement =>
      rw [placement]
      exact stackOk_of_form rfl h
    | push _ _ y c _ _ _ hout _ placement =>
      obtain ⟨b, es, hcons⟩ := List.exists_cons_of_ne_nil hne
      obtain ⟨hlength, hbottom, hspots, hdistinct, -⟩ := (stackOk_cons_iff hcons).1 h
      rw [hcons] at hout hroom
      rw [placement, hcons]
      refine (stackOk_cons_iff (List.cons_append ..)).2
        ⟨by simpa using Nat.lt_of_succ_lt_succ hroom, hbottom, fun f hf => ?_, ?_, by simp [hfree]⟩
      · rcases List.mem_append.1 hf with hf | hf
        · exact hspots f hf
        · rw [List.mem_singleton.1 hf]
          rfl
      · rw [← List.cons_append, List.filterMap_append, List.nodup_append]
        refine ⟨hdistinct, List.nodup_singleton y.sponsor, fun j hj k hk => ?_⟩
        rintro rfl
        obtain rfl := List.mem_singleton.1 hk
        rw [(inStack_iff _ y.sponsor).2 (List.mem_filterMap.1 hj)] at hout
        cases hout
  · exact h

/-- Step 7 gives a stack its bottom (R46, R55). -/
theorem stackOk_rotRefill {s : State} {p : Nat} (hp : p < s.rot.placements.length)
    (h : Refillable (placementAt s p)) : StackOk (placementAt (rotRefill s p) p) := by
  have hselect : (Bottomless (placementAt s p) ∨ (placementAt s p).stack = []) →
      StackOk (placementAt (selectOn s p) p) := fun hx => by
    obtain ⟨b, heq, hkind, hnew⟩ := selectOn_bottom hp
    rw [heq]
    exact stackOk_putBottom hx rfl rfl hkind hnew
  unfold rotRefill
  dsimp only
  split
  · next hbound =>
    split
    · next hempty =>
      refine hselect (.inr ?_)
      simp only [Bool.and_eq_true, List.isEmpty_iff] at hempty
      exact hempty.2
    · exact h.resolve_right fun hb => by simp [hb.2.2.2] at hbound
  · next hfree =>
    rw [Bool.not_eq_true] at hfree
    split
    · next hbottom =>
      have hne : (placementAt s p).stack ≠ [] := by
        rintro hnil
        simp [hnil, hasBottom] at hbottom
      refine stackOk_pushOn hp hfree hne (h.resolve_right fun hb => ?_)
      obtain ⟨e, es, hcons⟩ := List.exists_cons_of_ne_nil hne
      have := hb.2.1 e (by simp [hcons])
      simp [hcons, hasBottom, this] at hbottom
    · next hbottom =>
      obtain ⟨b, heq, -⟩ := selectOn_bottom hp
      refine stackOk_pushOn ((onlyPlacement_selectOn s p).1 ▸ hp) (by rw [heq]; exact hfree)
        (by rw [heq]; simp) (hselect ?_)
      rcases h with hok | hb
      · refine .inr ?_
        cases hstack : (placementAt s p).stack with
        | nil => rfl
        | cons e es =>
          have := ((stackOk_cons_iff hstack).1 hok).2.1
          simp [hstack, hasBottom, this] at hbottom
      · exact .inl hb

end Sys2Proof.SponsorProofs
end

section
/-! Every step keeps the stacks, the accounts, the tables, the clips and the free slots (O57). -/

namespace Sys2Proof.SponsorProofs
open Sys2Proof.Machine Sys2Proof.FrameProofs

/-! ### The rotation unit's FRAME_START -/

theorem stacksOk_iff (s : State) : StacksOk s ↔
    s.rot.placements.length = 4 ∧ ∀ p < 4, StackOk (placementAt s p) := by
  refine and_congr_right fun h4 => ⟨fun h p hp => ?_, fun h x hx => ?_⟩
  · rw [placementAt, List.getD_eq_getElem _ _ (by omega)]
    exact h _ (List.getElem_mem _)
  · obtain ⟨p, hp, rfl⟩ := List.mem_iff_getElem.1 hx
    have := h p (by omega)
    rwa [placementAt, List.getD_eq_getElem _ _ hp] at this

theorem placements_rotOpen (s : State) (hand : List Handover) :
    (rotOpen s hand).rot.placements = s.rot.placements :=
  (congrArg (fun t => t.rot.placements) (sansAccrual_rotOpen s hand) :)

theorem length_rotEmptyAll (s : State) :
    (rotEmptyAll s).rot.placements.length = s.rot.placements.length :=
  length_foldl_placements (op := fun t p => takeFields (emptyPlacement t p) p)
    (fun t p => (onlyPlacement_modifyPlacement t p _).trans (onlyPlacement_modifyPlacement _ p _)) _ s

theorem length_rotFrame (s : State) (hand : List Handover) (returned : Bool) :
    (rotFrame s hand returned).rot.placements.length = s.rot.placements.length := by
  rw [← placements_rotOpen s hand]
  cases hm : s.report.mode with
  | pass => rw [rotFrame_of_pass hm, length_rotEmptyAll]
  | live => rw [rotFrame_of_live hm, length_rotRefilled]

/-- Steps 3 to 7 keep the form of a stack; steps 4 to 6 may take its bottom, step 7 puts one there. -/
theorem stackOk_rotRefilled {s : State} {p : Nat} (hp : p < 4) (h4 : s.rot.placements.length = 4)
    (hs : StackOk (placementAt s p)) (returned : Bool) :
    StackOk (placementAt (rotRefilled returned s) p) := by
  have hend : ∀ t q, OnlyPlacement q t (rotEnd (rotEmpty s) returned t q) := fun t q =>
    onlyPlacement_rotEnd t q _ returned
  have hempty : StackOk (placementAt (rotEmpty s) p) :=
    foldl_placements onlyPlacement_rotEmptyOne (fun t q hq => stackOk_rotEmptyOne hq) (by decide)
      (mem_placementList.2 hp) (by omega) hs
  by_cases hmem : p ∈ activeList s
  · have hact := nodup_activeList s
    have hsuspend : Refillable (placementAt (rotSuspended s) p) :=
      foldl_placements onlyPlacement_rotSuspend (fun t q hq => refillable_rotSuspend hq) hact hmem
        (by simp [h4, hp]) hempty
    have hdrop : Refillable (placementAt (rotDropped s) p) :=
      foldl_placements onlyPlacement_rotDropSpots (fun t q hq => refillable_rotDropSpots hq) hact hmem
        (by simp [h4, hp]) hsuspend
    have hended : Refillable (placementAt (rotEnded returned s) p) :=
      foldl_placements hend (fun t q hq => refillable_rotEnd hq _ returned) hact hmem (by simp [h4, hp]) hdrop
    exact foldl_placements onlyPlacement_rotRefill (fun t q hq => stackOk_rotRefill hq) hact hmem
      (by simp [h4, hp]) hended
  · rw [rotRefilled, placementAt_foldl_other onlyPlacement_rotRefill hmem, rotEnded,
      placementAt_foldl_other hend hmem, rotDropped,
      placementAt_foldl_other onlyPlacement_rotDropSpots hmem, rotSuspended,
      placementAt_foldl_other onlyPlacement_rotSuspend hmem]
    exact hempty

theorem stacksOk_rotFrame {s : State} (hs : StacksOk s) (hand : List Handover) (returned : Bool) :
    StacksOk (rotFrame s hand returned) := by
  obtain ⟨h4, hstacks⟩ := (stacksOk_iff s).1 hs
  refine (stacksOk_iff _).2 ⟨(length_rotFrame s hand returned).trans h4, fun p hp => ?_⟩
  cases hm : s.report.mode with
  | pass =>
    rw [rotFrame_of_pass hm]
    exact stackOk_of_nil (placementAt_rotEmptyAll _ hp).1
  | live =>
    rw [rotFrame_of_live hm]
    refine stackOk_rotRefilled hp (by rw [placements_rotOpen, h4]) ?_ returned
    rw [placementAt_of_placements (placements_rotOpen s hand)]
    exact hstacks p hp

theorem length_accrueSponsors (pairs : List (Handover × Nat)) (k : Nat) (l : List Sponsor) :
    (accrueSponsors pairs k l).length = l.length := by
  induction l generalizing k with
  | nil => rfl
  | cons x l ih => simp [accrueSponsors, ih]

theorem acc_accrueSponsors_le {pairs : List (Handover × Nat)} {k : Nat} {l : List Sponsor} {x : Sponsor}
    (hx : x ∈ accrueSponsors pairs k l) : x.acc ≤ accLimit := by
  induction l generalizing k with
  | nil => cases hx
  | cons y l ih =>
    rcases List.mem_cons.1 hx with rfl | hx
    · exact min_le_left _ _
    · exact ih hx

/-- After its first two steps the rotation unit leaves the accounts (R29). -/
theorem accounts_rotFrame (s : State) (hand : List Handover) (returned : Bool) :
    (rotFrame s hand returned).rot.sponsors.map Sponsor.acc =
      (rotAccrue s hand).rot.sponsors.map Sponsor.acc := by
  have hsans : ∀ t : State, (sansRot t).rot.sponsors.map Sponsor.acc = t.rot.sponsors.map Sponsor.acc :=
    fun t => List.map_map.trans rfl
  have hcap : ledger (rotCapTest (rotAccrue s hand)) = ledger (rotAccrue s hand) := by
    unfold rotCapTest
    dsimp only
    rw [ledger_raiseAll]
    exact view_foldl _ (fun t i => ledger_modifySponsor t i (by intro x; rfl)) _
  rw [← hsans, sansRot_rotFrame, hsans]
  exact congrArg Ledger.accounts hcap

theorem accountsOk_rotFrame (s : State) (hand : List Handover) (returned : Bool) :
    AccountsOk (rotFrame s hand returned) := by
  intro x hx
  have hmem := accounts_rotFrame s hand returned ▸ List.mem_map_of_mem (f := Sponsor.acc) hx
  obtain ⟨y, hy, hxy⟩ := List.mem_map.1 hmem
  exact hxy ▸ acc_accrueSponsors_le hy

theorem carries_rotFrame (s : State) (hand : List Handover) (returned : Bool) :
    Carries s (rotFrame s hand returned) := by
  have hkept {β : Type} (view : State → β) (hrot : ∀ t, view (sansRot t) = view t)
      (hacc : ∀ t, view (sansAccrual t) = view t) : view (rotFrame s hand returned) = view s := by
    rw [← hrot, sansRot_rotFrame, hrot, ← hacc, sansAccrual_rotOpen, hacc]
  have hreplay : (rotFrame s hand returned).replay = s.replay := hkept _ (fun _ => rfl) fun _ => rfl
  have hpath : (rotFrame s hand returned).path = s.path := hkept _ (fun _ => rfl) fun _ => rfl
  have houtcomes : (rotFrame s hand returned).report.outcomes = s.report.outcomes :=
    hkept (fun t => t.report.outcomes) (fun _ => rfl) fun _ => rfl
  have hmode : (rotFrame s hand returned).report.mode = s.report.mode :=
    hkept (fun t => t.report.mode) (fun _ => rfl) fun _ => rfl
  have hsponsors : (rotFrame s hand returned).rot.sponsors.length = s.rot.sponsors.length := by
    have := congrArg List.length (accounts_rotFrame s hand returned)
    rw [List.length_map, List.length_map] at this
    exact this.trans (length_accrueSponsors _ _ _)
  refine ⟨fun hs => ⟨stacksOk_rotFrame hs.1 hand returned, accountsOk_rotFrame s hand returned⟩, ?_⟩
  unfold RingHolds PassIsLive TablesOk PlayOk SlotsOk slotAt clipAt
  rw [hreplay, hpath, houtcomes, hmode, hsponsors, length_rotFrame]
  exact id

/-! ### FRAME_START -/

theorem carries_frameUnits (s : State) : Carries s (frameUnits s) := by
  have hopened : (frameOpened s).rot = s.rot ∧ (frameOpened s).replay = s.replay ∧
      (frameOpened s).path = s.path ∧
      (frameOpened s).report.outcomes.length = s.report.outcomes.length := by
    have hmode := sansMode_modeFrame (openFrame s)
    refine ⟨(congrArg State.rot hmode :), (congrArg State.replay hmode :), (congrArg State.path hmode :), ?_⟩
    have hlen := congrArg (fun t => t.report.outcomes.length) hmode
    simp only [sansMode, outcomesBut, List.length_set] at hlen
    exact hlen
  have hring : RingHolds s → RingHolds (frameOpened s) := by
    obtain ⟨hrot, hreplay, hpath, houtcomes⟩ := hopened
    unfold RingHolds TablesOk PlayOk SlotsOk slotAt clipAt
    rw [hrot, hreplay, hpath, houtcomes]
    exact id
  have hreplay : Carries s (replayFrame (frameOpened s)) :=
    carries_of_ring ((congrArg State.rot (sansReplay_replayFrame (frameOpened s)) :).trans hopened.1)
      fun hs _ => ringHolds_replayFrame (hring hs)
  have hscore : ledger (frameSourced s) = ledger (replayFrame (frameOpened s)) := by
    rw [frameSourced, scoreFrame_eq]
    rfl
  have hticker : ∀ t, ledger (tickerFrame t) = ledger t := fun t =>
    (congrArg ledger (sansTicker_tickerFrame t) :)
  exact ((hreplay.trans (carries_of_ledger hscore)).trans (carries_rotFrame _ _ _)).trans
    (carries_of_ledger (hticker _))

theorem carries_frameStart (s : State) : Carries s (settle (frameStart s)) :=
  (carries_frameUnits s).trans (carries_of_ledger ((ledger_settle _).trans rfl))

/-! ### Commands -/

/-- Every next state of this outcome meets the invariants that `s` meets. -/
def OutcomeCarries (s : State) (o : Host.Outcome State Fault Refusal) : Prop := ∀ t, o = .next t → Carries s t

section
variable {s u : State}

theorem outcomeCarries_next (h : Carries s u) : OutcomeCarries s (.next u) := by
  rintro t ⟨⟩
  exact h

theorem outcomeCarries_done (h : Carries s u) : OutcomeCarries s (done u) :=
  outcomeCarries_next (h.trans (carries_of_ledger (ledger_settle u)))

theorem outcomeCarries_whenDue (due : Bool) (h : Carries s u) : OutcomeCarries s (whenDue due u s) := by
  unfold whenDue
  split
  · exact outcomeCarries_done h
  · exact outcomeCarries_next (.refl s)

theorem outcomeCarries_settled (w : WriteReq) : OutcomeCarries s (settled (arriveWrite s w)) := by
  cases hw : arriveWrite s w with
  | none => rintro t ⟨⟩
  | some t => exact outcomeCarries_done (carries_arriveWrite hw)

theorem outcomeCarries_arriving (w : WriteReq) : OutcomeCarries s (arriving w s) := by
  unfold arriving
  split
  · exact outcomeCarries_settled w
  · rintro t ⟨⟩

theorem outcomeCarries_reading (r : ReadReq) : OutcomeCarries s (reading r s) := by
  unfold reading
  split
  · exact outcomeCarries_done (carries_of_ledger (ledger_arriveRead s r))
  · rintro t ⟨⟩

theorem outcomeCarries_intakeFetchComplete (error : Bool) (data : List Byte) :
    OutcomeCarries s (execIntakeFetchComplete error data s) := by
  unfold execIntakeFetchComplete
  split
  · exact outcomeCarries_next (carries_of_ledger rfl)
  · split
    · exact outcomeCarries_next (.refl s)
    · exact outcomeCarries_whenDue _ (carries_of_ledger (ledger_completeFetch s _ _ _))

/-- The reset values meet the invariants. -/
theorem carries_reset (tbase : BitVec 8) (gate : Bool) (stale : List Stale) (pending : List Instr) :
    Carries s (.resetWith tbase gate stale pending) := by
  have hclip : ∀ c, (clipAt (.resetWith tbase gate stale pending) c) = .emptied := fun c => by
    simp only [clipAt, State.resetWith, ReplayUnit.reset, List.getD_eq_getElem?_getD, List.getElem?_replicate]
    split <;> rfl
  refine ⟨fun _ => ⟨⟨rfl, fun x hx => ?_⟩, fun x hx => ?_⟩, fun _ => ⟨⟨⟨rfl, rfl, rfl, rfl, rfl⟩,
    ⟨fun c => ?_, iff_of_true rfl rfl⟩, fun k => ?_, nofun, fun x hx hstate => ?_, nofun⟩, fun _ => rfl⟩⟩
  · obtain rfl := List.eq_of_mem_replicate hx
    exact stackOk_of_nil rfl
  · obtain rfl := List.eq_of_mem_replicate hx
    exact Nat.zero_le _
  · rw [hclip]
    exact ⟨nofun, nofun⟩
  · exact ⟨nofun, nofun⟩
  · obtain rfl := List.eq_of_mem_replicate hx
    exact absurd rfl hstate

theorem outcomeCarries_exec (s : State) (c : Instr) : OutcomeCarries s (exec c s) := by
  have keeps {o : Host.Outcome State Fault Refusal} {u : State} (ho : o = done u)
      (h : ledger u = ledger s) : OutcomeCarries s o := ho ▸ outcomeCarries_done (carries_of_ledger h)
  cases c with
  | resetN tbase gate => exact outcomeCarries_next (carries_reset _ _ _ _)
  | frameStart => exact outcomeCarries_next (carries_frameStart s)
  | flashEnd | stackEntryDwellEnd | enteringBumperEnd | leavingBumperEnd | clipEndAction =>
    intro t h
    rcases exec_of_beginsFrame rfl h with rfl | rfl
    · exact carries_frameStart s
    · exact .refl _
  | gateRunEdge => exact keeps rfl (ledger_gateEdge s)
  | shotRstEdge => exact keeps rfl (ledger_setClock s _)
  | tbInEdge => exact keeps rfl (ledger_timebaseEdge s)
  | houseTimeAdvance => exact keeps rfl (ledger_houseAdvance s)
  | timebaseLoss | hornEnd | messageExpiry =>
    exact outcomeCarries_whenDue _ (carries_of_ledger (ledger_houseAdvance s))
  | timebaseRestore => exact outcomeCarries_whenDue _ (carries_of_ledger (ledger_timebaseEdge s))
  | gameClockExpiry | shotClockExpiry | upSetPointReached | upLimit =>
    exact outcomeCarries_whenDue _ (carries_of_ledger (ledger_tickArrival s))
  | compositedRead r | windowRead r => exact outcomeCarries_reading r
  | compositedReadAnswer read => exact keeps rfl (ledger_compositedAnswer s read _)
  | overlayFetchError read l a => exact keeps rfl (ledger_overlayError s read l a)
  | programFetchError read => exact keeps rfl (ledger_programError s read)
  | ingestWriteResponse id o code => exact keeps rfl (ledger_ingestResponse s id o code)
  | forwardedResponse dir id d st => exact keeps rfl (ledger_forwardedResponse s dir id d st)
  | forwardedTransaction t =>
    cases t with
    | read r => exact outcomeCarries_reading r
    | write w => exact outcomeCarries_arriving w
  | ingestWrite w | blockedWrite w | partOwnedWrite w | capturedWrite w | geometryCapture w
  | teamRecordCapture w | sponsorEntryCapture w | clockConfigCapture w | intakeTailCapture w
  | noticeConsumeCapture w => exact outcomeCarries_arriving w
  | intakeFetchStart => exact keeps rfl (ledger_fetchStart s)
  | intakeFetchComplete e d => exact outcomeCarries_intakeFetchComplete e d
  | statusRefreshStart => exact outcomeCarries_next (carries_of_ledger (ledger_refreshStart s))
  | statusRefreshComplete => exact keeps rfl (ledger_refreshComplete s)
  | goLive | goPass | clearGame | clearExposure | spareRequest | runEnable | runDisable | clockSet
  | clockAdjust | periodNext | shotReset | shotSet | shotEnable | shotDisable | horn | spot | setLowest
  | endEntry | suspend | sponsorResume | arm | disarm | resetRing | play | freeze | replayResume
  | stepReplay | takeLive | purge | pause | tickerResume | unknownRequestCode =>
    exact outcomeCarries_settled _

/-- A step is a command on the rest of the queue, or nothing. -/
theorem carries_step {s t : State} (h : step s = .next t) : Carries s t := by
  unfold step at h
  split at h
  · cases h
    exact .refl s
  · next c rest _ =>
    have hqueue : Carries s { s with pending := rest } := carries_of_ledger rfl
    exact hqueue.trans (outcomeCarries_exec _ c t h)

/-! ### Faults -/

/-- Only a write that arrives can fault (R102, R110). -/
theorem arriveWrite_of_fault {c : Instr} {f : Fault} (h : exec c s = .fault f) :
    ∃ w, arriveWrite s w = none := by
  have hsettled : ∀ w, settled (arriveWrite s w) = .fault f → ∃ w, arriveWrite s w = none := by
    intro w h
    cases hw : arriveWrite s w with
    | none => exact ⟨w, hw⟩
    | some t => rw [hw] at h; cases h
  have harriving : ∀ w, arriving w s = .fault f → ∃ w, arriveWrite s w = none := by
    intro w h
    unfold arriving at h
    split at h
    · exact hsettled w h
    · cases h
  have hreading : ∀ r, reading r s ≠ .fault f := by
    intro r h
    unfold reading at h
    split at h <;> cases h
  have hdue : ∀ due u, whenDue due u s ≠ .fault f := by
    intro due u h
    unfold whenDue at h
    split at h <;> cases h
  cases c with
  | resetN | frameStart | gateRunEdge | shotRstEdge | tbInEdge | houseTimeAdvance
  | compositedReadAnswer | overlayFetchError | programFetchError | ingestWriteResponse
  | forwardedResponse | intakeFetchStart | statusRefreshStart | statusRefreshComplete => cases h
  | flashEnd | stackEntryDwellEnd | enteringBumperEnd | leavingBumperEnd | clipEndAction | timebaseLoss
  | hornEnd | messageExpiry | timebaseRestore | gameClockExpiry | shotClockExpiry | upSetPointReached
  | upLimit => exact absurd h (hdue _ _)
  | compositedRead r | windowRead r => exact absurd h (hreading r)
  | forwardedTransaction t =>
    cases t with
    | read r => exact absurd h (hreading r)
    | write w => exact harriving w h
  | ingestWrite w | blockedWrite w | partOwnedWrite w | capturedWrite w | geometryCapture w
  | teamRecordCapture w | sponsorEntryCapture w | clockConfigCapture w | intakeTailCapture w
  | noticeConsumeCapture w => exact harriving w h
  | intakeFetchComplete e d =>
    change execIntakeFetchComplete e d s = .fault f at h
    unfold execIntakeFetchComplete at h
    split at h
    · cases h
    · split at h
      · cases h
      · exact absurd h (hdue _ _)
  | goLive | goPass | clearGame | clearExposure | spareRequest | runEnable | runDisable | clockSet
  | clockAdjust | periodNext | shotReset | shotSet | shotEnable | shotDisable | horn | spot | setLowest
  | endEntry | suspend | sponsorResume | arm | disarm | resetRing | play | freeze | replayResume
  | stepReplay | takeLive | purge | pause | tickerResume | unknownRequestCode => exact hsettled _ h

/-- An ingest write finds a slot that is not held (R110). -/
theorem arriveWrite_isSome (hs : SlotsOk s) (hne : s.replay.slots ≠ []) (w : WriteReq) :
    arriveWrite s w ≠ none := by
  intro h
  unfold arriveWrite at h
  split at h
  case h_3 =>
    have hopen := Option.map_eq_none_iff.1 h
    unfold openFor at hopen
    split at hopen
    · obtain ⟨k, hk⟩ := nextFill_isSome hs hne
      simp [hk] at hopen
    · split at hopen <;> cases hopen
  all_goals cases h

/-! ### Free slots -/

/-- Three slots or more, of which at least three are free where one is held: two are free and not
FILLING (R110). -/
theorem exists_two_free (hs : SlotsOk s) (hlen : 3 ≤ s.replay.slots.length) :
    ∃ i j, i < s.replay.slots.length ∧ j < s.replay.slots.length ∧ i ≠ j ∧
      slotHeld s i = false ∧ slotHeld s j = false ∧
      (slotAt s i).state ≠ .filling ∧ (slotAt s j).state ≠ .filling := by
  let free := (List.range s.replay.slots.length).filter fun k => !slotHeld s k
  have hcount : free.length = (s.replay.slots.filter fun x => !heldBy s.replay.clips x).length := by
    have hslots : s.replay.slots = (List.range s.replay.slots.length).map (slotAt s) := by
      apply List.ext_getElem
      · simp
      · intro k hk _
        rw [List.getElem_map, List.getElem_range, slotAt, List.getD_eq_getElem _ _ hk]
    conv_rhs => rw [hslots, List.filter_map, List.length_map]
    rfl
  have hthree : 3 ≤ free.length := by
    by_cases hheld : ∃ x ∈ s.replay.slots, heldBy s.replay.clips x = true
    · exact hcount ▸ hs.2.2.2 hheld
    · push Not at hheld
      rw [hcount, List.filter_eq_self.2 fun x hx => by simpa using hheld x hx]
      exact hlen
  obtain ⟨a, b, c, l, hl⟩ : ∃ a b c l, free = a :: b :: c :: l := by
    match free, hthree with
    | a :: b :: c :: l, _ => exact ⟨a, b, c, l, rfl⟩
  have hnodup : free.Nodup := List.nodup_range.filter _
  have hfree : ∀ k ∈ free, k < s.replay.slots.length ∧ slotHeld s k = false := fun k hk => by
    simpa [free] using hk
  have hpair : ∀ i ∈ free, ∀ j ∈ free, i ≠ j → s.replay.fill ≠ some i → s.replay.fill ≠ some j →
      ∃ i j, i < s.replay.slots.length ∧ j < s.replay.slots.length ∧ i ≠ j ∧
        slotHeld s i = false ∧ slotHeld s j = false ∧
        (slotAt s i).state ≠ .filling ∧ (slotAt s j).state ≠ .filling :=
    fun i hi j hj hij hfi hfj => ⟨i, j, (hfree i hi).1, (hfree j hj).1, hij, (hfree i hi).2,
      (hfree j hj).2, mt (hs.1 i).1 hfi, mt (hs.1 j).1 hfj⟩
  rw [hl] at hnodup hpair
  have hab : a ≠ b := by rintro rfl; simp at hnodup
  have hac : a ≠ c := by rintro rfl; simp at hnodup
  have hbc : b ≠ c := by rintro rfl; simp at hnodup
  by_cases hfa : s.replay.fill = some a
  · exact hpair b (by simp) c (by simp) hbc (by simp [hfa, hab]) (by simp [hfa, hac])
  · by_cases hfb : s.replay.fill = some b
    · exact hpair a (by simp) c (by simp) hac hfa (by simp [hfb, hbc])
    · exact hpair a (by simp) b (by simp) hab hfa hfb

/-- Settles O57: every operation of a command carries the invariants on, most by leaving the ledger. -/
theorem stepsKeepTheStacksAndAccounts : Obligations.StepsKeepTheStacksAndAccounts := by
  refine ⟨fun s t hstacks haccounts h => (carries_step h).1 ⟨hstacks, haccounts⟩,
    fun s t htables hclips hslots h => ?_, fun s hs hlen => exists_two_free hs hlen,
    fun s hs hne f h => ?_⟩
  · obtain ⟨hplay, hpass⟩ := (clipsOk_iff s).1 hclips
    obtain ⟨⟨htables, hplay, hslots⟩, hpass⟩ := (carries_step h).2 ⟨⟨htables, hplay, hslots⟩, hpass⟩
    exact ⟨htables, (clipsOk_iff t).2 ⟨hplay, hpass⟩, hslots⟩
  · unfold step at h
    split at h
    · cases h
    · next c rest _ =>
      obtain ⟨w, hw⟩ := arriveWrite_of_fault h
      exact arriveWrite_isSome (s := { s with pending := rest }) hs hne w hw

end
end Sys2Proof.SponsorProofs
end

section
/-! The SPONSOR requests (section 3.9). -/

namespace Sys2Proof.SponsorProofs
open Sys2Proof.Machine Sys2Proof.FrameProofs

/-! ### What a request's own capture leaves of the rotation unit and of the shadow -/

section
variable (s : State) (id : BitVec 8) (w : ReqWord) (code : Byte) (params : List Byte) (tag : Byte)

@[simp] theorem placementAt_asked : placementAt (asked s id w code params tag) = placementAt s :=
  placementAt_of_placements (by rw [asked_rot])

theorem readByte_asked_sponsor {i : Nat} (h : Memory.wf s.path.shadow = true) :
    readByte (asked s id w code params tag).path.shadow (sponsorOffset i) =
      readByte s.path.shadow (sponsorOffset i) :=
  readByte_asked_high s id w code params tag _ h (by unfold sponsorOffset; omega)

theorem sponsorSuspended_asked {i : Nat} (h : Memory.wf s.path.shadow = true) :
    sponsorSuspended (asked s id w code params tag).path.shadow i =
      sponsorSuspended s.path.shadow i := by
  rw [sponsorSuspended, readFlag, readByte_asked_sponsor s id w code params tag h]
  rfl

end

/-- What a placement becomes matters only at what it is. -/
theorem modifyPlacement_congr {s : State} {p : Nat} {f g : Placement → Placement}
    (h : f (placementAt s p) = g (placementAt s p)) : modifyPlacement s p f = modifyPlacement s p g := by
  have hm : s.rot.placements.modify p f = s.rot.placements.modify p g := by
    refine List.ext_getElem? fun q => ?_
    by_cases hq : p = q
    · subst hq
      cases hx : s.rot.placements[p]? with
      | none => simp [hx]
      | some x =>
        rw [show placementAt s p = x by simp [placementAt, List.getD_eq_getElem?_getD, hx]] at h
        simp [hx, h]
    · simp [hq]
  simp only [modifyPlacement, hm]

/-! ### SET_LOWEST (R52) -/

/-- Settles O1: each branch of SET_LOWEST's answer, recorded. -/
theorem setLowestMovesTheLowestMark : Obligations.SetLowestMovesTheLowestMark := by
  intro s id tag i p h
  have answer := answer_setLowest (asked s id .sponsorWord 2 [i, p] tag) tag i p
  have quiet := asked_quiet s id .sponsorWord 2 [i, p] tag h.1
  refine ⟨fun hi hp => ?_, fun hi => ?_, fun hi hp => ?_⟩
  · refine asking_taken s id .sponsorWord 2 [i, p] tag _ .accepted false (verdict .accepted) h
      (answer.trans ?_) ⟨rfl, rfl⟩ rfl (quiet.of_report rfl)
    rw [setLowestRequest, if_neg (by omega), if_neg (by omega)]
  · refine asking_refused s id .sponsorWord 2 [i, p] tag _ _ _ h (answer.trans ?_) rfl
    rw [setLowestRequest, if_pos hi]
    rfl
  · refine asking_refused s id .sponsorWord 2 [i, p] tag _ _ _ h (answer.trans ?_) rfl
    rw [setLowestRequest, if_neg (by omega), if_pos hp]
    rfl

/-! ### SPOT (R51) -/

/-- The parameters of a SPOT are in range. -/
def SpotInRange (i p d c : Nat) : Prop := i ≤ 31 ∧ p ≤ 3 ∧ d ≠ 0 ∧ d ≤ 65535 ∧ (c ≤ 7 ∨ c = 15)

/-- A SPOT whose parameters are in range comes to the checks on the mode and the placement. -/
theorem spotRequest_of_inRange {i p d c : Nat} (h : SpotInRange i p d c) (s : State) (o : SpotOffsets) :
    spotRequest s o i p d c =
      if s.report.mode = .pass then (s, verdict .wrongMode)
      else if (placementAt s p).fields.bound then (s, verdict .notAllowed)
      else if !(placementAt s p).fields.member i then (s, verdict .notMember)
      else if sponsorSuspended s.path.shadow i then (s, verdict .suspended)
      else if inStack (placementAt s p).stack i then (s, verdict .inService)
      else if (placementAt s p).spots.any fun x => x.sponsor == i then (s, verdict .duplicate)
      else
        (modifyPlacement s p fun x =>
          { x with spots := x.spots ++ [{ sponsor := i, creative := c, dwell := d }] },
         verdict .accepted) := by
  obtain ⟨hi, hp, hd, hd', hc⟩ := h
  rw [spotRequest, if_neg (by omega), if_neg (by omega), if_neg (by omega), if_neg (by omega)]

theorem spotInRange_of {i p c : Byte} {d : BitVec 16} (hi : i.toNat ≤ 31) (hp : p.toNat ≤ 3)
    (hd : d ≠ 0) (hc : c.toNat ≤ 7 ∨ c.toNat = 15) :
    SpotInRange i.toNat p.toNat d.toNat c.toNat :=
  ⟨hi, hp, fun h0 => hd (BitVec.eq_of_toNat_eq h0), by have := d.isLt; omega, hc⟩

/-- The parameters of a SPOT in the SPONSOR word. -/
def spotParams (i p c : Byte) (d : BitVec 16) : List Byte :=
  [i, p, 0] ++ leBytes 2 d.toNat ++ [0, 0, c]

section
variable {s : State} {id : BitVec 8} {tag i p c : Byte} {d : BitVec 16}
  (h : WordReady s id .sponsorWord)
include h

/-- A SPOT that the rotation unit refuses. -/
theorem exec_spot_refused {o : ReqOutcome} {value offset : Nat} (ho : o.refused = true)
    (ha : ∀ t, t.rot = s.rot → t.report = s.report →
      sponsorSuspended t.path.shadow i.toNat = sponsorSuspended s.path.shadow i.toNat →
      spotRequest t spotWordOffsets i.toNat p.toNat d.toNat c.toNat =
        (t, { outcome := o, waits := false, value := value, offset := offset })) :
    exec (.spot id tag i p d c) s = .next
      (refusedWith (asked s id .sponsorWord 1 (spotParams i p c d) tag) .sponsorWord tag 1 o value
        offset) :=
  asking_refused s id .sponsorWord 1 (spotParams i p c d) tag o value offset h
    ((answer_spot _ tag i p c d).trans
      (ha _ (asked_rot ..) (asked_report ..) (sponsorSuspended_asked s id _ _ _ _ h.2.1))) ho

/-- A SPOT that the rotation unit takes, with the state it then leaves. -/
theorem exec_spot_taken {o : ReqOutcome} {f : State → State} (ho : o.refused = false)
    (hf : ∀ t, (f t).report = t.report)
    (ha : ∀ t, t.rot = s.rot → t.report = s.report →
      sponsorSuspended t.path.shadow i.toNat = sponsorSuspended s.path.shadow i.toNat →
      spotRequest t spotWordOffsets i.toNat p.toNat d.toNat c.toNat = (f t, verdict o)) :
    exec (.spot id tag i p d c) s = .next
      (recorded (f (asked s id .sponsorWord 1 (spotParams i p c d) tag)) .sponsorWord tag o false) :=
  asking_taken s id .sponsorWord 1 (spotParams i p c d) tag _ o false _ h
    ((answer_spot _ tag i p c d).trans
      (ha _ (asked_rot ..) (asked_report ..) (sponsorSuspended_asked s id _ _ _ _ h.2.1)))
    ⟨rfl, rfl⟩ ho ((asked_quiet s id _ _ _ _ h.1).of_report (hf _))

end

/-- Settles O2: the checks of SPOT in the table's order. -/
theorem spotJoinsThePendingSet : Obligations.SpotJoinsThePendingSet := by
  have look : ∀ {s t : State} {p : Nat}, t.rot = s.rot → placementAt t p = placementAt s p :=
    fun e => congrFun (placementAt_of_placements (congrArg RotationUnit.placements e)) _
  refine ⟨?_, ?_⟩
  · intro s id tag i p c d h hi hp hd hc hlive hbound hmember hsusp hstack
    have checked : ∀ t, t.rot = s.rot → t.report = s.report →
        sponsorSuspended t.path.shadow i.toNat = sponsorSuspended s.path.shadow i.toNat →
        spotRequest t spotWordOffsets i.toNat p.toNat d.toNat c.toNat =
          if (placementAt s p.toNat).spots.any fun x => x.sponsor == i.toNat then
            (t, verdict .duplicate)
          else
            (modifyPlacement t p.toNat fun x =>
              { x with spots := x.spots ++
                  [{ sponsor := i.toNat, creative := c.toNat, dwell := d.toNat }] },
             verdict .accepted) := by
      intro t hrot hrep hs
      rw [spotRequest_of_inRange (spotInRange_of hi hp hd hc), look hrot, hs, hrep]
      simp [hlive, hbound, hmember, hsusp, hstack]
    refine ⟨fun hnew => ?_, fun hold => ?_⟩
    · refine exec_spot_taken h rfl
        (f := fun t => modifyPlacement t p.toNat fun x =>
          { x with spots := x.spots ++
              [{ sponsor := i.toNat, creative := c.toNat, dwell := d.toNat }] })
        (fun _ => rfl) fun t hrot hrep hs => ?_
      rw [checked t hrot hrep hs, if_neg (by simpa using hnew)]
    · refine exec_spot_taken h rfl (f := fun t => t) (fun _ => rfl) fun t hrot hrep hs => ?_
      rw [checked t hrot hrep hs, if_pos (by simpa using hold)]
  · intro s id tag i p c d h
    refine ⟨fun hi => ?_, fun hi hp => ?_, fun hi hp hd => ?_, fun hi hp hd hc hc' => ?_,
      fun hi hp hd hc => ⟨fun hpass => ?_, fun hlive hbound => ?_, fun hlive hbound =>
        ⟨fun hmember => ?_, fun hmember hsusp => ?_, fun hmember hsusp hstack => ?_⟩⟩⟩
    · refine exec_spot_refused h rfl fun t _ _ _ => ?_
      rw [spotRequest, if_pos hi]
      rfl
    · refine exec_spot_refused h rfl fun t _ _ _ => ?_
      rw [spotRequest, if_neg (by omega), if_pos hp]
      rfl
    · subst hd
      refine exec_spot_refused h rfl fun t _ _ _ => ?_
      rw [spotRequest, if_neg (by omega), if_neg (by omega), if_pos (.inl rfl)]
      rfl
    · have hd0 : d.toNat ≠ 0 := fun h0 => hd (BitVec.eq_of_toNat_eq h0)
      have := d.isLt
      refine exec_spot_refused h rfl fun t _ _ _ => ?_
      rw [spotRequest, if_neg (by omega), if_neg (by omega), if_neg (by omega), if_pos ⟨hc, hc'⟩]
      rfl
    all_goals
      refine exec_spot_refused h rfl fun t hrot hrep hs => ?_
      rw [spotRequest_of_inRange (spotInRange_of hi hp hd hc), look hrot, hs, hrep]
    · simp [hpass, verdict]
    · simp [hlive, hbound, verdict]
    · simp [hlive, hbound, hmember, verdict]
    · simp [hlive, hbound, hmember, hsusp, verdict]
    · simp [hlive, hbound, hmember, hsusp, hstack, verdict]

/-! ### END (R53) -/

theorem markTop_append (below : List StackEntry) (e : StackEntry) :
    markTop (below ++ [e]) = below ++ [{ e with endMark := true }] := by
  induction below with
  | nil => rfl
  | cons x below ih => cases below <;> simp_all [markTop]

theorem topEntry_append (below : List StackEntry) (e : StackEntry) : topEntry (below ++ [e]) = some e :=
  List.getLast?_concat

/-- Settles O3: END by the top entry of the stack. -/
theorem endMarksTheTopEntry : Obligations.EndMarksTheTopEntry := by
  intro s id tag p h
  have answer := answer_end (asked s id .sponsorWord 3 [0, p] tag) tag p
  have quiet := asked_quiet s id .sponsorWord 3 [0, p] tag h.1
  refine ⟨fun below e hp hstack hkind hmark => ?_, fun below e hp hstack hkind hmark => ?_,
    fun below e hp hstack hkind => ?_, fun hp hstack => ?_, fun hp => ?_⟩
  · refine asking_taken s id .sponsorWord 3 [0, p] tag _ .accepted false (verdict .accepted) h
      (answer.trans ?_) ⟨rfl, rfl⟩ rfl (quiet.of_report rfl)
    simp only [endRequest, placementAt_asked, hstack, topEntry_append, if_neg (Nat.not_lt.2 hp), hkind,
      hmark, if_false, Bool.false_eq_true]
    rw [modifyPlacement_congr]
    rw [placementAt_asked, hstack, markTop_append]
  · refine asking_taken s id .sponsorWord 3 [0, p] tag _ .duplicate false (verdict .duplicate) h
      (answer.trans ?_) ⟨rfl, rfl⟩ rfl quiet
    simp only [endRequest, placementAt_asked, hstack, topEntry_append, if_neg (Nat.not_lt.2 hp), hkind,
      hmark, if_false, if_true]
  · refine asking_refused s id .sponsorWord 3 [0, p] tag _ _ _ h (answer.trans ?_) rfl
    simp only [endRequest, placementAt_asked, hstack, topEntry_append, if_neg (Nat.not_lt.2 hp), hkind,
      if_true]
    rfl
  · refine asking_refused s id .sponsorWord 3 [0, p] tag _ _ _ h (answer.trans ?_) rfl
    simp only [endRequest, placementAt_asked, hstack, if_neg (Nat.not_lt.2 hp)]
    rfl
  · refine asking_refused s id .sponsorWord 3 [0, p] tag _ _ _ h (answer.trans ?_) rfl
    simp only [endRequest, if_pos hp]
    rfl

/-! ### SUSPEND and RESUME (R54) -/

/-- Writing bit 0 of a byte sets it as asked. -/
theorem testBit_writtenFlag (b : Byte) (on : Bool) :
    (if on then b ||| 1#8 else b &&& 254#8).toNat.testBit 0 = on := by
  cases on <;> simp [BitVec.toNat_or, BitVec.toNat_and]

theorem readByte_writeSuspended {s : State} (h : Memory.wf s.path.shadow = true) (i : Nat) (on : Bool)
    {a : Nat} (ha : a ≠ sponsorOffset i) :
    readByte (writeSuspended s i on).path.shadow a = readByte s.path.shadow a := by
  rw [writeSuspended]
  exact (readByte_writeByte _ _ a _ h).trans (if_neg ha)

theorem sponsorSuspended_writeSuspended {s : State} (h : Memory.wf s.path.shadow = true) (i : Nat)
    (on : Bool) : sponsorSuspended (writeSuspended s i on).path.shadow i = on := by
  rw [sponsorSuspended, readFlag, writeSuspended]
  dsimp only
  rw [readByte_writeByte _ _ _ _ h, if_pos rfl]
  exact testBit_writtenFlag _ on

theorem sponsorState_suspended_iff (s : State) (i : Nat) :
    sponsorState s i = .suspended ↔ sponsorSuspended s.path.shadow i = true := by
  unfold sponsorState
  split
  · simp [*]
  · split
    · simp [*]
    · split <;> simp [*]

section
variable (s : State) {i : Nat} (on : Bool)

theorem suspendRequest_of_lt (h : 31 < i) : suspendRequest s i on = (s, badParam i 1) := if_pos h

theorem suspendRequest_of_eq (hi : i ≤ 31) (h : sponsorSuspended s.path.shadow i = on) :
    suspendRequest s i on = (s, verdict .duplicate) := by
  rw [suspendRequest, if_neg (by omega), if_pos h]

theorem suspendRequest_of_ne (hi : i ≤ 31) (h : sponsorSuspended s.path.shadow i ≠ on) :
    suspendRequest s i on = (writeSuspended s i on, verdict .accepted) := by
  rw [suspendRequest, if_neg (by omega), if_neg h]

end

/-- SUSPEND and RESUME alike: the command whose request wants the flag `on`. -/
theorem asking_suspendRequest {s : State} {id : BitVec 8} {tag code i : Byte} {on : Bool}
    (h : WordReady s id .sponsorWord)
    (answer : ∀ t, answerRequest t .sponsorWord { bytes := wordBytes code [i] tag } =
      suspendRequest t i.toNat on) :
    let t := asked s id .sponsorWord code [i] tag
    (31 < i.toNat → asking id .sponsorWord code [i] tag s =
      .next (refusedWith t .sponsorWord tag code .badParam i.toNat 1)) ∧
    (i.toNat ≤ 31 → sponsorSuspended s.path.shadow i.toNat = on →
      asking id .sponsorWord code [i] tag s = .next (recorded t .sponsorWord tag .duplicate false)) ∧
    (i.toNat ≤ 31 → sponsorSuspended s.path.shadow i.toNat ≠ on →
      asking id .sponsorWord code [i] tag s =
        .next (recorded (writeSuspended t i.toNat on) .sponsorWord tag .accepted false)) := by
  intro t
  have flag : sponsorSuspended t.path.shadow i.toNat = sponsorSuspended s.path.shadow i.toNat :=
    sponsorSuspended_asked s id _ _ _ _ h.2.1
  have quiet : Quiet t := asked_quiet s id _ _ _ _ h.1
  refine ⟨fun hi => ?_, fun hi hs => ?_, fun hi hs => ?_⟩
  · exact asking_refused s id .sponsorWord code [i] tag _ _ _ h
      ((answer t).trans (suspendRequest_of_lt t on hi)) rfl
  · exact asking_taken s id .sponsorWord code [i] tag t .duplicate false _ h
      ((answer t).trans (suspendRequest_of_eq t on hi (flag.trans hs))) ⟨rfl, rfl⟩ rfl quiet
  · exact asking_taken s id .sponsorWord code [i] tag (writeSuspended t i.toNat on) .accepted false _ h
      ((answer t).trans (suspendRequest_of_ne t on hi (flag ▸ hs))) ⟨rfl, rfl⟩ rfl
      (quiet.of_report rfl)

/-- Settles O4: the two requests by the flag they find. -/
theorem suspendAndResumeWriteTheFlag : Obligations.SuspendAndResumeWriteTheFlag := by
  refine ⟨fun s id tag i h hi => ?_, fun s id tag i h hi => ?_⟩
  · exact ⟨(asking_suspendRequest h fun t => answer_suspend t tag i).1 hi,
      (asking_suspendRequest h fun t => answer_sponsorResume t tag i).1 hi⟩
  · obtain ⟨-, susSame, susNew⟩ := asking_suspendRequest h fun t => answer_suspend t tag i
    obtain ⟨-, resSame, resNew⟩ := asking_suspendRequest h fun t => answer_sponsorResume t tag i
    have canonical := fun code => asked_wf s id .sponsorWord code [i] tag h.2.1
    refine ⟨fun hs => ⟨susNew hi (by simp [hs]), ?_, fun a ha => ?_⟩, susSame hi,
      fun hs => ⟨resNew hi (by simp [hs]), ?_, fun a ha => ?_⟩, resSame hi⟩
    · exact (sponsorState_suspended_iff _ _).2 (sponsorSuspended_writeSuspended (canonical 4) _ true)
    · exact readByte_writeSuspended (canonical 4) _ _ ha
    · rw [Ne, sponsorState_suspended_iff, sponsorSuspended_writeSuspended (canonical 5) _ false]
      simp
    · exact readByte_writeSuspended (canonical 5) _ _ ha

end Sys2Proof.SponsorProofs
end

section
/-! CLEAR_EXPOSURE and CLEAR_GAME (R37, R80, R88). -/

namespace Sys2Proof.SponsorProofs
open Sys2Proof.Machine Sys2Proof.FrameProofs

/-! ### The team records after CLEAR_GAME (R88) -/

/-- The shadow with both team records begun anew. -/
def begunRecords (m : Memory) (timeouts : Nat) : Memory :=
  writeAll m (clearTeamBytes .home timeouts ++ clearTeamBytes .away timeouts)

section
variable {m : Memory} (h : Memory.wf m = true) (timeouts : Nat)
include h

theorem begunRecords_wf : Memory.wf (begunRecords m timeouts) = true := writeAll_wf _ m h

theorem readByte_begunRecords_other {a : Nat} (ha : ∀ x, a < teamOffset x ∨ teamOffset x + 4 ≤ a) :
    readByte (begunRecords m timeouts) a = readByte m a := by
  refine readByte_writeAll_other _ m a h fun b hb => ?_
  have home := ha .home
  have away := ha .away
  simp only [clearTeamBytes, List.mem_append, List.mem_cons, List.not_mem_nil, or_false] at hb
  rcases hb with (rfl | rfl | rfl | rfl) | (rfl | rfl | rfl | rfl) <;> dsimp only <;> omega

theorem readByte_begunRecords_team (x : Team) {b : Nat × Byte} (hb : b ∈ clearTeamBytes x timeouts) :
    readByte (begunRecords m timeouts) b.1 = b.2 := by
  refine readByte_writeAll_mem _ m h (by simp [clearTeamBytes, teamOffset]) b ?_
  cases x
  · exact List.mem_append_left _ hb
  · exact List.mem_append_right _ hb

theorem teamScore_begunRecords (x : Team) : teamScore (begunRecords m timeouts) x = 0 := by
  have b0 := readByte_begunRecords_team h timeouts x (b := (teamOffset x, 0)) (by simp [clearTeamBytes])
  have b1 := readByte_begunRecords_team h timeouts x (b := (teamOffset x + 1, 0))
    (by simp [clearTeamBytes])
  dsimp only at b0 b1
  simp [teamScore, readLE, b0, b1]

theorem teamFouls_begunRecords (x : Team) : teamFouls (begunRecords m timeouts) x = 0 := by
  have b2 := readByte_begunRecords_team h timeouts x (b := (teamOffset x + 2, 0))
    (by simp [clearTeamBytes])
  dsimp only at b2
  simp [teamFouls, b2]

theorem teamTimeouts_begunRecords (x : Team) (ht : timeouts ≤ 9) :
    teamTimeouts (begunRecords m timeouts) x = timeouts := by
  have b3 := readByte_begunRecords_team h timeouts x
    (b := (teamOffset x + 3, BitVec.ofNat 8 timeouts)) (by simp [clearTeamBytes])
  dsimp only at b3
  rw [teamTimeouts, b3, BitVec.toNat_ofNat]
  omega

theorem teamAbbr_begunRecords (x : Team) : teamAbbr (begunRecords m timeouts) x = teamAbbr m x := by
  have code : ∀ k, 4 ≤ k → k < 7 →
      readByte (begunRecords m timeouts) (teamOffset x + k) = readByte m (teamOffset x + k) := by
    intro k h4 h7
    refine readByte_begunRecords_other h timeouts fun y => ?_
    cases x <;> cases y <;> simp only [teamOffset] <;> omega
  simp only [teamAbbr, code 4 (by omega) (by omega), code 5 (by omega) (by omega),
    code 6 (by omega) (by omega)]

end

/-! ### What the capture of a request word leaves of the fields CLEAR_GAME reads -/

section
variable (s : State) (id : BitVec 8) (w : ReqWord) (code : Byte) (params : List Byte) (tag : Byte)
  (h : Memory.wf s.path.shadow = true)
include h

theorem readClockConfig_asked :
    readClockConfig (asked s id w code params tag).path.shadow = readClockConfig s.path.shadow := by
  have low : ∀ a, a < 0x1000 → readByte (asked s id w code params tag).path.shadow a =
      readByte s.path.shadow a := fun a => readByte_asked_low s id w code params tag a h
  simp [readClockConfig, readFlag, readLE, low]

theorem teamAbbr_asked (x : Team) :
    teamAbbr (asked s id w code params tag).path.shadow x = teamAbbr s.path.shadow x := by
  have high : ∀ a, 0x1060 ≤ a → readByte (asked s id w code params tag).path.shadow a =
      readByte s.path.shadow a := fun a => readByte_asked_high s id w code params tag a h
  cases x <;> simp [teamAbbr, teamOffset, high]

end

/-! ### CLEAR_GAME on any clock (R80, R88) -/

/-- The clock unit at the start of a game (R80). -/
def clearedClock (c : ClockUnit) : ClockUnit :=
  { c with
    value := (match c.config.mode with
      | .down => c.config.startValue
      | .up => 0),
    period := 1, state := .stopped, soft := false, added := false,
    shotValue := c.config.shotReset, shotOn := c.config.shotAtClear,
    hornGame := none, hornShot := none }

/-- The state CLEAR_GAME makes of `t` with `c` as the clock unit after the stop. -/
def newGame (t : State) (c : ClockUnit) : State :=
  { t with
    clock := clearedClock c, score := { t.score with flash := none, flashAsk := none },
    path := { t.path with shadow := begunRecords t.path.shadow c.config.timeouts } }

theorem clearGameRequest_of_stopped {t : State} (h : t.clock.state ≠ .running) :
    clearGameRequest t = (newGame t t.clock, verdict .accepted) := by
  rw [clearGameRequest, clearClock, stopForGame, if_neg h]
  rfl

/-- A stop of the clock, with or without a pending configuration, in one equation. -/
theorem stopClock_eq_stoppedConfigured (t : State) (target : GameState) (cause : ClockCause) :
    stopClock t target cause =
      raise (refreshDue { t with clock := stoppedConfigured t t.gateRun t.clock target cause } .clockStop)
        .clockStopped
        [(0, leBytes 1 cause.code), (1, leBytes 1 t.clock.period), (4, leBytes 4 t.clock.value)] := by
  cases hp : t.clock.configPending with
  | true =>
    rw [stopClock_pending_eq t target cause hp, stoppedConfigured, if_pos hp]
  | false =>
    rw [stopClock_eq t target cause hp, stoppedConfigured, hp]
    rfl

/-- The clock unit after the stop that CLEAR_GAME makes of a RUNNING clock. -/
def haltedClock (t : State) : ClockUnit :=
  stoppedConfigured t t.gateRun { t.clock with soft := false } .stopped .soft

theorem clearGameRequest_of_running {t : State} (h : t.clock.state = .running) :
    clearGameRequest t =
      (raise (refreshDue (newGame t (haltedClock t)) .clockStop) .clockStopped
        [(0, leBytes 1 ClockCause.soft.code), (1, leBytes 1 t.clock.period),
          (4, leBytes 4 t.clock.value)], verdict .accepted) := by
  rw [clearGameRequest, clearClock, stopForGame, if_pos h, stopClock_eq_stoppedConfigured]
  rfl

theorem haltedClock_asked (s : State) (id : BitVec 8) (w : ReqWord) (code : Byte) (params : List Byte)
    (tag : Byte) (h : Memory.wf s.path.shadow = true) :
    haltedClock (asked s id w code params tag) = haltedClock s := by
  simp only [haltedClock, stoppedConfigured, asked_clock, asked_gateRun, asked_comp,
    readClockConfig_asked s id w code params tag h]

/-- Settles O5: CLEAR_EXPOSURE, then CLEAR_GAME on a clock that stands and on one that runs. -/
theorem clearRequestsZeroExposureAndGame : Obligations.ClearRequestsZeroExposureAndGame := by
  intro s id tag h e t cleared begunAnew clean halted
  have canonical : Memory.wf t.path.shadow = true := asked_wf s id .showWord 3 [] tag h.2.1
  have quiet : Quiet t := asked_quiet s id .showWord 3 [] tag h.1
  have hclock : t.clock = s.clock := asked_clock ..
  have cleaned : ∀ c : ClockUnit, clean c (begunRecords t.path.shadow c.config.timeouts) := by
    refine fun c => ⟨begunRecords_wf canonical _, fun x => ⟨teamScore_begunRecords canonical _ x,
      teamFouls_begunRecords canonical _ x, ?_, teamTimeouts_begunRecords canonical _ x⟩,
      fun a ha => readByte_begunRecords_other canonical _ ha⟩
    exact (teamAbbr_begunRecords canonical _ x).trans (teamAbbr_asked s id _ _ _ _ h.2.1 x)
  have begun : ∀ c : ClockUnit, begunAnew c (begunRecords t.path.shadow c.config.timeouts) =
      recorded (newGame t c) .showWord tag .accepted false := by
    intro c
    simp only [begunAnew, newGame, t, asked_score]
    rfl
  refine ⟨?_, fun hs => ⟨_, cleaned _, ?_⟩, fun hs => ⟨_, cleaned _, ?_⟩⟩
  · exact asking_taken s id .showWord 4 [] tag _ .accepted false (verdict .accepted) h
      (answer_clearExposure e tag) ⟨rfl, rfl⟩ rfl ((asked_quiet s id .showWord 4 [] tag h.1).of_report rfl)
  · rw [begun, ← hclock]
    exact asking_taken s id .showWord 3 [] tag _ .accepted false (verdict .accepted) h
      ((answer_clearGame t tag).trans (clearGameRequest_of_stopped (hclock ▸ hs))) ⟨rfl, rfl⟩ rfl
      (quiet.of_report rfl)
  · have hhalt : haltedClock t = halted := haltedClock_asked s id _ _ _ _ h.2.1
    rw [begun, ← hhalt, ← hclock]
    refine (asking_answer s id .showWord 3 [] tag _ _ h
      ((answer_clearGame t tag).trans (clearGameRequest_of_running (hclock ▸ hs)))).trans
      (congrArg _ ?_)
    exact settle_recorded_stop (newGame t (haltedClock t)) .showWord tag _ (verdict .accepted)
      quiet.1 rfl _

/-! ### A capture into a sponsor entry (R36) -/

theorem reaches_eq_false_iff (bytes : List (Nat × Byte)) (off n : Nat) :
    reaches bytes off n = false ↔ ∀ b ∈ bytes, b.1 < off ∨ off + n ≤ b.1 := by
  simp only [reaches, List.any_eq_false, inRange, Bool.and_eq_true, decide_eq_true_eq]
  exact forall₂_congr fun _ _ => by omega

theorem captureBytes_ne_nil {s : State} {w : WriteReq} (h : classifyWrite s w = .captured) :
    captureBytes s w ≠ [] := by
  have hsome : ((writeBytes w).any fun b => inCaptured s b.1) = true := by
    unfold classifyWrite at h
    dsimp only at h
    split at h
    · cases h
    · split at h
      · cases h
      · split at h
        · cases h
        · split at h
          · assumption
          · cases h
  obtain ⟨b, hb, hin⟩ := List.any_eq_true.1 hsome
  exact List.ne_nil_of_mem
    (List.mem_filterMap.2 ⟨b, hb, by simp only [hin, if_true]⟩ :
      (b.1 - tableBase s, b.2) ∈ captureBytes s w)

section
variable {bytes : List (Nat × Byte)} {i : Nat} (hi : i < 32) (hne : bytes ≠ [])
  (h : ∀ b ∈ bytes, 0x3000 + i * 256 ≤ b.1 ∧ b.1 < 0x3000 + i * 256 + 256)

include h in
/-- A capture into a sponsor entry reaches nothing below the sponsor entries. -/
theorem reaches_below_sponsors {off n : Nat} (hoff : off + n ≤ 0x3000) : reaches bytes off n = false := by
  refine (reaches_eq_false_iff bytes off n).2 fun b hb => ?_
  have := h b hb
  omega

include h in
theorem completedWords_of_sponsorEntry : completedWords bytes = [] := by
  refine List.filter_eq_nil_iff.2 fun w _ => ?_
  have := wordOffset_bounds w
  rw [reaches_below_sponsors h (by omega)]
  simp

include hi hne h in
theorem reachedEntries_of_sponsorEntry : reachedEntries bytes = [i] := by
  have reached : ∀ j, reaches bytes (sponsorOffset j) 256 = true ↔ j = i := by
    intro j
    refine ⟨fun hj => ?_, fun hj => ?_⟩
    · by_contra hji
      refine Bool.eq_false_iff.1 ((reaches_eq_false_iff bytes _ 256).2 fun b hb => ?_) hj
      have := h b hb
      unfold sponsorOffset
      omega
    · subst hj
      obtain ⟨b, hb⟩ := List.exists_mem_of_ne_nil bytes hne
      refine List.any_eq_true.2 ⟨b, hb, ?_⟩
      simp only [inRange, Bool.and_eq_true, decide_eq_true_eq]
      exact h b hb
  rw [reachedEntries, List.filter_congr (q := fun j => j == i) fun j _ => by
    rw [Bool.eq_iff_iff, reached]; simp]
  rw [List.filter_beq, List.count_eq_one_of_mem List.nodup_range (List.mem_range.2 hi)]
  rfl

include hi hne h in
/-- The rotation unit alone acts on a capture into a sponsor entry. -/
theorem capture_of_sponsorEntry {s : State} {w : WriteReq} (hb : captureBytes s w = bytes) :
    capture s w = sponsorCaptured (mergeCapture s bytes) i := by
  have geometry : reachesGeometry bytes = false := by
    refine List.any_eq_false.2 fun f hf => ?_
    have low : f.off + f.width ≤ 0x3000 := by
      revert f
      decide
    rw [reaches_below_sponsors h low]
    simp
  have below := @reaches_below_sponsors bytes i h
  simp only [capture, hb, completedWords_of_sponsorEntry h, takeRequests, wordReactions,
    recordReactions, configReactions, reachedEntries_of_sponsorEntry hi hne h, geometry, reacting,
    List.foldl_cons, List.foldl_nil, below (show 0x240 + 32 ≤ 0x3000 by decide),
    below (show 0x2000 + 32 ≤ 0x3000 by decide), below (show 0x2020 + 32 ≤ 0x3000 by decide),
    below (show 0x1070 + 2 ≤ 0x3000 by decide), below (show 0x1060 + 2 ≤ 0x3000 by decide),
    Bool.false_eq_true, if_false]

end

/-- Settles O42: the sponsor's entry alone is reached, and R36's condition decides the latch. -/
theorem sponsorCapturesClearTheCapLatch : Obligations.SponsorCapturesClearTheCapLatch := by
  intro s w i quiet hlegal hclass hi bytes hbytes merged m met
  have result : exec (.sponsorEntryCapture w) s = .next (settle (sponsorCaptured merged i)) := by
    change arriving w s = _
    rw [arriving, if_pos hlegal, arriveWrite, hclass]
    dsimp only
    rw [capture_of_sponsorEntry hi (captureBytes_ne_nil hclass) hbytes (s := forwardWrite s w) rfl]
    rfl
  have decided : (sponsorCapping m i && decide (sponsorTarget m i ≠ 0) &&
      decide (sponsorTarget m i ≤ (sponsorAt merged i).acc)) = true ↔ met := by
    simp only [Bool.and_eq_true, decide_eq_true_eq, and_assoc]
    exact Iff.rfl
  rw [result]
  refine ⟨fun hmet => ?_, fun hmet => ?_⟩
  · rw [sponsorCaptured, if_pos (decided.2 hmet)]
    exact congrArg _ (settle_of_quiet _ (quiet.of_report rfl))
  · rw [sponsorCaptured, if_neg (fun hd => hmet (decided.1 hd))]
    exact congrArg _ (settle_of_quiet _ (quiet.of_report rfl))

end Sys2Proof.SponsorProofs
end

section
/-! What steps 3 to 6 of a LIVE FRAME_START make of each placement, from what step 3 found of it (R44, R45,
R48, R56, R58). -/

namespace Sys2Proof.SponsorProofs
open Sys2Proof.Machine Sys2Proof.FrameProofs

/-! ### The steps on every placement -/

theorem entrySuspended_eq (s : State) (e : StackEntry) :
    entrySuspended s e = e.sponsor.any (sponsorSuspended s.path.shadow) := by
  unfold entrySuspended
  cases e.sponsor <;> rfl

theorem topStayed_eq (before : State) (p : Nat) : topStayed before p =
    (topEntry (placementAt before p).stack).any fun e => !entrySuspended before e := by
  unfold topStayed
  split <;> next h => rw [h]; rfl

@[simp] theorem sansRot_rotSuspend (s : State) (p : Nat) : sansRot (rotSuspend s p) = sansRot s := rfl

@[simp] theorem sansRot_rotDropSpots (s : State) (p : Nat) : sansRot (rotDropSpots s p) = sansRot s := by
  simp [rotDropSpots]

@[simp] theorem sansRot_rotEnd (before : State) (returned : Bool) (s : State) (p : Nat) :
    sansRot (rotEnd before returned s p) = sansRot s := rfl

/-- A step that reads nothing but the placement it changes makes of each placement what it would make of it
alone. -/
theorem placementAt_foldl_step {op : State → Nat → State} (hop : ∀ t p, OnlyPlacement p t (op t p))
    (hkeep : ∀ t p, sansRot (op t p) = sansRot t) {s : State} {f : Nat → Placement → Placement}
    (hf : ∀ t p, p < t.rot.placements.length → sansRot t = sansRot s →
      placementAt (op t p) p = f p (placementAt t p))
    {l : List Nat} (hl : l.Nodup) {q : Nat} (hq : q ∈ l) (hlt : q < s.rot.placements.length) :
    placementAt (l.foldl op s) q = f q (placementAt s q) := by
  obtain ⟨before, after, rfl⟩ := List.append_of_mem hq
  obtain ⟨-, hnodup, hdisjoint⟩ := List.nodup_append.1 hl
  have hbefore : q ∉ before := fun h => hdisjoint q h q List.mem_cons_self rfl
  obtain ⟨hat, hturn⟩ := placementAt_foldl_turn hop hbefore (List.nodup_cons.1 hnodup).1 s
  rw [hturn, hf _ q (by rwa [length_foldl_placements hop]) (view_foldl s hkeep before), hat]

theorem sansRot_rotEmpty (s : State) : sansRot (rotEmpty s) = sansRot s :=
  view_foldl s sansRot_rotEmptyOne placementList

theorem sansRot_rotSuspended (s : State) : sansRot (rotSuspended s) = sansRot s :=
  (view_foldl _ sansRot_rotSuspend _).trans (sansRot_rotEmpty s)

section
variable (s : State) (p : Nat)

/-- Placement `p` as step 4 finds it. -/
def foundAt : Placement := emptyStep s p (placementAt s p)

/-- Placement `p` as step 5 finds it. -/
def keptAt : Placement := suspendStep s (foundAt s p)

/-- Placement `p` as step 6 finds it. -/
def runnableAt : Placement := dropStep s (keptAt s p)

/-- The top entry of `p` that step 4 finds stays on top through it. -/
def staysAt : Bool := (topEntry (foundAt s p).stack).any fun e => !entrySuspended s e

/-- Placement `p` as step 7 finds it. -/
def endedAt (returned : Bool) : Placement := endStep returned (staysAt s p) (runnableAt s p)

theorem foundAt_of_emptied (h : emptied s p = true) : foundAt s p =
    { placementAt s p with fields := readPlacement s.path.shadow p, stack := [], spots := [] } := by
  unfold foundAt emptyStep
  exact if_pos h

theorem foundAt_of_not_emptied (h : emptied s p = false) :
    foundAt s p = { placementAt s p with fields := readPlacement s.path.shadow p } := by
  unfold foundAt emptyStep
  exact if_neg (Bool.eq_false_iff.1 h)

theorem keptAt_of_emptied (h : emptied s p = true) : keptAt s p = foundAt s p := by
  rw [keptAt, suspendStep, foundAt_of_emptied s p h]
  rfl

theorem runnableAt_of_emptied (h : emptied s p = true) : runnableAt s p = foundAt s p := by
  rw [runnableAt, dropStep, keptAt_of_emptied s p h, foundAt_of_emptied s p h]
  rfl

theorem endedAt_of_emptied (h : emptied s p = true) (returned : Bool) :
    endedAt s p returned = foundAt s p := by
  rw [endedAt, endStep, runnableAt_of_emptied s p h, foundAt_of_emptied s p h]
  simp [endBound, endTop, topEntry]

/-- A placement that steps 4 to 7 pass over is emptied. -/
theorem emptied_of_not_active {p : Nat} (hp : p < 4) (h : p ∉ activeList s) : emptied s p = true := by
  have hact : rotActive s p = false := Bool.eq_false_iff.2 fun ha =>
    h (List.mem_filter.2 ⟨mem_placementList.2 hp, ha⟩)
  unfold rotActive at hact
  unfold emptied
  cases hen : layerEnable s.path.shadow p <;> cases hb : bindingChanged s p <;> simp_all

theorem mem_activeList {p : Nat} (hp : p < 4) (h : emptied s p = false) : p ∈ activeList s := by
  by_contra hact
  rw [emptied_of_not_active s hp hact] at h
  cases h

end

section
variable {s : State} {p : Nat} (hp : p < 4) (h4 : s.rot.placements.length = 4)
include hp h4

theorem placementAt_rotEmpty : placementAt (rotEmpty s) p = foundAt s p := by
  refine placementAt_foldl_step onlyPlacement_rotEmptyOne sansRot_rotEmptyOne (fun t q hq ht => ?_)
    (by decide) (mem_placementList.2 hp) (by omega)
  have hpath : t.path = s.path := (congrArg State.path ht :)
  rw [placementAt_rotEmptyOne hq, emptyStep, emptyStep, hpath]

theorem placementAt_rotSuspended : placementAt (rotSuspended s) p = keptAt s p := by
  by_cases hact : p ∈ activeList s
  · rw [keptAt, ← placementAt_rotEmpty hp h4]
    refine placementAt_foldl_step onlyPlacement_rotSuspend sansRot_rotSuspend
      (f := fun _ => suspendStep s) (fun t q hq ht => ?_)
      (nodup_activeList s) hact (by simp [h4, hp])
    have hpath : t.path = s.path := (congrArg State.path (ht.trans (sansRot_rotEmpty s)) :)
    rw [placementAt_rotSuspend hq]
    simp only [suspendStep, entrySuspended, hpath]
  · rw [rotSuspended, placementAt_foldl_other onlyPlacement_rotSuspend hact, placementAt_rotEmpty hp h4,
      keptAt_of_emptied s p (emptied_of_not_active s hp hact)]

theorem placementAt_rotDropped : placementAt (rotDropped s) p = runnableAt s p := by
  by_cases hact : p ∈ activeList s
  · rw [runnableAt, ← placementAt_rotSuspended hp h4]
    refine placementAt_foldl_step onlyPlacement_rotDropSpots sansRot_rotDropSpots
      (f := fun _ => dropStep s) (fun t q hq ht => ?_)
      (nodup_activeList s) hact (by simp [h4, hp])
    have hpath : t.path = s.path := (congrArg State.path (ht.trans (sansRot_rotSuspended s)) :)
    rw [placementAt_rotDropSpots hq]
    simp only [dropStep, cannotRun, hpath]
  · have hem := emptied_of_not_active s hp hact
    rw [rotDropped, placementAt_foldl_other onlyPlacement_rotDropSpots hact,
      placementAt_rotSuspended hp h4, keptAt_of_emptied s p hem, runnableAt_of_emptied s p hem]

theorem topStayed_rotEmpty : topStayed (rotEmpty s) p = staysAt s p := by
  have hpath : (rotEmpty s).path = s.path := (congrArg State.path (sansRot_rotEmpty s) :)
  rw [topStayed_eq, staysAt, placementAt_rotEmpty hp h4]
  simp only [entrySuspended_eq, hpath]

theorem placementAt_rotEnded (returned : Bool) :
    placementAt (rotEnded returned s) p = endedAt s p returned := by
  by_cases hact : p ∈ activeList s
  · rw [endedAt, ← topStayed_rotEmpty hp h4, ← placementAt_rotDropped hp h4]
    exact placementAt_foldl_step (fun t q => onlyPlacement_rotEnd t q _ _) (sansRot_rotEnd _ _)
      (f := fun q => endStep returned (topStayed (rotEmpty s) q))
      (fun t q hq _ => placementAt_rotEnd hq _ _) (nodup_activeList s) hact (by simp [h4, hp])
  · have hem := emptied_of_not_active s hp hact
    rw [rotEnded, placementAt_foldl_other (fun t q => onlyPlacement_rotEnd t q _ _) hact,
      placementAt_rotDropped hp h4, runnableAt_of_emptied s p hem, endedAt_of_emptied s p hem]

end

theorem sansRot_rotEnded (s : State) (returned : Bool) : sansRot (rotEnded returned s) = sansRot s :=
  (view_foldl _ (sansRot_rotEnd _ _) _).trans (sansRot_rotBeforeEnds s)

/-! ### The end of the top entry (R40, R45, R56) -/

theorem topEnds_iff (counts : Bool) (e : StackEntry) : topEnds counts e = true ↔
    e.kind ≠ .replay ∧ (e.endMark = true ∨ (counts = true ∧ ∃ d, e.dwell = some d ∧ d ≤ 1)) := by
  unfold topEnds
  cases e.kind <;> cases e.dwell <;> simp

theorem loseFrame_append (below : List StackEntry) (e : StackEntry) :
    loseFrame (below ++ [e]) = below ++ [{ e with dwell := e.dwell.map (· - 1) }] := by
  induction below with
  | nil => rfl
  | cons x below ih => cases below <;> simp_all [loseFrame]

section
variable {x : Placement}

theorem endTop_of_nil (counts : Bool) (h : x.stack = []) : endTop counts x = x := by
  simp [endTop, h, topEntry]

theorem endBound_of_nil (h : x.stack = []) : endBound x = x := by simp [endBound, h, topEntry]

theorem endTop_of_append (counts : Bool) {below : List StackEntry} {e : StackEntry}
    (h : x.stack = below ++ [e]) : endTop counts x =
      if topEnds counts e then { x with stack := below, lowest := rotatedLowest e x.lowest }
      else if counts then { x with stack := below ++ [{ e with dwell := e.dwell.map (· - 1) }] }
      else x := by
  simp only [endTop, h, topEntry_append, popTop, List.dropLast_concat, loseFrame_append]

theorem endBound_of_append {below : List StackEntry} {e : StackEntry} (h : x.stack = below ++ [e]) :
    endBound x = { x with stack := [], lowest := rotatedLowest e x.lowest } := by
  simp only [endBound, h, topEntry_append]

theorem fields_endStep (returned counts : Bool) : (endStep returned counts x).fields = x.fields := by
  unfold endStep endBound endTop
  split
  · split <;> rfl
  · split
    · rfl
    · split
      · rfl
      · split <;> rfl

theorem spots_endStep (returned counts : Bool) : (endStep returned counts x).spots = x.spots := by
  unfold endStep endBound endTop
  split
  · split <;> rfl
  · split
    · rfl
    · split
      · rfl
      · split <;> rfl

end

/-! ### The placement step 7 finds -/

section
variable (s : State) (p : Nat) (returned : Bool)

theorem runnableAt_of_not_emptied (h : emptied s p = false) : runnableAt s p =
    { placementAt s p with
      fields := readPlacement s.path.shadow p
      stack := (placementAt s p).stack.filter fun e => !entrySuspended s e
      spots := (placementAt s p).spots.filter fun y =>
        (cannotRun s (readPlacement s.path.shadow p) y).isNone } := by
  rw [runnableAt, keptAt, foundAt_of_not_emptied s p h]
  rfl

theorem staysAt_of_not_emptied (h : emptied s p = false) :
    staysAt s p = (placementAt s p).stack.getLast?.any fun e => !entrySuspended s e := by
  rw [staysAt, foundAt_of_not_emptied s p h]
  rfl

theorem fields_endedAt : (endedAt s p returned).fields = readPlacement s.path.shadow p := by
  cases h : emptied s p with
  | true => rw [endedAt_of_emptied s p h, foundAt_of_emptied s p h]
  | false => rw [endedAt, fields_endStep, runnableAt_of_not_emptied s p h]

/-- Steps 3 to 6 as the statements say them. -/
theorem stackAfterEnds_eq : stackAfterEnds s returned p = (endedAt s p returned).stack := by
  cases h : emptied s p with
  | true =>
    rw [endedAt_of_emptied s p h, foundAt_of_emptied s p h]
    refine if_pos ?_
    simpa [emptied, bindingChanged] using h
  | false =>
    have hnot : ¬(layerEnable s.path.shadow p = false ∨
        (readPlacement s.path.shadow p).bound ≠ (placementAt s p).fields.bound) := by
      simpa [emptied, bindingChanged] using h
    rw [endedAt, endStep, runnableAt_of_not_emptied s p h]
    unfold stackAfterEnds
    dsimp only
    rw [if_neg hnot]
    simp only [← entrySuspended_eq, ← staysAt_of_not_emptied s p h, Bool.and_eq_true]
    split
    · generalize (placementAt s p).stack.filter _ = kept
      rcases List.eq_nil_or_concat' kept with rfl | ⟨below, e, rfl⟩
      · rw [endBound_of_nil rfl]
      · rw [endBound_of_append rfl]
    · generalize (placementAt s p).stack.filter _ = kept
      rcases List.eq_nil_or_concat' kept with rfl | ⟨below, e, rfl⟩
      · rw [endTop_of_nil _ rfl]
        rfl
      · have hends : (e.kind ≠ .replay ∧
            (e.endMark = true ∨ (staysAt s p = true ∧ e.dwell.any (decide <| · ≤ 1) = true))) ↔
            topEnds (staysAt s p) e = true := by
          rw [topEnds_iff]
          cases e.dwell <;> simp
        rw [endTop_of_append _ rfl]
        simp only [List.getLast?_concat, List.dropLast_concat, hends]
        split
        · rfl
        · split <;> rfl

end
end Sys2Proof.SponsorProofs
end

section
/-! The placements in their turns: the state in which a step finds a placement, and the spots that the steps
drop (R44, R48, R49, R58). -/

namespace Sys2Proof.SponsorProofs
open Sys2Proof.Machine Sys2Proof.FrameProofs

/-! ### What each step raises -/

section
variable (s : State) (p : Nat)

/-- Why step 3 drops the spots of placement `p` (R58; log 29). -/
def emptyCause : DropCause := if layerEnable s.path.shadow p then .replayBound else .placementOff

/-- The state step 3 leaves but for the fields it takes. -/
theorem rotEmptyOne_eq : rotEmptyOne s p = takeFields
    (if emptied s p then
      raiseDrops (emptyPlacement s p) p ((placementAt s p).spots.map fun y => (y, emptyCause s p))
    else s) p := by
  unfold rotEmptyOne emptied emptyCause
  dsimp only
  cases layerEnable s.path.shadow p <;> cases bindingChanged s p <;> rfl

theorem appends_rotEmptyOne : Appends s (rotEmptyOne s p) := by
  rw [rotEmptyOne_eq]
  split
  · exact appends_raiseDrops (emptyPlacement s p) p _
  · exact .refl s

theorem mem_details_rotEmptyOne {d : List Byte} : d ∈ details .spotDropped (rotEmptyOne s p) ↔
    d ∈ details .spotDropped s ∨
      (emptied s p = true ∧ ∃ y ∈ (placementAt s p).spots, d = dropDetail p y (emptyCause s p)) := by
  rw [rotEmptyOne_eq]
  cases emptied s p with
  | false => exact ⟨.inl, fun h => h.resolve_right fun h => nomatch h.1⟩
  | true =>
    refine (mem_details_raiseDrops (emptyPlacement s p) p _).trans (or_congr .rfl ?_)
    simp

theorem appends_rotDropSpots : Appends s (rotDropSpots s p) :=
  (appends_of_raised rfl : Appends s (modifyPlacement s p _)).trans (appends_raiseDrops _ p _)

theorem mem_details_rotDropSpots {d : List Byte} : d ∈ details .spotDropped (rotDropSpots s p) ↔
    d ∈ details .spotDropped s ∨ ∃ y ∈ (placementAt s p).spots, ∃ c,
      cannotRun s (placementAt s p).fields y = some c ∧ d = dropDetail p y c := by
  refine (mem_details_raiseDrops _ p _).trans (or_congr .rfl ?_)
  simp only [List.mem_filterMap, Option.map_eq_some_iff]
  constructor
  · rintro ⟨_, ⟨y, hy, c, hc, rfl⟩, hd⟩
    exact ⟨y, hy, c, hc, hd⟩
  · rintro ⟨y, hy, c, hc, hd⟩
    exact ⟨(y, c), ⟨y, hy, c, hc, rfl⟩, hd⟩

theorem appends_selectOn : Appends s (selectOn s p) := by
  obtain ⟨i, c, -, -, h⟩ | ⟨-, h⟩ := selectOn_cases s p
  · rw [h]
    exact .refl s
  · rw [h]
    exact appends_raise (putBottom s p (fallbackEntry s p)) _ _

theorem appends_pushOn : Appends s (pushOn s p) := by
  unfold pushOn
  split
  · exact appends_pushWalk p _ s
  · exact .refl s

theorem appends_rotRefill : Appends s (rotRefill s p) := by
  unfold rotRefill
  dsimp only
  split
  · split
    · exact appends_selectOn s p
    · exact .refl s
  · refine .trans ?_ (appends_pushOn _ p)
    split
    · exact .refl s
    · exact appends_selectOn s p

/-- A selection drops no spot. -/
theorem details_selectOn : details .spotDropped (selectOn s p) = details .spotDropped s := by
  obtain ⟨i, c, -, -, h⟩ | ⟨-, h⟩ := selectOn_cases s p
  · rw [h]
    rfl
  · rw [h, details, raise, raiseReport, detailsOf_append]
    exact List.append_nil _

end

/-- A walk drops spots of its placement for want of a creative (R49). -/
theorem mem_details_pushWalk {p : Nat} (l : List Nat) {s : State} (hp : p < s.rot.placements.length)
    {d : List Byte} (hd : d ∈ details .spotDropped (pushWalk p l s)) :
    d ∈ details .spotDropped s ∨ ∃ y ∈ (placementAt s p).spots, d = dropDetail p y .noCreative := by
  induction l generalizing s with
  | nil => exact .inl hd
  | cons i is ih =>
    unfold pushWalk at hd
    split at hd
    · exact ih hp hd
    · next y hy =>
      split at hd
      · exact ih hp hd
      · split at hd
        · next c _ =>
          refine .inl ?_
          have hraised : (pushSpot s p y c).report = s.report := by
            unfold pushSpot
            dsimp only
            split <;> rfl
          rwa [details, hraised] at hd
        · have hplaces := placements_raiseDrops (removeSpot s p i) p [(y, .noCreative)]
          rcases ih (by rw [hplaces]; simpa [removeSpot] using hp) hd with hd | ⟨z, hz, hd⟩
          · rcases (mem_details_raiseDrops _ p _).1 hd with hd | ⟨x, hx, hd⟩
            · exact .inl hd
            · rw [List.mem_singleton.1 hx] at hd
              exact .inr ⟨y, List.mem_of_find?_eq_some hy, hd⟩
          · rw [placementAt_of_placements hplaces, placementAt_removeSpot hp] at hz
            exact .inr ⟨z, (mem_spotsBut.1 hz).1, hd⟩

theorem mem_details_rotRefill {s : State} {p : Nat} (hp : p < s.rot.placements.length) {d : List Byte}
    (hd : d ∈ details .spotDropped (rotRefill s p)) :
    d ∈ details .spotDropped s ∨ ((placementAt s p).fields.bound = false ∧
      ∃ y ∈ (placementAt s p).spots, d = dropDetail p y .noCreative) := by
  have hpush : ∀ t : State, p < t.rot.placements.length → d ∈ details .spotDropped (pushOn t p) →
      d ∈ details .spotDropped t ∨ ∃ y ∈ (placementAt t p).spots, d = dropDetail p y .noCreative := by
    intro t ht hd
    unfold pushOn at hd
    split at hd
    · exact mem_details_pushWalk _ ht hd
    · exact .inl hd
  unfold rotRefill at hd
  dsimp only at hd
  split at hd
  · split at hd
    · rw [details_selectOn] at hd
      exact .inl hd
    · exact .inl hd
  · next hfree =>
    rw [Bool.not_eq_true] at hfree
    split at hd
    · exact (hpush s hp hd).imp_right fun h => ⟨hfree, h⟩
    · obtain ⟨b, heq, -⟩ := selectOn_bottom hp
      have h := hpush _ (by rw [(onlyPlacement_selectOn s p).1]; exact hp) hd
      rw [details_selectOn, heq] at h
      exact h.imp_right fun h => ⟨hfree, h⟩

/-! ### A placement in its turn -/

section
variable {op : State → Nat → State}

/-- The state in which a step finds placement `q`. -/
theorem exists_turn (hop : ∀ t p, OnlyPlacement p t (op t p)) (hkeep : ∀ t p, sansRot (op t p) = sansRot t)
    (happ : ∀ t p, Appends t (op t p)) {l : List Nat} (hl : l.Nodup) {q : Nat} (hq : q ∈ l) (s : State) :
    ∃ u, sansRot u = sansRot s ∧ placementAt u q = placementAt s q ∧
      u.rot.placements.length = s.rot.placements.length ∧ Appends (op u q) (l.foldl op s) := by
  obtain ⟨before, after, rfl⟩ := List.append_of_mem hq
  obtain ⟨-, hnodup, hdisjoint⟩ := List.nodup_append.1 hl
  have hbefore : q ∉ before := fun h => hdisjoint q h q List.mem_cons_self rfl
  refine ⟨before.foldl op s, view_foldl s hkeep before, placementAt_foldl_other hop hbefore s,
    length_foldl_placements hop before s, ?_⟩
  rw [List.foldl_append, List.foldl_cons]
  exact appends_foldl happ after _

/-- What a step raises, it raises of the placements as it finds them. -/
theorem mem_details_foldl (hop : ∀ t p, OnlyPlacement p t (op t p))
    (hkeep : ∀ t p, sansRot (op t p) = sansRot t) {k : NoticeKind} {new : Nat → List Byte → Prop}
    {l : List Nat} (hl : l.Nodup) {s : State}
    (hnew : ∀ t, sansRot t = sansRot s → t.rot.placements.length = s.rot.placements.length →
      ∀ p ∈ l, placementAt t p = placementAt s p → ∀ d ∈ details k (op t p), d ∈ details k t ∨ new p d)
    {d : List Byte} (hd : d ∈ details k (l.foldl op s)) :
    d ∈ details k s ∨ ∃ p ∈ l, new p d := by
  induction l using List.reverseRecOn with
  | nil => exact .inl hd
  | append_singleton l p ih =>
    obtain ⟨hnodup, -, hdisjoint⟩ := List.nodup_append.1 hl
    have hp : p ∉ l := fun h => hdisjoint p h p (List.mem_singleton_self p) rfl
    rw [List.foldl_append] at hd
    rcases hnew (l.foldl op s) (view_foldl s hkeep l) (length_foldl_placements hop l s) p (by simp)
      (placementAt_foldl_other hop hp s) d hd with hd | hd
    · refine (ih hnodup (fun t ht hlen r hr => hnew t ht hlen r (List.mem_append_left _ hr)) hd).imp_right
        fun ⟨r, hr, h⟩ => ⟨r, List.mem_append_left _ hr, h⟩
    · exact .inr ⟨p, by simp, hd⟩

end

/-! ### The spots that a FRAME_START drops -/

section
variable {s : State} (h4 : s.rot.placements.length = 4) {d : List Byte}

theorem mem_details_rotEmpty (hd : d ∈ details .spotDropped (rotEmpty s)) :
    d ∈ details .spotDropped s ∨ ∃ p < 4, emptied s p = true ∧
      ∃ y ∈ (placementAt s p).spots, d = dropDetail p y (emptyCause s p) := by
  refine (mem_details_foldl onlyPlacement_rotEmptyOne sansRot_rotEmptyOne (k := .spotDropped)
    (new := fun p d => emptied s p = true ∧ ∃ y ∈ (placementAt s p).spots,
      d = dropDetail p y (emptyCause s p))
    (by decide) (fun t ht _ p _ hat d hd => ?_) hd).imp_right
    fun ⟨p, hp, h⟩ => ⟨p, mem_placementList.1 hp, h⟩
  have hpath : t.path = s.path := (congrArg State.path ht :)
  simpa only [emptied, emptyCause, bindingChanged, hpath, hat] using (mem_details_rotEmptyOne t p).1 hd

include h4

theorem mem_details_rotDropped (hd : d ∈ details .spotDropped (rotDropped s)) :
    d ∈ details .spotDropped (rotEmpty s) ∨ ∃ p < 4, ∃ y ∈ (keptAt s p).spots, ∃ c,
      cannotRun s (keptAt s p).fields y = some c ∧ d = dropDetail p y c := by
  have hreport : (rotSuspended s).report = (rotEmpty s).report :=
    view_foldl (view := State.report) (f := rotSuspend) _ (fun _ _ => rfl) _
  have hsame : details .spotDropped (rotSuspended s) = details .spotDropped (rotEmpty s) := by
    rw [details, hreport, details]
  rw [← hsame]
  refine (mem_details_foldl onlyPlacement_rotDropSpots sansRot_rotDropSpots (k := .spotDropped)
    (new := fun p d => ∃ y ∈ (keptAt s p).spots, ∃ c,
      cannotRun s (keptAt s p).fields y = some c ∧ d = dropDetail p y c)
    (nodup_activeList s) (fun t ht _ p hp hat d hd => ?_) hd).imp_right
    fun ⟨p, hp, h⟩ => ⟨p, lt_of_mem_activeList hp, h⟩
  have hpath : t.path = s.path := (congrArg State.path (ht.trans (sansRot_rotSuspended s)) :)
  rw [placementAt_rotSuspended (lt_of_mem_activeList hp) h4] at hat
  simpa only [cannotRun, hpath, hat] using (mem_details_rotDropSpots t p).1 hd

theorem mem_details_rotRefilled (returned : Bool) (hd : d ∈ details .spotDropped (rotRefilled returned s)) :
    d ∈ details .spotDropped (rotDropped s) ∨ ∃ p < 4, (readPlacement s.path.shadow p).bound = false ∧
      ∃ y ∈ (runnableAt s p).spots, d = dropDetail p y .noCreative := by
  have hreport : (rotEnded returned s).report = (rotDropped s).report :=
    view_foldl (view := State.report) (f := rotEnd (rotEmpty s) returned) _ (fun _ _ => rfl) _
  have hsame : details .spotDropped (rotEnded returned s) = details .spotDropped (rotDropped s) := by
    rw [details, hreport, details]
  rw [← hsame]
  refine (mem_details_foldl onlyPlacement_rotRefill sansRot_rotRefill (k := .spotDropped)
    (new := fun p d => (readPlacement s.path.shadow p).bound = false ∧
      ∃ y ∈ (runnableAt s p).spots, d = dropDetail p y .noCreative)
    (nodup_activeList s) (fun t _ hlen p hp hat d hd => ?_) hd).imp_right
    fun ⟨p, hp, h⟩ => ⟨p, lt_of_mem_activeList hp, h⟩
  have hp4 := lt_of_mem_activeList hp
  rw [placementAt_rotEnded hp4 h4] at hat
  have h := mem_details_rotRefill (by rw [hlen, length_rotEnded, h4]; exact hp4) hd
  rwa [hat, fields_endedAt, endedAt, spots_endStep] at h

end

/-- For this cause a FRAME_START may drop this spot of placement `p` (R48, R49, R58; log 29). -/
def MayDrop (s : State) (p : Nat) (y : Spot) (c : DropCause) : Prop :=
  if emptied s p then c = emptyCause s p
  else match cannotRun s (readPlacement s.path.shadow p) y with
    | some c' => c = c'
    | none => c = .noCreative ∧ (readPlacement s.path.shadow p).bound = false

/-- Every SPOT_DROPPED of a FRAME_START is for a spot of a placement and for its cause. -/
theorem mayDrop_of_details {s : State} (h4 : s.rot.placements.length = 4) {returned : Bool} {d : List Byte}
    (hd : d ∈ details .spotDropped (rotRefilled returned s)) :
    d ∈ details .spotDropped s ∨ ∃ p < 4, ∃ y ∈ (placementAt s p).spots, ∃ c,
      MayDrop s p y c ∧ d = dropDetail p y c := by
  have hnone : ∀ {p} {y : Spot}, y ∈ (foundAt s p).spots → emptied s p = false := fun {p y} hy =>
    Bool.eq_false_iff.2 fun hem => by
      rw [foundAt_of_emptied s p hem] at hy
      cases hy
  rcases mem_details_rotRefilled h4 returned hd with hd | ⟨p, hp, hfree, y, hy, hd⟩
  · rcases mem_details_rotDropped h4 hd with hd | ⟨p, hp, y, hy, c, hc, hd⟩
    · rcases mem_details_rotEmpty hd with hd | ⟨p, hp, hem, y, hy, hd⟩
      · exact .inl hd
      · exact .inr ⟨p, hp, y, hy, _, by rw [MayDrop, if_pos hem], hd⟩
    · have hem := hnone hy
      rw [keptAt, foundAt_of_not_emptied s p hem] at hy hc
      have hc : cannotRun s (readPlacement s.path.shadow p) y = some c := hc
      exact .inr ⟨p, hp, y, hy, c, by simp [MayDrop, hem, hc], hd⟩
  · have hem := hnone (List.mem_filter.1 hy).1
    rw [runnableAt_of_not_emptied s p hem] at hy
    obtain ⟨hy, hcan⟩ := List.mem_filter.1 hy
    rw [Option.isNone_iff_eq_none] at hcan
    exact .inr ⟨p, hp, y, hy, .noCreative, by simp [MayDrop, hem, hcan, hfree], hd⟩

/-- Step 3 raises SPOT_DROPPED for every spot of an emptied placement (R58). -/
theorem details_of_emptied {s : State} {p : Nat} (hp : p < 4) (hem : emptied s p = true)
    {y : Spot} (hy : y ∈ (placementAt s p).spots) (returned : Bool) :
    dropDetail p y (emptyCause s p) ∈ details .spotDropped (rotRefilled returned s) := by
  obtain ⟨u, hkeep, hat, -, happ⟩ := exists_turn onlyPlacement_rotEmptyOne sansRot_rotEmptyOne
    appends_rotEmptyOne (by decide) (mem_placementList.2 hp) s
  have hpath : u.path = s.path := (congrArg State.path hkeep :)
  have hrest : Appends (rotEmpty s) (rotRefilled returned s) :=
    (appends_foldl (op := rotSuspend) (fun t _ => .refl t) _ _).trans
      ((appends_foldl appends_rotDropSpots _ _).trans
        ((appends_foldl (op := rotEnd (rotEmpty s) returned) (fun t _ => .refl t) _ _).trans
          (appends_foldl appends_rotRefill _ _)))
  refine hrest.details_subset _ (happ.details_subset _ ((mem_details_rotEmptyOne u p).2 (.inr ?_)))
  simp only [emptied, emptyCause, bindingChanged, hpath, hat] at hem ⊢
  exact ⟨hem, y, hy, rfl⟩

/-- Step 5 raises SPOT_DROPPED for every spot that cannot run (R48). -/
theorem details_of_cannotRun {s : State} {p : Nat} (hp : p < 4) (h4 : s.rot.placements.length = 4)
    (hem : emptied s p = false) {y : Spot} (hy : y ∈ (placementAt s p).spots) {c : DropCause}
    (hc : cannotRun s (readPlacement s.path.shadow p) y = some c) (returned : Bool) :
    dropDetail p y c ∈ details .spotDropped (rotRefilled returned s) := by
  obtain ⟨u, hkeep, hat, -, happ⟩ := exists_turn onlyPlacement_rotDropSpots sansRot_rotDropSpots
    appends_rotDropSpots (nodup_activeList s) (mem_activeList s hp hem) (rotSuspended s)
  have hpath : u.path = s.path := (congrArg State.path (hkeep.trans (sansRot_rotSuspended s)) :)
  have hrest : Appends (rotDropped s) (rotRefilled returned s) :=
    (appends_foldl (op := rotEnd (rotEmpty s) returned) (fun t _ => .refl t) _ _).trans
      (appends_foldl appends_rotRefill _ _)
  refine hrest.details_subset _ (happ.details_subset _ ((mem_details_rotDropSpots u p).2 (.inr ?_)))
  rw [hat, placementAt_rotSuspended hp h4, keptAt, foundAt_of_not_emptied s p hem]
  refine ⟨y, hy, c, ?_, rfl⟩
  simp only [cannotRun, hpath, suspendStep] at hc ⊢
  exact hc

/-! ### Step 7 finds a placement (R44) -/

/-- The state `u` in which step 7 finds placement `q`: lower placements are refilled, higher ones not. -/
structure RefillTurn (s : State) (returned : Bool) (q : Nat) (u : State) : Prop where
  kept : sansRot u = sansRot s
  length : u.rot.placements.length = 4
  found : placementAt u q = endedAt s q returned
  below : ∀ r < q, placementAt u r = placementAt (rotRefilled returned s) r
  above : ∀ r, q < r → r < 4 → placementAt u r = endedAt s r returned
  left : placementAt (rotRefilled returned s) q = placementAt (rotRefill u q) q
  appends : Appends (rotRefill u q) (rotRefilled returned s)
  first : q = 0 → u.rot.sponsors = s.rot.sponsors
  last : q = 3 → rotRefilled returned s = rotRefill u q

theorem sponsors_rotEnded (s : State) (returned : Bool) :
    (rotEnded returned s).rot.sponsors = s.rot.sponsors := by
  have hdrops : ∀ t p drops, (raiseDrops t p drops).rot.sponsors = t.rot.sponsors := fun t p drops =>
    congrArg RotationUnit.sponsors (rot_raiseAll ..)
  have hempty : ∀ t p, (rotEmptyOne t p).rot.sponsors = t.rot.sponsors := fun t p => by
    rw [rotEmptyOne_eq]
    split
    · exact hdrops _ _ _
    · rfl
  calc (rotEnded returned s).rot.sponsors
      = (rotDropped s).rot.sponsors := view_foldl (view := fun t => t.rot.sponsors)
        (f := rotEnd (rotEmpty s) returned) _ (fun _ _ => rfl) _
    _ = (rotSuspended s).rot.sponsors := view_foldl (view := fun t => t.rot.sponsors)
        (f := rotDropSpots) _ (fun t p => hdrops _ p _) _
    _ = (rotEmpty s).rot.sponsors := view_foldl (view := fun t => t.rot.sponsors)
        (f := rotSuspend) _ (fun _ _ => rfl) _
    _ = s.rot.sponsors := view_foldl (view := fun t => t.rot.sponsors) (f := rotEmptyOne) _ hempty _

/-- Every placement that steps 4 to 7 handle has its turn. -/
theorem exists_refillTurn {s : State} (h4 : s.rot.placements.length = 4) {q : Nat}
    (hq : q ∈ activeList s) (returned : Bool) : ∃ u, RefillTurn s returned q u := by
  have hq4 := lt_of_mem_activeList hq
  have hsorted : (activeList s).Pairwise (· < ·) :=
    (by decide : placementList.Pairwise (· < ·)).filter _
  have hlt := fun r (hr : r ∈ activeList s) => lt_of_mem_activeList hr
  obtain ⟨before, after, hl⟩ := List.append_of_mem hq
  rw [hl] at hsorted hlt
  obtain ⟨-, htail, hcross⟩ := List.pairwise_append.1 hsorted
  have hbefore : ∀ r ∈ before, r < q := fun r hr => hcross r hr q List.mem_cons_self
  have hafter : ∀ r ∈ after, q < r := (List.pairwise_cons.1 htail).1
  have hall : rotRefilled returned s =
      after.foldl rotRefill (rotRefill (before.foldl rotRefill (rotEnded returned s)) q) := by
    rw [rotRefilled, hl, List.foldl_append, List.foldl_cons]
  have hother : ∀ r, r ∉ before → r < 4 →
      placementAt (before.foldl rotRefill (rotEnded returned s)) r = endedAt s r returned :=
    fun r hr hr4 => by
      rw [placementAt_foldl_other onlyPlacement_rotRefill hr, placementAt_rotEnded hr4 h4]
  refine ⟨before.foldl rotRefill (rotEnded returned s), ?_, ?_, ?_, fun r hr => ?_, fun r hr hr4 => ?_,
    ?_, ?_, fun h0 => ?_, fun h3 => ?_⟩
  · rw [view_foldl _ sansRot_rotRefill, sansRot_rotEnded]
  · rw [length_foldl_placements onlyPlacement_rotRefill, length_rotEnded, h4]
  · exact hother q (fun h => Nat.lt_irrefl _ (hbefore q h)) hq4
  · have hr' : r ∉ after := fun h => by
      have := hafter r h
      omega
    rw [hall, placementAt_foldl_other onlyPlacement_rotRefill hr',
      (onlyPlacement_rotRefill _ q).2 r (by omega)]
  · refine hother r (fun h => ?_) hr4
    have := hbefore r h
    omega
  · rw [hall, placementAt_foldl_other onlyPlacement_rotRefill fun h => Nat.lt_irrefl _ (hafter q h)]
  · rw [hall]
    exact appends_foldl appends_rotRefill _ _
  · have hnil : before = [] := List.eq_nil_iff_forall_not_mem.2 fun r hr => by
      have := hbefore r hr
      omega
    rw [hnil]
    exact sponsors_rotEnded s returned
  · have hnil : after = [] := List.eq_nil_iff_forall_not_mem.2 fun r hr => by
      have := hafter r hr
      have := hlt r (by simp [hr])
      omega
    rw [hall, hnil]
    rfl

end Sys2Proof.SponsorProofs
end

section
/-! A LIVE FRAME_START from the state before it to the state after it, and what a selection takes in it
(R39, R41, R42, R44, R47). -/

namespace Sys2Proof.SponsorProofs
open Sys2Proof.Machine Sys2Proof.FrameProofs

/-! ### Before and after a FRAME_START -/

/-- The program source of the plan in force is a slot (R56). -/
def WasSlot (s : State) : Prop := ∃ p k, s.comp.plan = some p ∧ p.source = .slot k

/-- The program returns to the live canvas at the FRAME_START from `s` to `t` (R56). -/
def Returns (s t : State) : Prop := WasSlot s ∧ programSource t = .liveCanvas

/-- `t` is what a LIVE FRAME_START makes of `s`, the rotation unit's step 3 finding `z`. -/
structure FrameOf (s z t : State) (returned : Bool) : Prop where
  four : z.rot.placements.length = 4
  places : placementAt z = placementAt s
  path : z.path = s.path
  pointer : ∀ i, (sponsorAt z i).pointer = (sponsorAt s i).pointer
  sponsors : z.rot.sponsors.length = s.rot.sponsors.length
  rot : t.rot = (rotRefilled returned z).rot
  shadow : t.path.shadow = s.path.shadow
  source : programSource t = programSource z
  returns : returned = true ↔ Returns s t
  quiet : Quiet s → details .spotDropped z = []
  noticed : Quiet s → RingOk s → PlacesOk s → ∀ k ∈ rotKinds, details k (rotRefilled returned z) ≠ [] →
    Noticed t k fun d => d ∈ details k (rotRefilled returned z)

theorem pointers_rotOpen (s : State) (hand : List Handover) :
    (rotOpen s hand).rot.sponsors.map Sponsor.pointer = s.rot.sponsors.map Sponsor.pointer := by
  have haccrue : ∀ pairs k l, (accrueSponsors pairs k l).map Sponsor.pointer = l.map Sponsor.pointer := by
    intro pairs k l
    induction l generalizing k with
    | nil => rfl
    | cons x l ih => rw [accrueSponsors, List.map_cons, ih, List.map_cons]
  rw [rotOpen, rotCapTest, rot_raiseAll]
  refine (view_foldl (view := fun t => t.rot.sponsors.map Sponsor.pointer) _ (fun t i => ?_) _).trans
    (haccrue _ _ _)
  exact map_modify_of_eq (f := fun x : Sponsor => { x with capped := true }) (fun _ => rfl) _ _

theorem pointer_eq (s : State) (i : Nat) :
    (sponsorAt s i).pointer = (s.rot.sponsors.map Sponsor.pointer).getD i 0 := by
  rw [sponsorAt, List.getD_eq_getElem?_getD, List.getD_eq_getElem?_getD, List.getElem?_map]
  cases s.rot.sponsors[i]? <;> rfl

theorem returnsLive_iff (s t : State) : returnsLive s t = true ↔ Returns s t := by
  have hsource : ∀ x : Source, x.isSlot = true ↔ ∃ k, x = .slot k := fun x => by
    cases x <;> simp [Source.isSlot]
  have hlive : ∀ x : Source, x.isSlot = false ↔ x = .liveCanvas := fun x => by
    cases x <;> simp [Source.isSlot]
  rw [returnsLive, Bool.and_eq_true, Bool.not_eq_true', hlive, Returns]
  refine and_congr_left fun _ => ?_
  unfold planOnSlot WasSlot
  cases s.comp.plan with
  | none => simp
  | some p => simp [hsource]

/-- FRAME_START in LIVE (R4, R44). -/
theorem frameOf_frameStart {s : State} (hlive : modeAhead s = .live)
    (h4 : s.rot.placements.length = 4) : FrameOf s (rotOpen (frameSourced s) (handover s))
      (settle (frameStart s)) (returnsLive s (frameSourced s)) := by
  generalize hz : rotOpen (frameSourced s) (handover s) = z
  generalize hreturned : returnsLive s (frameSourced s) = returned
  have hrotated : frameRotated s = rotRefilled returned z := by
    rw [frameRotated, rotFrame_of_live ((mode_frameSourced s).trans hlive), hz, hreturned]
  have hplaces : z.rot.placements = s.rot.placements := by
    rw [← hz, placements_rotOpen, rot_frameSourced]
  have hpointers : z.rot.sponsors.map Sponsor.pointer = s.rot.sponsors.map Sponsor.pointer := by
    rw [← hz, pointers_rotOpen, rot_frameSourced]
  have hopen := sansAccrual_rotOpen (frameSourced s) (handover s)
  rw [hz] at hopen
  have hreplay : z.replay = (frameSourced s).replay := (congrArg State.replay hopen :)
  obtain ⟨hrot, hreplay', -⟩ := units_of_aside (aside_frameEnd (frameUnits s))
  rw [← settle_frameStart] at hrot hreplay'
  have hsourced : programSource (settle (frameStart s)) = programSource (frameSourced s) :=
    programSource_congr (hreplay'.trans ((frameUnits_keeps s State.replay fun _ => rfl).trans
      (frameRotated_keeps s State.replay (fun _ => rfl) fun _ => rfl)))
  constructor
  case four => rw [hplaces, h4]
  case places => exact placementAt_of_placements hplaces
  case path => exact (congrArg State.path hopen :).trans (path_frameSourced s)
  case pointer => exact fun i => by rw [pointer_eq, pointer_eq, hpointers]
  case sponsors => simpa using congrArg List.length hpointers
  case rot => rw [hrot, rot_frameUnits, hrotated]
  case shadow => exact (settle_shadow _).trans (shadow_frameUnits s)
  case source => exact hsourced.trans (programSource_congr hreplay.symm)
  case returns =>
    rw [← hreturned, returnsLive_iff, Returns, Returns, hsourced]
  case quiet =>
    intro hq
    have hraised : reportsBut [.exposureTarget] z.report.raised =
        reportsBut [.exposureTarget] (frameSourced s).report.raised :=
      (congrArg (fun u => u.report.raised) hopen :)
    rw [details, detailsOf_congr (by decide) hraised, detailsOf_congr (by decide) (raised_frameSourced s),
      detailsOf_congr (by decide) (raised_frameOpened s), hq.1]
    rfl
  case noticed =>
    intro hq hring hplaces k hk hne
    have hraised : (frameStart s).report.raised = (rotRefilled returned z).report.raised := by
      rw [← hrotated]
      exact frameUnits_keeps s (fun u => u.report.raised) fun _ => rfl
    have hdetails : detailsOf k (frameStart s).report.raised = details k (rotRefilled returned z) := by
      rw [details, hraised]
    rw [← hdetails] at hne ⊢
    exact noticed_settle (ringFits_frameStart ⟨hring, hplaces⟩) (onlyOccurrences_frameStart hq) hne

theorem noticed_mono {t : State} {k : NoticeKind} {P Q : List Byte → Prop} (h : Noticed t k P)
    (hPQ : ∀ d, P d → Q d) : Noticed t k Q := by
  obtain ⟨x, hx, hkind, hopen, hframe, hhouse, hdetail⟩ := h
  exact ⟨x, hx, hkind, hopen, hframe, hhouse, hPQ _ hdetail⟩

/-! ### What the statements say of a selection -/

section
variable (s t : State) (q : Nat)

/-- Sponsor `i` is eligible on placement `q` over these entries (R41). -/
def EligibleOver (base : List StackEntry) (i : Nat) : Prop :=
  (readPlacement s.path.shadow q).member i = true ∧ sponsorState t i = .ready ∧
    (∃ c, Usable s.path.shadow q i c) ∧ ∀ e ∈ base, e.sponsor ≠ some i

/-- Sponsor `n` of the priority order whose lowest mark `q` has in `t` (R39). -/
def placeOf (n : Nat) : Nat := ((placementAt t q).lowest + 1 + n) % 32

/-- Sponsor `i` is on top elsewhere: on a lower placement after its refill, or on a higher one after its
ends (R41, R44). -/
def TopElsewhere (i : Nat) : Prop := ∃ r, r < 4 ∧ r ≠ q ∧ ∃ e : StackEntry, e.sponsor = some i ∧
  ((r < q ∧ (placementAt t r).stack.getLast? = some e) ∨
    (q < r ∧ ∃ back, (back = true ↔ Returns s t) ∧ (stackAfterEnds s back r).getLast? = some e))

/-- The entry of a sponsor that a selection takes (R41, R42). -/
def Taken (base : List StackEntry) (b : StackEntry) (k i c : Nat) : Prop :=
  let f := readPlacement s.path.shadow q
  k < 32 ∧ i = placeOf t q k ∧ b.sponsor = some i ∧ EligibleOver s t q base i ∧
  Usable s.path.shadow q i c ∧ b.creative = sponsorCreative s.path.shadow i c ∧ b.endMark = false ∧
  b.kind = (if f.bound then .replay else .rotation) ∧
  b.dwell = (if f.bound = true ∨ f.held = true then none else some b.creative.dwell) ∧
  (f.separate = false → ∀ n, n < k → ¬EligibleOver s t q base (placeOf t q n)) ∧
  (f.separate = true →
    (¬TopElsewhere s t q i ∧
      ∀ n, n < k → EligibleOver s t q base (placeOf t q n) → TopElsewhere s t q (placeOf t q n)) ∨
    ((∀ n, n < 32 → EligibleOver s t q base (placeOf t q n) → TopElsewhere s t q (placeOf t q n)) ∧
      ∀ n, n < k → ¬EligibleOver s t q base (placeOf t q n))) ∧
  (q = 0 → ∃ n, n < 8 ∧ c = ((sponsorAt s i).pointer + n) % 8 ∧
    ∀ j, j < n → ¬Usable s.path.shadow q i (((sponsorAt s i).pointer + j) % 8)) ∧
  (q = 3 → s.rot.sponsors.length = 32 → (sponsorAt t i).pointer = (c + 1) % 8)

/-- The FALLBACK entry, where no sponsor is eligible (R47). -/
def FellBack (base : List StackEntry) (b : StackEntry) : Prop :=
  let f := readPlacement s.path.shadow q
  b = { kind := .fallback, sponsor := none, creative := f.fallback,
        dwell := if f.bound then none else some f.fallback.dwell, endMark := false } ∧
  (∀ i, i < 32 → ¬EligibleOver s t q base i) ∧
  (Quiet s → RingOk s → PlacesOk s → Noticed t .fallbackShown fun _ => True)

/-- What a selection puts below these entries (R41, R47). -/
def Selected (base : List StackEntry) (b : StackEntry) : Prop :=
  (∃ k i c, Taken s t q base b k i c) ∨ FellBack s t q base b

end

theorem pointer_movePointer (s : State) {i : Nat} (h : i < s.rot.sponsors.length) (c : Nat) :
    (sponsorAt (movePointer s i c) i).pointer = (c + 1) % 8 := by
  simp [movePointer, modifySponsor, sponsorAt, List.getD_eq_getElem?_getD, h]

/-! ### The selection in its turn -/

section
variable {s z t u : State} {returned : Bool} {q : Nat} (hf : FrameOf s z t returned)
include hf

theorem FrameOf.placementAt_eq (r : Nat) : placementAt t r = placementAt (rotRefilled returned z) r :=
  congrFun (placementAt_congr hf.rot) r

theorem FrameOf.sponsorAt_eq (i : Nat) : sponsorAt t i = sponsorAt (rotRefilled returned z) i := by
  rw [sponsorAt, hf.rot]
  rfl

theorem FrameOf.stackAfterEnds_eq (returned : Bool) (r : Nat) :
    stackAfterEnds s returned r = (endedAt z r returned).stack := by
  rw [← SponsorProofs.stackAfterEnds_eq]
  unfold stackAfterEnds
  rw [hf.places, hf.path]

variable (hu : RefillTurn z returned q u)
include hu

theorem RefillTurn.path_eq : u.path = s.path := ((congrArg State.path hu.kept :)).trans hf.path

theorem RefillTurn.fields_eq : (placementAt u q).fields = readPlacement s.path.shadow q := by
  rw [hu.found, fields_endedAt, hf.path]

theorem RefillTurn.capped_eq (i : Nat) : (sponsorAt u i).capped = (sponsorAt t i).capped := by
  have hall : sansRot (rotRefilled returned z) = sansRot z :=
    (view_foldl _ sansRot_rotRefill _).trans (sansRot_rotEnded z returned)
  rw [hf.sponsorAt_eq, (account_of_sansRot hu.kept i).2, (account_of_sansRot hall i).2]

theorem RefillTurn.eligible_iff (i : Nat) :
    eligible u q i = true ↔ EligibleOver s t q (placementAt u q).stack i := by
  have hstate : sponsorState u i = sponsorState t i := by
    simp only [sponsorState, hu.path_eq hf, hf.shadow, hu.capped_eq hf]
  rw [SponsorProofs.eligible_iff, hu.fields_eq hf, hstate, hu.path_eq hf]
  exact Iff.rfl

theorem RefillTurn.onOtherTop_iff (i : Nat) : onOtherTop u q i = true ↔ TopElsewhere s t q i := by
  rw [SponsorProofs.onOtherTop_iff]
  have hside : ∀ r, r < 4 → r ≠ q → ∀ e, (placementAt u r).stack.getLast? = some e ↔
      (r < q ∧ (placementAt t r).stack.getLast? = some e) ∨
      (q < r ∧ ∃ back, (back = true ↔ Returns s t) ∧ (stackAfterEnds s back r).getLast? = some e) := by
    intro r hr hne e
    rcases Nat.lt_or_gt_of_ne hne with h | h
    · simp only [h, Nat.not_lt.2 h.le, true_and, false_and, or_false, hu.below r h, hf.placementAt_eq]
    · have hback : ∀ back, (back = true ↔ Returns s t) ↔ back = returned := fun back =>
        (iff_congr .rfl hf.returns.symm).trans Bool.eq_iff_iff.symm
      simp only [h, Nat.not_lt.2 h.le, true_and, false_and, false_or, hu.above r h hr, hback,
        exists_eq_left, hf.stackAfterEnds_eq]
  refine exists_congr fun r => and_congr_right fun hr => and_congr_right fun hne =>
    exists_congr fun e => ?_
  rw [hside r hr hne e, and_comm]

/-- A selection in its turn takes what the statements say (R41, R42, R47). -/
theorem RefillTurn.selected (hq : q < 4) (hlow : (placementAt t q).lowest = (placementAt u q).lowest)
    (hlast : q = 3 → ∀ j, inStack (placementAt (selectOn u q) q).stack j = true →
      sponsorAt t j = sponsorAt (selectOn u q) j)
    (happ : Appends (selectOn u q) (rotRefilled returned z)) :
    ∃ b, placementAt (selectOn u q) q =
        { placementAt u q with stack := b :: (placementAt u q).stack } ∧
      Selected s t q (placementAt u q).stack b := by
  have hlen : q < u.rot.placements.length := by rw [hu.length]; exact hq
  have hplace : ∀ n, orderAt u q n = placeOf t q n := fun n => by rw [orderAt, placeOf, hlow]
  have hnot : ∀ i, eligible u q i = false ↔ ¬EligibleOver s t q (placementAt u q).stack i := fun i => by
    rw [← hu.eligible_iff hf, Bool.not_eq_true]
  have hfields := hu.fields_eq hf
  obtain ⟨i, c, hselect, hc, heq⟩ | ⟨hselect, heq⟩ := selectOn_cases u q
  · obtain ⟨k, hk, hi, helig, hplain, hseparate⟩ := selectSponsor_spec hselect
    obtain ⟨husable, n, hn, hcn, hbefore⟩ := usable_of_nextCreative hc
    have hputs : placementAt (selectOn u q) q =
        { placementAt u q with stack := selectedEntry u q i c :: (placementAt u q).stack } := by
      rw [heq]
      exact placementAt_modifyPlacement u hlen _
    refine ⟨_, hputs, .inl ⟨k, i, c, hk, hi.trans (hplace k), rfl, (hu.eligible_iff hf i).1 helig,
      hu.path_eq hf ▸ husable, by rw [selectedEntry, hu.path_eq hf], rfl, ?_, ?_, fun hs n hn => ?_,
      fun hs => ?_, fun h0 => ?_, fun h3 h32 => ?_⟩⟩
    · simp only [selectedEntry, hfields]
    · simp only [selectedEntry, hfields, Bool.or_eq_true]
    · exact (hnot _).1 (hplace n ▸ hplain (hfields ▸ hs) n hn)
    · simpa only [hplace, hu.eligible_iff hf, hnot, hu.onOtherTop_iff hf,
        ← Bool.not_eq_true] using hseparate (hfields ▸ hs)
    · have hpointer : (sponsorAt u i).pointer = (sponsorAt s i).pointer := by
        rw [sponsorAt, hu.first h0]
        exact hf.pointer i
      rw [hpointer, hu.path_eq hf] at hbefore
      exact ⟨n, hn, hpointer ▸ hcn, hbefore⟩
    · have hi32 : i < u.rot.sponsors.length := by
        have hlength : u.rot.sponsors.length = z.rot.sponsors.length := by
          simpa [sansRot] using congrArg (fun v => v.rot.sponsors.length) hu.kept
        rw [hlength, hf.sponsors, h32, hi]
        exact Nat.mod_lt _ (by decide)
      rw [hlast h3 i (by rw [hputs]; simp [inStack, selectedEntry]), heq]
      exact pointer_movePointer _ hi32 c
  · have hputs : placementAt (selectOn u q) q =
        { placementAt u q with stack := fallbackEntry u q :: (placementAt u q).stack } := by
      rw [heq]
      exact placementAt_modifyPlacement u hlen _
    refine ⟨_, hputs, .inr ⟨by simp only [fallbackEntry, hfields], fun i hi => ?_, fun h1 h2 h3 => ?_⟩⟩
    · exact (hnot i).1 (not_eligible_of_selectSponsor hselect hi)
    · have hraised : layout 16 [(0, leBytes 1 q)] ∈ details .fallbackShown (selectOn u q) := by
        rw [heq, details_raise]
        simp
      exact noticed_mono (hf.noticed h1 h2 h3 .fallbackShown (by decide)
        (List.ne_nil_of_mem (happ.details_subset _ hraised))) fun _ _ => trivial

end
end Sys2Proof.SponsorProofs
end

section
/-! What a LIVE FRAME_START makes of one placement: the ends, the refill and the push (R39 to R49, R55, R56,
R58). -/

namespace Sys2Proof.SponsorProofs
open Sys2Proof.Machine Sys2Proof.FrameProofs

/-! ### What the statements say of a placement before the FRAME_START -/

section
variable (s : State) (q : Nat)

/-- The entries of `q` whose sponsors are not SUSPENDED (R44). -/
def keptEntries : List StackEntry :=
  (placementAt s q).stack.filter fun e => !e.sponsor.any (sponsorSuspended s.path.shadow)

/-- The top entry of `q` stays on top through step 4 (R45). -/
def Stays : Prop := ∃ e, (placementAt s q).stack.getLast? = some e ∧
  e.sponsor.any (sponsorSuspended s.path.shadow) = false

/-- The spot pends on `q` and can run (R48). -/
def Waiting (y : Spot) : Prop := y ∈ (placementAt s q).spots ∧
  sponsorSuspended s.path.shadow y.sponsor = false ∧
  (readPlacement s.path.shadow q).member y.sponsor = true

/-- The entry on top ends at this FRAME_START (R45). -/
def Ends (e : StackEntry) : Prop :=
  e.kind ≠ .replay ∧ (e.endMark = true ∨ (Stays s q ∧ ∃ d, e.dwell = some d ∧ d ≤ 1))

/-- An entry of these is the sponsor's. -/
def InBase (base : List StackEntry) (i : Nat) : Prop := ∃ e ∈ base, e.sponsor = some i

/-- SPOT_DROPPED is taken between `s` and `t` with such a detail (R48, R58). -/
def DropNoticed (t : State) (detail : List Byte → Prop) : Prop :=
  Quiet s → RingOk s → PlacesOk s → Noticed t .spotDropped detail

end

/-- Why a spot cannot run any more, as the shadow has it (R48). -/
theorem cannotRun_iff (s : State) (f : PlacementFields) (y : Spot) :
    (cannotRun s f y = none ↔
      sponsorSuspended s.path.shadow y.sponsor = false ∧ f.member y.sponsor = true) ∧
    (sponsorSuspended s.path.shadow y.sponsor = true → cannotRun s f y = some .suspended) ∧
    (sponsorSuspended s.path.shadow y.sponsor = false → f.member y.sponsor = false →
      cannotRun s f y = some .notMember) := by
  unfold cannotRun
  cases sponsorSuspended s.path.shadow y.sponsor <;> cases f.member y.sponsor <;> simp

/-! ### Step 7 on one placement -/

section
variable {s : State} {p : Nat} (hp : p < s.rot.placements.length)
include hp

/-- A push leaves the fields and the lowest mark, and adds no spot (R49). -/
theorem pushOn_keeps : (placementAt (pushOn s p) p).fields = (placementAt s p).fields ∧
    (placementAt (pushOn s p) p).lowest = (placementAt s p).lowest ∧
    ∀ y ∈ (placementAt (pushOn s p) p).spots, y ∈ (placementAt s p).spots := by
  unfold pushOn
  split
  · obtain ⟨gone, -, hends⟩ := walkEnds_pushWalk (priorityOrder (placementAt s p).lowest) hp
    cases hends with
    | rest placement =>
      rw [placement]
      exact ⟨rfl, rfl, fun y hy => (mem_spotsBut.1 hy).1⟩
    | push _ _ _ _ _ _ _ _ _ placement =>
      rw [placement]
      exact ⟨rfl, rfl, fun y hy => (mem_spotsBut.1 hy).1⟩
  · exact ⟨rfl, rfl, fun _ h => h⟩

/-- A push leaves the records of the sponsors in service (R49). -/
theorem sponsorAt_pushOn {j : Nat} (hj : inStack (placementAt s p).stack j = true) :
    sponsorAt (pushOn s p) j = sponsorAt s j := by
  unfold pushOn
  split
  · obtain ⟨gone, -, hends⟩ := walkEnds_pushWalk (priorityOrder (placementAt s p).lowest) hp
    cases hends with
    | rest _ _ sponsors =>
      rw [sponsorAt, sponsors]
      rfl
    | push _ _ y _ _ _ _ out _ _ _ sponsors =>
      refine sponsors j fun he => ?_
      rw [← he, hj] at out
      cases out
  · rfl

/-- Without pending spots a push does nothing to its placement. -/
theorem placementAt_pushOn_of_nil (h : (placementAt s p).spots = []) :
    placementAt (pushOn s p) p = placementAt s p := by
  unfold pushOn
  split
  · obtain ⟨gone, -, hends⟩ := walkEnds_pushWalk (priorityOrder (placementAt s p).lowest) hp
    cases hends with
    | rest placement =>
      rw [placement, h, show spotsBut gone [] = [] from rfl, ← h]
    | push _ _ y _ _ _ waiting =>
      rw [h] at waiting
      cases waiting
  · rfl

/-- The refill of a placement leaves its fields and its lowest mark, and adds no spot. -/
theorem rotRefill_keeps : (placementAt (rotRefill s p) p).fields = (placementAt s p).fields ∧
    (placementAt (rotRefill s p) p).lowest = (placementAt s p).lowest ∧
    ∀ y ∈ (placementAt (rotRefill s p) p).spots, y ∈ (placementAt s p).spots := by
  obtain ⟨b, hselect, -⟩ := selectOn_bottom hp
  unfold rotRefill
  dsimp only
  split
  · split
    · rw [hselect]
      exact ⟨rfl, rfl, fun _ h => h⟩
    · exact ⟨rfl, rfl, fun _ h => h⟩
  · split
    · exact pushOn_keeps hp
    · have h := pushOn_keeps (s := selectOn s p) (by rw [(onlyPlacement_selectOn s p).1]; exact hp)
      rwa [hselect] at h

end

/-! ### The placement after the FRAME_START -/

section
variable {s z t : State} {returned : Bool} {q : Nat} (hf : FrameOf s z t returned) (hq : q < 4)
include hf

theorem FrameOf.emptied_iff : emptied z q = true ↔ ¬layerEnable s.path.shadow q = true ∨
    (readPlacement s.path.shadow q).bound ≠ (placementAt s q).fields.bound := by
  simp [emptied, bindingChanged, hf.path, hf.places]

theorem FrameOf.not_emptied (henabled : layerEnable s.path.shadow q = true)
    (hbinding : ¬(readPlacement s.path.shadow q).bound ≠ (placementAt s q).fields.bound) :
    emptied z q = false :=
  Bool.eq_false_iff.2 fun h => (hf.emptied_iff.1 h).elim (fun h => h henabled) hbinding

theorem FrameOf.endedAt_of_emptied (h : emptied z q = true) : endedAt z q returned =
    { placementAt s q with fields := readPlacement s.path.shadow q, stack := [], spots := [] } := by
  rw [SponsorProofs.endedAt_of_emptied z q h, foundAt_of_emptied z q h, hf.path, hf.places]

/-- Step 7 leaves the fields and the lowest mark, and adds no spot. -/
theorem FrameOf.keeps (hq : q < 4) : (placementAt t q).fields = readPlacement s.path.shadow q ∧
    (placementAt t q).lowest = (endedAt z q returned).lowest ∧
    ∀ y ∈ (placementAt t q).spots, y ∈ (endedAt z q returned).spots := by
  rw [hf.placementAt_eq]
  by_cases hact : q ∈ activeList z
  · obtain ⟨u, hu⟩ := exists_refillTurn hf.four hact returned
    have h := rotRefill_keeps (s := u) (p := q) (by rw [hu.length]; exact hq)
    rwa [← hu.left, hu.fields_eq hf, hu.found] at h
  · rw [rotRefilled, placementAt_foldl_other onlyPlacement_rotRefill hact,
      placementAt_rotEnded hq hf.four, fields_endedAt, hf.path]
    exact ⟨rfl, rfl, fun _ h => h⟩

/-! ### The ends (R40, R45, R56) -/

section
variable (hem : emptied z q = false)
include hem

theorem FrameOf.runnable : runnableAt z q =
    { placementAt s q with
      fields := readPlacement s.path.shadow q
      stack := keptEntries s q
      spots := (placementAt s q).spots.filter fun y =>
        (cannotRun z (readPlacement s.path.shadow q) y).isNone } := by
  rw [runnableAt_of_not_emptied z q hem, hf.path, hf.places, keptEntries]
  simp only [entrySuspended_eq, hf.path]

theorem FrameOf.mem_spots (y : Spot) : y ∈ (endedAt z q returned).spots ↔ Waiting s q y := by
  rw [endedAt, spots_endStep, hf.runnable hem, List.mem_filter, Waiting, Option.isNone_iff_eq_none,
    (cannotRun_iff z _ y).1, hf.path]

theorem FrameOf.stays_iff : staysAt z q = true ↔ Stays s q := by
  rw [staysAt_of_not_emptied z q hem, hf.places, Stays]
  simp only [entrySuspended_eq, hf.path, Option.any_eq_true, Bool.not_eq_true']

theorem FrameOf.topEnds_iff (e : StackEntry) : topEnds (staysAt z q) e = true ↔ Ends s q e := by
  rw [SponsorProofs.topEnds_iff, hf.stays_iff hem, Ends]

/-- What steps 4 to 6 leave of a placement whose stack does not end at a return (R45). -/
theorem FrameOf.ended_of_goes (hgoes : ¬(returned = true ∧ (readPlacement s.path.shadow q).bound = true)) :
    (keptEntries s q = [] → (endedAt z q returned).stack = [] ∧
      (endedAt z q returned).lowest = (placementAt s q).lowest) ∧
    ∀ below e, keptEntries s q = below ++ [e] →
      (Ends s q e → (endedAt z q returned).stack = below ∧
        (endedAt z q returned).lowest = rotatedLowest e (placementAt s q).lowest) ∧
      (¬Ends s q e → (endedAt z q returned).lowest = (placementAt s q).lowest ∧
        (Stays s q → (endedAt z q returned).stack =
          below ++ [{ e with dwell := e.dwell.map fun d => d - 1 }]) ∧
        (¬Stays s q → (endedAt z q returned).stack = keptEntries s q)) := by
  have hend : endedAt z q returned = endTop (staysAt z q) (runnableAt z q) := by
    rw [endedAt, endStep, hf.runnable hem]
    exact if_neg (by simpa using hgoes)
  rw [hend, hf.runnable hem]
  refine ⟨fun hkept => ?_, fun below e hkept => ?_⟩
  · rw [endTop_of_nil _ hkept]
    exact ⟨hkept, rfl⟩
  · rw [endTop_of_append _ hkept, ← hf.topEnds_iff hem, ← hf.stays_iff hem]
    refine ⟨fun hends => ?_, fun hends => ?_⟩
    · rw [if_pos hends]
      exact ⟨rfl, rfl⟩
    · rw [if_neg hends]
      refine ⟨by split <;> rfl, fun hstays => ?_, fun hstays => ?_⟩
      · rw [if_pos hstays]
      · rw [if_neg hstays]

/-- At the return of the program to the live canvas a bound placement's entry ends (R56). -/
theorem FrameOf.ended_of_returned (hreturned : returned = true)
    (hbound : (readPlacement s.path.shadow q).bound = true) :
    (endedAt z q returned).stack = [] ∧
    (keptEntries s q = [] → (endedAt z q returned).lowest = (placementAt s q).lowest) ∧
    ∀ below e, keptEntries s q = below ++ [e] →
      (endedAt z q returned).lowest = rotatedLowest e (placementAt s q).lowest := by
  have hend : endedAt z q returned = endBound (runnableAt z q) := by
    rw [endedAt, endStep, hf.runnable hem]
    exact if_pos (by simp [hreturned, hbound])
  rw [hend, hf.runnable hem]
  rcases List.eq_nil_or_concat' (keptEntries s q) with hkept | ⟨below, e, hkept⟩
  · rw [endBound_of_nil hkept]
    exact ⟨hkept, fun _ => rfl, fun below e h => by simp [hkept] at h⟩
  · rw [endBound_of_append hkept]
    refine ⟨rfl, fun h => by simp [hkept] at h, fun below' e' h => ?_⟩
    obtain ⟨-, rfl⟩ := List.append_singleton_inj.1 (hkept.symm.trans h)
    rfl

end

/-! ### The refill (R46, R47, R55) -/

section
variable {u : State} (hu : RefillTurn z returned q u)
include hu

theorem RefillTurn.lowest_eq (hq : q < 4) : (placementAt t q).lowest = (placementAt u q).lowest := by
  rw [(hf.keeps hq).2.1, hu.found]

/-- A bound placement is refilled over a slot when it stands empty (R55). -/
theorem RefillTurn.refill_of_bound (hq : q < 4) (hbound : (readPlacement s.path.shadow q).bound = true) :
    ((¬(∃ k, programSource t = .slot k) ∨ (endedAt z q returned).stack ≠ []) →
      placementAt t q = endedAt z q returned) ∧
    ((∃ k, programSource t = .slot k) → (endedAt z q returned).stack = [] →
      ∃ b, placementAt t q = { endedAt z q returned with stack := [b] } ∧ Selected s t q [] b) := by
  have hsource : (programSource u).isSlot = true ↔ ∃ k, programSource t = .slot k := by
    have hsame : programSource u = programSource t :=
      (programSource_congr (congrArg State.replay hu.kept :)).trans hf.source.symm
    rw [hsame]
    cases programSource t <;> simp [Source.isSlot]
  have hrefill : rotRefill u q =
      if (programSource u).isSlot && (endedAt z q returned).stack.isEmpty then selectOn u q else u := by
    unfold rotRefill
    dsimp only
    rw [hu.fields_eq hf, if_pos hbound, hu.found]
  have hleft := (hf.placementAt_eq q).trans hu.left
  refine ⟨fun h => ?_, fun hslot hnil => ?_⟩
  · rw [hleft, hrefill, if_neg, hu.found]
    rw [Bool.and_eq_true, hsource, List.isEmpty_iff]
    exact fun hcond => h.elim (· hcond.1) (· hcond.2)
  · have hselect : rotRefill u q = selectOn u q := by
      rw [hrefill, if_pos (by simp [hsource.2 hslot, hnil])]
    obtain ⟨b, hb, hselected⟩ := hu.selected hf hq (hu.lowest_eq hf hq)
      (fun h3 j _ => by rw [hf.sponsorAt_eq, hu.last h3, hselect]) (hselect ▸ hu.appends)
    rw [hu.found, hnil] at hb hselected
    exact ⟨b, by rw [hleft, hselect, hb], hselected⟩

/-- What step 7 puts below an unbound placement's entries before the push (R46). -/
theorem RefillTurn.refill_of_unbound (hq : q < 4)
    (hfree : (readPlacement s.path.shadow q).bound = false) :
    ∃ v bottom, placementAt t q = placementAt (pushOn v q) q ∧ v.path = s.path ∧
      q < v.rot.placements.length ∧ Appends (pushOn v q) (rotRefilled returned z) ∧
      placementAt v q =
        { endedAt z q returned with stack := bottom ++ (endedAt z q returned).stack } ∧
      ((∃ e, (endedAt z q returned).stack.head? = some e ∧ e.kind ≠ .spot) → bottom = []) ∧
      ((∀ e, (endedAt z q returned).stack.head? = some e → e.kind = .spot) →
        ∃ b, bottom = [b] ∧ Selected s t q (endedAt z q returned).stack b) := by
  have hlen : q < u.rot.placements.length := by rw [hu.length]; exact hq
  have hleft := (hf.placementAt_eq q).trans hu.left
  have hrefill : rotRefill u q = pushOn
      (if hasBottom (endedAt z q returned).stack then u else selectOn u q) q := by
    unfold rotRefill
    dsimp only
    rw [hu.fields_eq hf, hfree, hu.found]
    rfl
  have hbottom : hasBottom (endedAt z q returned).stack = true ↔
      ∃ e, (endedAt z q returned).stack.head? = some e ∧ e.kind ≠ .spot := by
    cases (endedAt z q returned).stack <;> simp [hasBottom]
  cases hb : hasBottom (endedAt z q returned).stack with
  | true =>
    rw [hb, if_pos rfl] at hrefill
    obtain ⟨e, he, hkind⟩ := hbottom.1 hb
    exact ⟨u, [], by rw [hleft, hrefill], hu.path_eq hf, hlen, hrefill ▸ hu.appends, hu.found,
      fun _ => rfl, fun h => absurd (h e he) hkind⟩
  | false =>
    rw [hb, if_neg Bool.false_ne_true] at hrefill
    have hlen' : q < (selectOn u q).rot.placements.length := by
      rw [(onlyPlacement_selectOn u q).1]
      exact hlen
    have happ : Appends (pushOn (selectOn u q) q) (rotRefilled returned z) := hrefill ▸ hu.appends
    obtain ⟨b, hplace, hselected⟩ := hu.selected hf hq (hu.lowest_eq hf hq)
      (fun h3 j hj => by rw [hf.sponsorAt_eq, hu.last h3, hrefill, sponsorAt_pushOn hlen' hj])
      ((appends_pushOn _ q).trans happ)
    rw [hu.found] at hplace hselected
    refine ⟨selectOn u q, [b], by rw [hleft, hrefill], ?_, hlen', happ, hplace, fun h => ?_,
      fun _ => ⟨b, rfl, hselected⟩⟩
    · have hpath : (selectOn u q).path = u.path := (congrArg State.path (sansRot_selectOn u q) :)
      exact hpath.trans (hu.path_eq hf)
    · rw [hbottom.2 h] at hb
      cases hb

end
end
end Sys2Proof.SponsorProofs
end

section
/-! The push, the dropped spots, and what a FRAME_START makes of a placement as the statement says it (O31). -/

namespace Sys2Proof.SponsorProofs
open Sys2Proof.Machine Sys2Proof.FrameProofs

/-! ### The push (R49) -/

/-- The SPOT entry pushed over `base`, that of the first spot that resolves (R49). -/
def PushedOne (s t : State) (q : Nat) (base pushed : List StackEntry) : Prop :=
  ∃ e y k c, pushed = [e] ∧ base.length < 3 ∧ k < 32 ∧ Waiting s q y ∧ y.sponsor = placeOf t q k ∧
    ¬InBase base y.sponsor ∧
    usableOn s.path.shadow q (sponsorCreative s.path.shadow y.sponsor c) = true ∧
    (y.creative = 15 → c < 8) ∧ (y.creative ≠ 15 → c = y.creative) ∧ e = spotEntry s.path.shadow y c ∧
    (∀ z ∈ (placementAt t q).spots, ∀ n, n < k → z.sponsor = placeOf t q n → InBase base z.sponsor) ∧
    ∀ z n, Waiting s q z → k < n → n < 32 → z.sponsor = placeOf t q n → z ∈ (placementAt t q).spots

/-- The push over `base` as the statement says it (R49). -/
structure PushSpec (s t : State) (q : Nat) (base pushed : List StackEntry) : Prop where
  spots : ∀ y ∈ (placementAt t q).spots, Waiting s q y ∧ ∀ e ∈ pushed, e.sponsor ≠ some y.sponsor
  stay : ∀ y, Waiting s q y → (3 ≤ base.length ∨ InBase base y.sponsor) → y ∈ (placementAt t q).spots
  none : pushed = [] → base.length < 3 → ∀ y ∈ (placementAt t q).spots, y.sponsor < 32 →
    InBase base y.sponsor
  one : pushed ≠ [] → PushedOne s t q base pushed

/-- A waiting spot that is neither pending nor in service after the FRAME_START. -/
def Lost (s t : State) (q : Nat) (pushed : List StackEntry) (y : Spot) : Prop :=
  Waiting s q y ∧ y ∉ (placementAt t q).spots ∧ ∀ e ∈ pushed, e.sponsor ≠ some y.sponsor

theorem getElem?_priorityOrder {l n : Nat} (h : n < 32) :
    (priorityOrder l)[n]? = some ((l + 1 + n) % 32) := by
  rw [priorityOrder, List.getElem?_map, List.getElem?_range h, Option.map_some]

/-- The creative of a spot that runs: by the pointer rule for index 15, else the one it names (R49). -/
theorem spotCreative_spec {s : State} {p : Nat} {y : Spot} {c : Nat} (h : spotCreative s p y = some c) :
    usableOn s.path.shadow p (sponsorCreative s.path.shadow y.sponsor c) = true ∧
      (y.creative = 15 → c < 8) ∧ (y.creative ≠ 15 → c = y.creative) := by
  unfold spotCreative at h
  split at h
  · next h15 =>
    obtain ⟨⟨hc, husable⟩, -⟩ := usable_of_nextCreative h
    exact ⟨husable, fun _ => hc, fun hne => absurd h15 hne⟩
  · next hne =>
    split at h
    · next husable =>
      obtain rfl := Option.some.inj h
      exact ⟨husable, fun h15 => absurd h15 hne, fun _ => rfl⟩
    · cases h

section
variable {s z t : State} {returned : Bool} {q : Nat} (hf : FrameOf s z t returned)
include hf

/-- What the push makes of an unbound placement that stands with `base` (R49). -/
theorem FrameOf.pushSpec (hq : q < 4) (hem : emptied z q = false) {v : State} {base : List StackEntry}
    (ht : placementAt t q = placementAt (pushOn v q) q) (hpath : v.path = s.path)
    (hlen : q < v.rot.placements.length)
    (hv : placementAt v q = { endedAt z q returned with stack := base }) :
    ∃ pushed, (placementAt t q).stack = base ++ pushed ∧ PushSpec s t q base pushed ∧
      ∀ y, Lost s t q pushed y →
        ∃ y', Waiting s q y' ∧ dropDetail q y' .noCreative ∈ details .spotDropped (pushOn v q) := by
  have hwaiting := hf.mem_spots (returned := returned) hem
  have hstack : (placementAt v q).stack = base := by rw [hv]
  have hspots : (placementAt v q).spots = (endedAt z q returned).spots := by rw [hv]
  have hplace : ∀ n, n < 32 →
      (priorityOrder (placementAt v q).lowest)[n]? = some (placeOf t q n) := fun n hn => by
    rw [getElem?_priorityOrder hn, placeOf, (hf.keeps hq).2.1, hv]
  have hin : ∀ i, inStack (placementAt v q).stack i = true ↔ InBase base i := fun i => by
    rw [hstack, inStack_iff]
    exact Iff.rfl
  by_cases hroom : base.length < 3
  · have hpush : pushOn v q = pushWalk q (priorityOrder (placementAt v q).lowest) v := by
      rw [pushOn, if_pos (by rwa [hstack])]
    obtain ⟨gone, hdrops, hends⟩ := walkEnds_pushWalk (priorityOrder (placementAt v q).lowest) hlen
    rw [← hpush] at hdrops hends
    have hout : ∀ i, InBase base i → i ∉ gone := fun i hi hgone => by
      rw [← hin, (hdrops i hgone).2.1] at hi
      cases hi
    have hdropped : ∀ i ∈ gone, ∃ y', Waiting s q y' ∧
        dropDetail q y' .noCreative ∈ details .spotDropped (pushOn v q) := fun i hi => by
      obtain ⟨-, -, y', hy', -, hd⟩ := hdrops i hi
      exact ⟨y', (hwaiting y').1 (hspots ▸ hy'), hd⟩
    cases hends with
    | rest placement left _ =>
      have hx : (placementAt t q).spots = spotsBut gone (endedAt z q returned).spots := by
        rw [ht, placement, hspots]
      refine ⟨[], by rw [ht, placement, hstack, List.append_nil], ⟨fun y hy => ?_, fun y hy hor => ?_,
        fun _ _ y hy h32 => ?_, fun h => absurd rfl h⟩, fun y ⟨hy, hgone, _⟩ => ?_⟩
      · rw [hx, mem_spotsBut, hwaiting] at hy
        exact ⟨hy.1, nofun⟩
      · rw [hx, mem_spotsBut, hwaiting]
        exact ⟨hy, hout _ (hor.resolve_left (Nat.not_le.2 hroom))⟩
      · rw [hx, ← hspots] at hy
        exact (hin _).1 (left y hy (mem_priorityOrder.2 h32))
      · rw [hx, mem_spotsBut, hwaiting] at hgone
        exact hdropped _ (not_not.1 fun h => hgone ⟨hy, h⟩)
    | push before after y c order subset waiting out creative placement left _ =>
      have hx : (placementAt t q).spots =
          spotsBut (gone ++ [y.sponsor]) (endedAt z q returned).spots := by
        rw [ht, placement, hspots]
      have hmem : ∀ w, w ∈ (placementAt t q).spots ↔
          Waiting s q w ∧ w.sponsor ∉ gone ∧ w.sponsor ≠ y.sponsor := fun w => by
        rw [hx, mem_spotsBut, hwaiting]
        simp
      have hy : Waiting s q y := (hwaiting y).1 (hspots ▸ waiting)
      have hyout : ¬InBase base y.sponsor := by rw [← hin, out]; simp
      obtain ⟨husable, h15, hnamed⟩ := spotCreative_spec creative
      rw [hpath] at husable placement
      have hlength : before.length < 32 := by
        have := congrArg List.length order
        simp [priorityOrder] at this
        omega
      have hat : y.sponsor = placeOf t q before.length := by
        have := hplace before.length hlength
        rw [order, List.getElem?_append_right (Nat.le_refl _), Nat.sub_self] at this
        exact Option.some.inj this
      have hbefore : ∀ n, n < before.length → placeOf t q n ∈ before := fun n hn => by
        have := hplace n (hn.trans hlength)
        rw [order, List.getElem?_append_left hn] at this
        exact List.mem_of_getElem? this
      have hafter : ∀ n, before.length < n → n < 32 → placeOf t q n ∈ after := fun n hn hn32 => by
        have := hplace n hn32
        rw [order, List.getElem?_append_right hn.le, List.getElem?_cons, if_neg (by omega)] at this
        exact List.mem_of_getElem? this
      have hnodup := nodup_priorityOrder (placementAt v q).lowest
      rw [order] at hnodup
      obtain ⟨-, htail, hdisjoint⟩ := List.nodup_append.1 hnodup
      refine ⟨[spotEntry s.path.shadow y c], by rw [ht, placement, hstack], ⟨fun w hw => ?_,
        fun w hw hor => ?_, fun h => absurd h (List.cons_ne_nil _ _), fun _ => ⟨_, y, before.length, c,
          rfl, hroom, hlength, hy, hat, hyout, husable, h15, hnamed, rfl, fun w hw n hn he => ?_,
          fun w n hw hn hn32 he => ?_⟩⟩, fun w ⟨hw, hgone, hnot⟩ => ?_⟩
      · obtain ⟨hw, -, hne⟩ := (hmem w).1 hw
        refine ⟨hw, fun e he => ?_⟩
        rw [List.mem_singleton.1 he]
        exact fun h => hne (Option.some.inj h).symm
      · have hbase := hor.resolve_left (Nat.not_le.2 hroom)
        exact (hmem w).2 ⟨hw, hout _ hbase, fun he => hyout (he ▸ hbase)⟩
      · rw [hx, ← hspots] at hw
        exact (hin _).1 (left w hw (he ▸ hbefore n hn))
      · have hmemAfter := he ▸ hafter n hn hn32
        refine (hmem w).2 ⟨hw, fun hgone => ?_, fun hsame => ?_⟩
        · exact hdisjoint _ (subset hgone) _ (List.mem_cons_of_mem _ hmemAfter) rfl
        · exact (List.nodup_cons.1 htail).1 (hsame ▸ hmemAfter)
      · rw [hmem] at hgone
        by_cases hdrop : w.sponsor ∈ gone
        · exact hdropped _ hdrop
        · refine absurd (hnot _ (List.mem_singleton_self _)) (not_not.2 ?_)
          exact congrArg some (not_not.1 fun hne => hgone ⟨hw, hdrop, fun h => hne h.symm⟩)
  · have hsame : pushOn v q = v := by
      rw [pushOn, if_neg (by rwa [hstack])]
    have hx : (placementAt t q).spots = (endedAt z q returned).spots := by rw [ht, hsame, hspots]
    refine ⟨[], by rw [ht, hsame, hstack, List.append_nil], ⟨fun y hy => ?_, fun y hy _ => ?_,
      fun _ h => absurd h hroom, fun h => absurd rfl h⟩, fun y ⟨hy, hgone, _⟩ => absurd ?_ hgone⟩
    · exact ⟨(hwaiting y).1 (hx ▸ hy), nofun⟩
    · rw [hx, hwaiting]
      exact hy
    · rw [hx, hwaiting]
      exact hy

/-! ### The spots that are dropped (R48, R49, R58) -/

theorem FrameOf.dropNoticed {d : List Byte} (hd : d ∈ details .spotDropped (rotRefilled returned z)) :
    DropNoticed s t fun _ => True := fun h1 h2 h3 =>
  noticed_mono (hf.noticed h1 h2 h3 .spotDropped (by decide) (List.ne_nil_of_mem hd)) fun _ _ => trivial

/-- Where one spot alone pends, SPOT_DROPPED tells of it and of its cause. -/
theorem FrameOf.dropNoticed_alone (hq : q < 4) {y : Spot} (hy : (placementAt s q).spots = [y])
    (hothers : ∀ r, r < 4 → r ≠ q → (placementAt s r).spots = []) {c : DropCause}
    (hcause : ∀ c', MayDrop z q y c' → c' = c)
    {d : List Byte} (hd : d ∈ details .spotDropped (rotRefilled returned z)) :
    DropNoticed s t fun d => d = dropDetail q y c := fun h1 h2 h3 => by
  refine noticed_mono (hf.noticed h1 h2 h3 .spotDropped (by decide) (List.ne_nil_of_mem hd))
    fun d hd => ?_
  rcases mayDrop_of_details hf.four hd with hd | ⟨p, hp, y', hy', c', hmay, rfl⟩
  · rw [hf.quiet h1] at hd
    cases hd
  · rw [hf.places] at hy'
    obtain rfl : p = q := by
      by_contra hne
      rw [hothers p hp hne] at hy'
      cases hy'
    rw [hy, List.mem_singleton] at hy'
    subst hy'
    rw [hcause c' hmay]

end
end Sys2Proof.SponsorProofs
end

section
/-! The clauses of O31, one placement at a LIVE FRAME_START, and their assembly. -/

namespace Sys2Proof.SponsorProofs
open Sys2Proof.Machine Sys2Proof.FrameProofs

theorem rotatedLowest_of_sponsor {e : StackEntry} {i : Nat} (hkind : e.kind = .rotation ∨ e.kind = .replay)
    (hi : e.sponsor = some i) (l : Nat) : rotatedLowest e l = i := by
  rcases hkind with h | h <;> simp [rotatedLowest, h, hi]

theorem rotatedLowest_of_kind {e : StackEntry} (hkind : e.kind = .spot ∨ e.kind = .fallback) (l : Nat) :
    rotatedLowest e l = l := by
  rcases hkind with h | h <;> simp [rotatedLowest, h]

section
variable {s z t : State} {returned : Bool} {q : Nat} (hf : FrameOf s z t returned) (hq : q < 4)
include hf hq

/-! ### A placement that is emptied (R58) -/

theorem FrameOf.placement_of_not_active (hact : q ∉ activeList z) :
    placementAt t q = endedAt z q returned := by
  rw [hf.placementAt_eq, rotRefilled, placementAt_foldl_other onlyPlacement_rotRefill hact,
    placementAt_rotEnded hq hf.four]

theorem FrameOf.emptied_clause (h : ¬layerEnable s.path.shadow q = true ∨
      (readPlacement s.path.shadow q).bound ≠ (placementAt s q).fields.bound) :
    (placementAt t q).spots = [] ∧ (placementAt t q).lowest = (placementAt s q).lowest ∧
    ((placementAt s q).spots ≠ [] → DropNoticed s t fun _ => True) := by
  have hem := hf.emptied_iff.2 h
  obtain ⟨-, hlowest, hspots⟩ := hf.keeps hq
  rw [hf.endedAt_of_emptied hem] at hlowest hspots
  refine ⟨List.eq_nil_iff_forall_not_mem.2 fun y hy => List.not_mem_nil (hspots y hy), hlowest, fun hne => ?_⟩
  obtain ⟨y, hy⟩ := List.exists_mem_of_ne_nil _ hne
  exact hf.dropNoticed (details_of_emptied hq hem (hf.places ▸ hy) returned)

theorem FrameOf.disabled_clause (h : ¬layerEnable s.path.shadow q = true) : (placementAt t q).stack = [] := by
  have hact : q ∉ activeList z := fun hact => by
    have := (List.mem_filter.1 hact).2
    rw [rotActive, hf.path] at this
    simp [h] at this
  rw [hf.placement_of_not_active hq hact, hf.endedAt_of_emptied (hf.emptied_iff.2 (.inl h))]

theorem FrameOf.rebound_clause
    (h : (readPlacement s.path.shadow q).bound ≠ (placementAt s q).fields.bound) :
    (placementAt t q).stack = [] ∨ ∃ b, (placementAt t q).stack = [b] ∧ Selected s t q [] b ∧
      ((readPlacement s.path.shadow q).bound = true → ∃ k, programSource t = .slot k) := by
  have hended := hf.endedAt_of_emptied (hf.emptied_iff.2 (.inr h))
  by_cases hact : q ∈ activeList z
  · obtain ⟨u, hu⟩ := exists_refillTurn hf.four hact returned
    cases hbound : (readPlacement s.path.shadow q).bound with
    | true =>
      obtain ⟨hstands, hrefilled⟩ := hu.refill_of_bound hf hq hbound
      by_cases hslot : ∃ k, programSource t = .slot k
      · obtain ⟨b, hb, hselected⟩ := hrefilled hslot (by rw [hended])
        exact .inr ⟨b, by rw [hb], hselected, fun _ => hslot⟩
      · exact .inl (by rw [hstands (.inl hslot), hended])
    | false =>
      obtain ⟨v, bottom, ht, -, hlen, -, hv, -, hselect⟩ := hu.refill_of_unbound hf hq hbound
      rw [hended] at hv hselect
      obtain ⟨b, rfl, hselected⟩ := hselect nofun
      refine .inr ⟨b, ?_, hselected, nofun⟩
      rw [ht, placementAt_pushOn_of_nil hlen (by rw [hv]), hv]
      rfl
  · exact .inl (by rw [hf.placement_of_not_active hq hact, hended])

/-! ### An unbound placement (R45, R46, R49) -/

section
variable (hem : emptied z q = false)
include hem

/-- The refill and the push over what the ends leave. -/
theorem FrameOf.unbound_refill (hfree : (readPlacement s.path.shadow q).bound = false) :
    ∃ bottom pushed, (placementAt t q).stack = bottom ++ (endedAt z q returned).stack ++ pushed ∧
      ((∃ e, (endedAt z q returned).stack.head? = some e ∧ e.kind ≠ .spot) → bottom = []) ∧
      ((∀ e, (endedAt z q returned).stack.head? = some e → e.kind = .spot) →
        ∃ b, bottom = [b] ∧ Selected s t q (endedAt z q returned).stack b) ∧
      PushSpec s t q (bottom ++ (endedAt z q returned).stack) pushed ∧
      ∀ y, Lost s t q pushed y → ∃ y', Waiting s q y' ∧
        dropDetail q y' .noCreative ∈ details .spotDropped (rotRefilled returned z) := by
  obtain ⟨u, hu⟩ := exists_refillTurn hf.four (mem_activeList z hq hem) returned
  obtain ⟨v, bottom, ht, hpath, hlen, happ, hv, hnone, hselect⟩ := hu.refill_of_unbound hf hq hfree
  obtain ⟨pushed, hstack, hpush, hlost⟩ := hf.pushSpec hq hem ht hpath hlen hv
  refine ⟨bottom, pushed, hstack, hnone, hselect, hpush, fun y hy => ?_⟩
  obtain ⟨y', hy', hd⟩ := hlost y hy
  exact ⟨y', hy', happ.details_subset _ hd⟩

/-- The end of the top entry, as the statement says it (R40, R45). -/
theorem FrameOf.unbound_ends (hfree : (readPlacement s.path.shadow q).bound = false) :
    (keptEntries s q = [] → (endedAt z q returned).stack = [] ∧
      (placementAt t q).lowest = (placementAt s q).lowest) ∧
    ∀ below e, keptEntries s q = below ++ [e] →
      (Ends s q e → (endedAt z q returned).stack = below ∧
        (∀ i, e.kind = .rotation → e.sponsor = some i → (placementAt t q).lowest = i) ∧
        (e.kind ≠ .rotation → (placementAt t q).lowest = (placementAt s q).lowest)) ∧
      (¬Ends s q e → (placementAt t q).lowest = (placementAt s q).lowest ∧
        (Stays s q → (endedAt z q returned).stack =
          below ++ [{ e with dwell := e.dwell.map fun d => d - 1 }]) ∧
        (¬Stays s q → (endedAt z q returned).stack = keptEntries s q)) := by
  obtain ⟨hnil, hcons⟩ := hf.ended_of_goes hem (by simp [hfree])
  rw [(hf.keeps hq).2.1]
  refine ⟨hnil, fun below e hkept => ⟨fun hends => ?_, (hcons below e hkept).2⟩⟩
  obtain ⟨hstack, hlowest⟩ := (hcons below e hkept).1 hends
  rw [hlowest]
  refine ⟨hstack, fun i hkind hi => rotatedLowest_of_sponsor (.inl hkind) hi _, fun hkind => ?_⟩
  refine rotatedLowest_of_kind ?_ _
  have hreplay := hends.1
  cases hk : e.kind <;> simp_all

/-! ### A bound placement (R55, R56) -/

theorem FrameOf.bound_clause (hbound : (readPlacement s.path.shadow q).bound = true) :
    let onSlot := ∃ k, programSource t = .slot k
    (∀ y, y ∈ (placementAt t q).spots ↔ Waiting s q y) ∧
    (Returns s t → (placementAt t q).stack = [] ∧
      (keptEntries s q = [] → (placementAt t q).lowest = (placementAt s q).lowest) ∧
      ∀ below e, keptEntries s q = below ++ [e] →
        (∀ i, e.kind = .replay → e.sponsor = some i → (placementAt t q).lowest = i) ∧
        (e.kind = .fallback → (placementAt t q).lowest = (placementAt s q).lowest)) ∧
    (keptEntries s q = [] → (placementAt t q).lowest = (placementAt s q).lowest ∧
      (¬onSlot → (placementAt t q).stack = []) ∧
      (onSlot → ∃ b, (placementAt t q).stack = [b] ∧ Selected s t q [] b)) ∧
    ∀ e, keptEntries s q = [e] → e.dwell = none → ¬Returns s t →
      ((e.kind = .replay ∨ e.endMark = false) →
        (placementAt t q).stack = [e] ∧ (placementAt t q).lowest = (placementAt s q).lowest) ∧
      (e.kind = .fallback → e.endMark = true → (placementAt t q).lowest = (placementAt s q).lowest ∧
        (¬onSlot → (placementAt t q).stack = []) ∧
        (onSlot → ∃ b, (placementAt t q).stack = [b] ∧ Selected s t q [] b)) := by
  intro onSlot
  obtain ⟨u, hu⟩ := exists_refillTurn hf.four (mem_activeList z hq hem) returned
  obtain ⟨hstands, hrefilled⟩ := hu.refill_of_bound hf hq hbound
  have hempty : (endedAt z q returned).stack = [] → (¬onSlot → (placementAt t q).stack = []) ∧
      (onSlot → ∃ b, (placementAt t q).stack = [b] ∧ Selected s t q [] b) := fun hnil => by
    refine ⟨fun hslot => by rw [hstands (.inl hslot), hnil], fun hslot => ?_⟩
    obtain ⟨b, hb, hselected⟩ := hrefilled hslot hnil
    exact ⟨b, by rw [hb], hselected⟩
  have hgoes : ¬Returns s t →
      ¬(returned = true ∧ (readPlacement s.path.shadow q).bound = true) := fun h hr =>
    h (hf.returns.1 hr.1)
  rw [(hf.keeps hq).2.1]
  refine ⟨fun y => ?_, fun hreturns => ?_, fun hkept => ?_, fun e hkept hdwell hreturns =>
    ⟨fun hstay => ?_, fun hkind hmark => ?_⟩⟩
  · rw [← hf.mem_spots (returned := returned) hem]
    by_cases h : onSlot ∧ (endedAt z q returned).stack = []
    · obtain ⟨b, hb, -⟩ := hrefilled h.1 h.2
      rw [hb]
    · rw [hstands (not_and_or.1 h)]
  · obtain ⟨hstack, hnil, hcons⟩ := hf.ended_of_returned hem (hf.returns.2 hreturns) hbound
    have hslot : ¬onSlot := by
      rintro ⟨k, hk⟩
      rw [hreturns.2] at hk
      cases hk
    refine ⟨(hempty hstack).1 hslot, hnil, fun below e hkept => ?_⟩
    rw [hcons below e hkept]
    exact ⟨fun i hkind hi => rotatedLowest_of_sponsor (.inr hkind) hi _,
      fun hkind => rotatedLowest_of_kind (.inr hkind) _⟩
  · by_cases hreturns : Returns s t
    · obtain ⟨hstack, hnil, -⟩ := hf.ended_of_returned hem (hf.returns.2 hreturns) hbound
      exact ⟨hnil hkept, hempty hstack⟩
    · obtain ⟨hstack, hlowest⟩ := (hf.ended_of_goes hem (hgoes hreturns)).1 hkept
      exact ⟨hlowest, hempty hstack⟩
  · have hends : ¬Ends s q e := fun ⟨hkind, hor⟩ => by
      rcases hor with hmark | ⟨-, d, hd, -⟩
      · rcases hstay with h | h
        · exact hkind h
        · rw [h] at hmark
          cases hmark
      · rw [hdwell] at hd
        cases hd
    obtain ⟨hlowest, hsame, hleft⟩ := ((hf.ended_of_goes hem (hgoes hreturns)).2 [] e hkept).2 hends
    have hstack : (endedAt z q returned).stack = [e] := by
      by_cases h : Stays s q
      · rw [hsame h, hdwell, Option.map_none, ← hdwell]
        rfl
      · rw [hleft h, hkept]
    exact ⟨by rw [hstands (.inr (by simp [hstack])), hstack], hlowest⟩
  · have hends : Ends s q e := ⟨by simp [hkind], .inl hmark⟩
    obtain ⟨hstack, hlowest⟩ := ((hf.ended_of_goes hem (hgoes hreturns)).2 [] e hkept).1 hends
    exact ⟨hlowest.trans (rotatedLowest_of_kind (.inr hkind) _), hempty hstack⟩

end

/-! ### SPOT_DROPPED where one spot alone pends (R48, R49, R58) -/

theorem FrameOf.alone_clause {y : Spot} (hy : (placementAt s q).spots = [y])
    (hothers : ∀ r, r < 4 → r ≠ q → (placementAt s r).spots = []) :
    (¬layerEnable s.path.shadow q = true → DropNoticed s t fun d => d = dropDetail q y .placementOff) ∧
    (layerEnable s.path.shadow q = true →
      (readPlacement s.path.shadow q).bound ≠ (placementAt s q).fields.bound →
      DropNoticed s t fun d => d = dropDetail q y .replayBound) ∧
    (emptied z q = false →
      (sponsorSuspended s.path.shadow y.sponsor = true →
        DropNoticed s t fun d => d = dropDetail q y .suspended) ∧
      (sponsorSuspended s.path.shadow y.sponsor = false →
        (readPlacement s.path.shadow q).member y.sponsor = false →
        DropNoticed s t fun d => d = dropDetail q y .notMember) ∧
      (Waiting s q y → y ∉ (placementAt t q).spots →
        (∀ e ∈ (placementAt t q).stack, e.sponsor ≠ some y.sponsor) →
        DropNoticed s t fun d => d = dropDetail q y .noCreative)) := by
  have hmem : y ∈ (placementAt z q).spots := by rw [hf.places, hy]; exact List.mem_singleton_self y
  have hemptied : ∀ c, emptied z q = true → emptyCause z q = c →
      DropNoticed s t fun d => d = dropDetail q y c := fun c hem hc =>
    hf.dropNoticed_alone hq hy hothers (fun c' hmay => by
      rw [MayDrop, if_pos hem] at hmay
      rw [hmay, hc]) (details_of_emptied hq hem hmem returned)
  have hcannot : ∀ c, emptied z q = false →
      cannotRun z (readPlacement z.path.shadow q) y = some c →
      DropNoticed s t fun d => d = dropDetail q y c := fun c hem hc =>
    hf.dropNoticed_alone hq hy hothers (fun c' hmay => by simpa [MayDrop, hem, hc] using hmay)
      (details_of_cannotRun hq hf.four hem hmem hc returned)
  refine ⟨fun hoff => hemptied _ (hf.emptied_iff.2 (.inl hoff)) ?_,
    fun hon hrebound => hemptied _ (hf.emptied_iff.2 (.inr hrebound)) ?_, fun hem =>
    ⟨fun hsusp => hcannot _ hem ?_, fun hsusp hmember => hcannot _ hem ?_, fun hwait hgone hout => ?_⟩⟩
  · rw [emptyCause, hf.path, if_neg hoff]
  · rw [emptyCause, hf.path, if_pos hon]
  · exact (cannotRun_iff z _ y).2.1 (hf.path ▸ hsusp)
  · exact (cannotRun_iff z _ y).2.2 (hf.path ▸ hsusp) (hf.path ▸ hmember)
  · cases hbound : (readPlacement s.path.shadow q).bound with
    | true => exact absurd (((hf.bound_clause hq hem hbound).1 y).2 hwait) hgone
    | false =>
      obtain ⟨bottom, pushed, hstack, -, -, -, hlost⟩ := hf.unbound_refill hq hem hbound
      obtain ⟨y', hy', hd⟩ := hlost y ⟨hwait, hgone, fun e he => hout e (by simp [hstack, he])⟩
      have hnone : cannotRun z (readPlacement z.path.shadow q) y = none := by
        rw [(cannotRun_iff z _ y).1, hf.path]
        exact hwait.2
      exact hf.dropNoticed_alone hq hy hothers
        (fun c' hmay => by
          rw [MayDrop, hem, if_neg Bool.false_ne_true, hnone] at hmay
          exact hmay.1) hd

end

/-! ### The statement -/

/-- An entry that has its time over on a LIVE placement is due at STACK_ENTRY_DWELL_END (R45; log 5). -/
theorem dwellEnds_of_ends {s : State} (hlive : modeAhead s = .live) {q : Nat}
    (hq : q < 4) {t : State} {returned : Bool}
    (hf : FrameOf s (rotOpen (frameSourced s) (handover s)) t returned)
    (hem : emptied (rotOpen (frameSourced s) (handover s)) q = false) {below : List StackEntry}
    {e : StackEntry} (hkept : keptEntries s q = below ++ [e]) (hends : Ends s q e) :
    dwellEnds s = true := by
  have hmode : (rotOpen (frameSourced s) (handover s)).report.mode = .live :=
    (congrArg (fun t => t.report.mode) (sansAccrual_rotOpen (frameSourced s) (handover s)) :).trans
      ((mode_frameSourced s).trans hlive)
  unfold dwellEnds rotSomeEnd
  dsimp only
  rw [hmode]
  refine List.any_eq_true.2 ⟨q, mem_activeList _ hq hem, ?_⟩
  change (topEntry (placementAt (rotDropped (rotOpen (frameSourced s) (handover s))) q).stack).any
    (topEnds (topStayed (rotEmpty (rotOpen (frameSourced s) (handover s))) q)) = true
  rw [placementAt_rotDropped hq hf.four, topStayed_rotEmpty hq hf.four, hf.runnable hem, hkept,
    topEntry_append]
  exact (hf.topEnds_iff hem e).2 hends

/-- A ROTATION entry alone on its placement whose time is over (R40, R45). -/
theorem rotation_ends {s : State} {q i : Nat} {e : StackEntry} (hlive : modeAhead s = .live) (hq : q < 4)
    (h4 : s.rot.placements.length = 4) (hstack : (placementAt s q).stack = [e]) (hkind : e.kind = .rotation)
    (hi : e.sponsor = some i) (hover : e.endMark = true ∨ e.dwell = some 1)
    (henabled : layerEnable s.path.shadow q = true)
    (hfree : (readPlacement s.path.shadow q).bound = false)
    (hbound : (placementAt s q).fields.bound = false)
    (hready : sponsorSuspended s.path.shadow i = false) :
    exec .stackEntryDwellEnd s = exec .frameStart s ∧
    ∃ t, exec .stackEntryDwellEnd s = .next t ∧ (placementAt t q).lowest = i ∧
      (placementAt t q).fields = readPlacement s.path.shadow q ∧
      (∃ b rest, (placementAt t q).stack = b :: rest ∧ b.endMark = false ∧
        (b.kind = .rotation ∨ b.kind = .fallback)) := by
  have hf := frameOf_frameStart hlive h4
  have hem := hf.not_emptied henabled (by simp [hfree, hbound])
  have hrun : e.sponsor.any (sponsorSuspended s.path.shadow) = false := by simp [hi, hready]
  have hkept : keptEntries s q = [] ++ [e] := by simp [keptEntries, hstack, hrun]
  have hends : Ends s q e := by
    refine ⟨by simp [hkind], hover.imp_right fun hd => ⟨⟨e, by simp [hstack], hrun⟩, 1, hd, Nat.le_refl 1⟩⟩
  have hdue : exec .stackEntryDwellEnd s = exec .frameStart s := by
    change whenDue (dwellEnds s) (frameStart s) s = done (frameStart s)
    rw [whenDue, if_pos (dwellEnds_of_ends hlive hq hf hem hkept hends)]
  obtain ⟨hafter, hlowest, -⟩ := ((hf.unbound_ends hq hem hfree).2 [] e hkept).1 hends
  obtain ⟨bottom, pushed, hstack', -, hselect, -, -⟩ := hf.unbound_refill hq hem hfree
  rw [hafter] at hstack' hselect
  obtain ⟨b, rfl, hselected⟩ := hselect nofun
  refine ⟨hdue, _, hdue, hlowest i hkind hi, (hf.keeps hq).1, b, pushed, hstack', ?_⟩
  rcases hselected with ⟨k, j, c, -, -, -, -, -, -, hmark, hb, -⟩ | ⟨hb, -⟩
  · exact ⟨hmark, .inl (by rw [hb, hfree]; rfl)⟩
  · rw [hb]
    exact ⟨rfl, .inr rfl⟩

/-- Settles O31: the clauses above for each placement, from the state the FRAME_START found to the one it
left. -/
theorem endedRotationEntryRotates : Obligations.EndedRotationEntryRotates := by
  refine ⟨fun s q i e hlive hq h4 hstack hkind hi hover henabled hfree hbound hready =>
    rotation_ends hlive hq h4 hstack hkind hi hover henabled hfree hbound hready, ?_⟩
  intro s t q ht hlive hq h4 m old x f enabled rebound wasSlot returns suspended kept stays waiting
    dropNoticed usable eligible place topElsewhere selected
  obtain rfl : settle (frameStart s) = t := by cases ht; rfl
  have hf := frameOf_frameStart hlive h4
  refine ⟨(hf.keeps hq).1, hf.emptied_clause hq, hf.disabled_clause hq,
    fun _ => hf.rebound_clause hq, fun y hy hothers => ?_, fun hen hbind hfree => ?_,
    fun hen hbind => hf.bound_clause hq (hf.not_emptied hen hbind)⟩
  · obtain ⟨hoff, hrebound, hruns⟩ := hf.alone_clause hq hy hothers
    refine ⟨fun h _ => hoff h, hrebound, fun hen hbind => ?_⟩
    obtain ⟨hsuspended, hmember, hcreative⟩ := hruns (hf.not_emptied hen hbind)
    exact ⟨fun h _ => hsuspended h, hmember, hcreative⟩
  · have hem := hf.not_emptied hen hbind
    obtain ⟨bottom, pushed, hstack, hnone, hselect, hpush, hlost⟩ := hf.unbound_refill hq hem hfree
    obtain ⟨hnil, hcons⟩ := hf.unbound_ends hq hem hfree
    refine ⟨_, bottom, pushed, hnil, hcons, hstack, hnone, hselect, hpush.spots, hpush.stay, ?_, ?_,
      hpush.none, hpush.one⟩
    · rintro ⟨y, hy, hnot⟩
      obtain ⟨c, hc⟩ : ∃ c, cannotRun (rotOpen (frameSourced s) (handover s))
          (readPlacement (rotOpen (frameSourced s) (handover s)).path.shadow q) y = some c := by
        refine Option.ne_none_iff_exists'.1 fun hcan => hnot ⟨hy, ?_⟩
        rw [(cannotRun_iff _ _ y).1, hf.path] at hcan
        exact hcan
      exact hf.dropNoticed (details_of_cannotRun hq hf.four hem (by rw [hf.places]; exact hy) hc _)
    · rintro ⟨y, hy⟩
      obtain ⟨y', -, hd⟩ := hlost y hy
      exact hf.dropNoticed hd

end Sys2Proof.SponsorProofs
end

section
/-! What each operation of the clock unit makes of the run condition and of the ranges of the unit (R64, R66,
R67, R68, R70, R78). -/

namespace Sys2Proof.ClockProofs
open Sys2Proof.Machine Sys2Proof.FrameProofs Sys2Proof.SponsorProofs

/-! ### What the run condition and the ranges rest on -/

/-- What the run condition and the ranges rest on: the level of the gate and the clock unit. -/
def clockView (s : State) : Bool × ClockUnit := (s.gateRun, s.clock)

/-- R64, R78: the run condition and the ranges. -/
def ClockHolds (s : State) : Prop := RunOk s ∧ ClockOk s

theorem clockHolds_of_view {s t : State} (h : clockView t = clockView s) (hs : ClockHolds s) :
    ClockHolds t := by
  obtain ⟨hgate, hclock⟩ := Prod.ext_iff.1 h
  have hgate : t.gateRun = s.gateRun := hgate
  have hclock : t.clock = s.clock := hclock
  unfold ClockHolds RunOk ClockOk runWanted at hs ⊢
  rwa [hgate, hclock]

section
variable {s : State}

theorem runOk_iff : RunOk s ↔ (s.clock.state = .running → runWanted s = true) ∧
    (s.clock.state = .stopped → runWanted s = false) := by
  unfold RunOk
  cases s.clock.state <;> simp

/-! ### The run condition (R64) -/

theorem runOk_tryStart (cause : ClockCause) (h : s.clock.state = .running → runWanted s = true) :
    RunOk (tryStart s cause) := by
  unfold tryStart
  split
  · next hstarts =>
    split
    · exact runOk_iff.2 ⟨nofun, nofun⟩
    · exact runOk_iff.2 ⟨fun _ => hstarts.2, nofun⟩
  · next hstays =>
    exact runOk_iff.2 ⟨h, fun hs => Bool.eq_false_iff.2 fun hw => hstays ⟨hs, hw⟩⟩

/-- A configuration taken by a clock that does not run keeps the run condition (R78). -/
theorem runOk_takeConfig (h : RunOk s) (hs : s.clock.state ≠ .running) : RunOk (takeConfig s) := by
  have hidle : (adoptConfig (readClockConfig s.path.shadow) s.clock).state ≠ .running := by
    unfold adoptConfig
    dsimp only
    split
    · exact nofun
    · exact hs
  unfold takeConfig
  dsimp only
  split
  · exact runOk_tryStart _ fun hr => absurd hr hidle
  · next hsame =>
    obtain ⟨hgate, hleaves⟩ := not_or.1 hsame
    have hstate : (adoptConfig (readClockConfig s.path.shadow) s.clock).state = s.clock.state :=
      if_neg hleaves
    have hwanted : runWanted (setClock s (adoptConfig (readClockConfig s.path.shadow))) =
        runWanted s := by
      simp only [runWanted, setClock, adoptConfig, not_not.1 hgate]
    unfold RunOk at h ⊢
    rwa [hwanted, setClock_clock, hstate]

/-- A stop leaves the run condition: EXPIRED has none, and a clock is STOPPED when it no longer holds
(R66). -/
theorem runOk_stopClock {target : GameState} (cause : ClockCause) (ht : target ≠ .running)
    (h : target = .stopped → runWanted s = false) : RunOk (stopClock s target cause) := by
  have hstopped : RunOk (setClock s fun c =>
      { c with state := target, stopRec := clockRecord s cause }) :=
    runOk_iff.2 ⟨fun hr => absurd hr ht, h⟩
  unfold stopClock
  dsimp only
  split
  · exact runOk_takeConfig hstopped ht
  · exact hstopped

/-- Evaluating the run condition brings it about (R64). -/
theorem runOk_reevaluate (s : State) (cause : ClockCause) : RunOk (reevaluate s cause) := by
  unfold reevaluate
  split
  · next hr =>
    split
    · next hw => exact runOk_iff.2 ⟨fun _ => hw, fun hs => by rw [hr] at hs; cases hs⟩
    · next hw => exact runOk_stopClock cause nofun fun _ => Bool.eq_false_iff.2 hw
  · next hr => exact runOk_tryStart cause fun h => absurd h hr

/-! ### The ranges of the configuration and the values (R78) -/

theorem configOk_readClockConfig (m : Memory) : ConfigOk (readClockConfig m) := by
  unfold ConfigOk readClockConfig clampNat
  dsimp only
  omega

theorem clockOk_tryStart (h : ClockOk s) (cause : ClockCause) : ClockOk (tryStart s cause) := by
  unfold tryStart
  split
  · split <;> exact h
  · exact h

theorem clockOk_takeConfig (h : ClockOk s) : ClockOk (takeConfig s) := by
  obtain ⟨hvalue, hlow, hhigh, hshot, hreturns, -⟩ := h
  have hadopted : ClockOk (setClock s (adoptConfig (readClockConfig s.path.shadow))) :=
    ⟨hvalue, hlow, hhigh, hshot, hreturns, configOk_readClockConfig _⟩
  unfold takeConfig
  dsimp only
  split
  · exact clockOk_tryStart hadopted _
  · exact hadopted

theorem clockOk_stopClock (h : ClockOk s) (target : GameState) (cause : ClockCause) :
    ClockOk (stopClock s target cause) := by
  unfold stopClock
  dsimp only
  split
  · exact clockOk_takeConfig h
  · exact h

theorem clockOk_reevaluate (h : ClockOk s) (cause : ClockCause) : ClockOk (reevaluate s cause) := by
  unfold reevaluate
  split
  · split
    · exact h
    · exact clockOk_stopClock h _ _
  · exact clockOk_tryStart h _

theorem tickValue_le (c : ClockUnit) (h : c.value ≤ clockLimit) : tickValue c ≤ clockLimit := by
  unfold tickValue
  split
  · omega
  · split <;> omega

theorem tickShot_le (c : ClockUnit) : tickShot c ≤ c.shotValue := by
  unfold tickShot
  split <;> omega

/-! ### Ticks (R67, R68, R70) -/

theorem clockView_recordOutcome (s : State) (w : ReqWord) (tag : Byte) (code : Nat) (v : Verdict) :
    clockView (recordOutcome s w tag code v) = clockView s := by
  unfold recordOutcome
  dsimp only
  split <;> rfl

theorem clockView_spotRequest (s : State) (o : SpotOffsets) (i p dwell c : Nat) :
    clockView (spotRequest s o i p dwell c).1 = clockView s := by
  unfold spotRequest
  repeat' split
  all_goals rfl

theorem clockView_periodEndSpot (s : State) : clockView (periodEndSpot s) = clockView s := by
  unfold periodEndSpot
  split
  · exact (clockView_recordOutcome _ _ _ _ _).trans (clockView_spotRequest _ _ _ _ _ _)
  · rfl

theorem clockHolds_tickValues (h : ClockHolds s) : ClockHolds (tickValues s) := by
  obtain ⟨hrun, hvalue, hlow, hhigh, hshot, hrest⟩ := h
  exact ⟨hrun, tickValue_le _ hvalue, hlow, hhigh, (tickShot_le _).trans hshot, hrest⟩

theorem clockHolds_shotExpire (h : ClockHolds s) : ClockHolds (shotExpire s) := h

theorem clockHolds_expireClock (h : ClockHolds s) : ClockHolds (expireClock s) := by
  refine clockHolds_of_view (clockView_periodEndSpot _)
    ⟨runOk_stopClock (s := startHornGame s _) _ nofun nofun, clockOk_stopClock ?_ _ _⟩
  exact h.2

theorem clockHolds_reachSetPoint (h : ClockHolds s) : ClockHolds (reachSetPoint s) := by
  unfold reachSetPoint
  dsimp only
  split <;> exact h

theorem clockHolds_reachLimit (h : ClockHolds s) : ClockHolds (reachLimit s) := by
  refine ⟨runOk_stopClock (s := setClock s _) _ nofun fun _ => rfl, clockOk_stopClock ?_ _ _⟩
  exact h.2

theorem clockHolds_tick (h : ClockHolds s) : ClockHolds (tick s) := by
  have hite {c : Prop} [Decidable c] {f : State → State} (hf : ∀ {t}, ClockHolds t → ClockHolds (f t))
      {t : State} (ht : ClockHolds t) : ClockHolds (if c then f t else t) := by
    split
    · exact hf ht
    · exact ht
  have hvalues := hite (c := tickShotExpires s.clock = true) clockHolds_shotExpire
    (clockHolds_tickValues h)
  unfold tick
  dsimp only
  split
  · exact hite clockHolds_expireClock hvalues
  · exact hite clockHolds_reachLimit (hite clockHolds_reachSetPoint hvalues)

theorem clockHolds_creditTicks (h : ClockHolds s) (n : Nat) : ClockHolds (creditTicks n s) := by
  induction n generalizing s with
  | zero => exact h
  | succ n ih =>
    unfold creditTicks
    split
    · exact clockHolds_tick h
    · exact ih (clockHolds_tick h)

/-! ### The timebase, the gate, captures (R60 to R65, R78) -/

theorem clockHolds_loseTimebase (h : ClockHolds s) : ClockHolds (loseTimebase s) := by
  have hticks : ClockHolds (creditTicks 3 (setClock s fun c => { c with source := .internal })) := by
    refine clockHolds_creditTicks ?_ 3
    exact h
  obtain ⟨hrun, hvalue, hlow, hhigh, hshot, -, hconfig⟩ := hticks
  exact ⟨hrun, hvalue, hlow, hhigh, hshot, Nat.zero_le _, hconfig⟩

theorem clockHolds_advanceClock (h : ClockHolds s) : ClockHolds (advanceClock s) := by
  unfold advanceClock
  dsimp only
  split
  · refine clockHolds_loseTimebase ?_
    exact h
  · split
    · exact clockHolds_tick h
    · exact h

theorem clockHolds_countReturn (h : ClockHolds s) : ClockHolds (countReturn s) := by
  obtain ⟨hrun, hvalue, hlow, hhigh, hshot, hreturns, hconfig⟩ := h
  have hnext : nextReturns s.clock ≤ s.clock.returns + 1 := by
    unfold nextReturns
    split <;> omega
  unfold countReturn
  dsimp only
  split
  · exact ⟨hrun, hvalue, hlow, hhigh, hshot, Nat.zero_le _, hconfig⟩
  · next hn => exact ⟨hrun, hvalue, hlow, hhigh, hshot, by dsimp [setClock]; omega, hconfig⟩

theorem clockHolds_timebaseEdge (h : ClockHolds s) : ClockHolds (timebaseEdge s) := by
  unfold timebaseEdge
  split
  · split
    · exact clockHolds_tick h
    · exact h
  · exact clockHolds_countReturn h

theorem clockHolds_gateEdge (h : ClockHolds s) : ClockHolds (gateEdge s) := by
  refine ⟨runOk_reevaluate _ _, clockOk_reevaluate ?_ _⟩
  exact h.2

theorem clockHolds_loadShotReset (h : ClockHolds s) : ClockHolds (loadShotReset s) := by
  obtain ⟨hrun, hvalue, hlow, hhigh, -, hreturns, hconfig⟩ := h
  have hreset : s.clock.config.shotReset ≤ 99999 := by
    unfold ConfigOk at hconfig
    omega
  exact ⟨hrun, hvalue, hlow, hhigh, hreset, hreturns, hconfig⟩

theorem clockHolds_clockConfigCaptured (h : ClockHolds s) : ClockHolds (clockConfigCaptured s) := by
  unfold clockConfigCaptured
  split
  · exact h
  · next hidle => exact ⟨runOk_takeConfig h.1 hidle, clockOk_takeConfig h.2⟩

/-! ### The CLOCK requests (section 4.6) -/

theorem clockHolds_softRequest (h : ClockHolds s) (on : Bool) : ClockHolds (softRequest s on).1 := by
  unfold softRequest
  split
  · exact h
  · refine ⟨runOk_reevaluate _ _, clockOk_reevaluate ?_ _⟩
    exact h.2

theorem clockHolds_setRequest (h : ClockHolds s) (v : Nat) : ClockHolds (setRequest s v).1 := by
  unfold setRequest
  split
  · exact h
  · split
    · exact h
    · next hv =>
      have hv : v ≤ clockLimit := Nat.le_of_not_lt fun hlt => hv (.inr hlt)
      refine ⟨runOk_tryStart _ nofun, clockOk_tryStart ?_ _⟩
      exact ⟨hv, h.2.2⟩

theorem adjustedValue_le (old : Nat) (delta : Int) : adjustedValue old delta ≤ clockLimit := by
  unfold adjustedValue clampInt clockLimit
  omega

theorem clockHolds_adjustState (h : ClockHolds s) : ClockHolds (adjustState s) := by
  unfold adjustState
  split
  · exact h
  · split
    · split
      · exact ⟨runOk_stopClock _ nofun nofun, clockOk_stopClock h.2 _ _⟩
      · exact ⟨runOk_iff.2 ⟨nofun, nofun⟩, h.2⟩
    · split
      · refine ⟨runOk_tryStart _ nofun, clockOk_tryStart ?_ _⟩
        exact h.2
      · exact h

theorem clockHolds_adjustRequest (h : ClockHolds s) (delta : Int) :
    ClockHolds (adjustRequest s delta).1 := by
  refine clockHolds_adjustState ?_
  exact ⟨h.1, adjustedValue_le _ _, h.2.2⟩

/-- A clock stopped for a new period or a new game keeps the ranges (R76, R80). -/
theorem clockOk_stopForGame (h : ClockOk s) : ClockOk (stopForGame s) := by
  unfold stopForGame
  split
  · refine clockOk_stopClock ?_ _ _
    exact h
  · exact h

theorem periodStart_le {c : ClockConfig} (h : ConfigOk c) : periodStart c ≤ 5999999 := by
  unfold periodStart
  unfold ConfigOk at h
  split <;> omega

theorem clockHolds_periodNextRequest (h : ClockHolds s) : ClockHolds (periodNextRequest s).1 := by
  obtain ⟨-, hlow, -, -, hreturns, hconfig⟩ := clockOk_stopForGame h.2
  have hshot : (stopForGame s).clock.config.shotReset ≤ 99999 := by
    unfold ConfigOk at hconfig
    omega
  exact ⟨runOk_iff.2 ⟨nofun, fun _ => rfl⟩, periodStart_le hconfig, by simp [periodNextRequest],
    min_le_left _ _, hshot, hreturns, hconfig⟩

theorem clockHolds_clearClock (h : ClockHolds s) : ClockHolds (clearClock s) := by
  obtain ⟨-, -, -, -, hreturns, hconfig⟩ := clockOk_stopForGame h.2
  have hshot : (stopForGame s).clock.config.shotReset ≤ 99999 := by
    unfold ConfigOk at hconfig
    omega
  exact ⟨runOk_iff.2 ⟨nofun, fun _ => rfl⟩, periodStart_le hconfig, le_refl 1, by simp [clearClock],
    hshot, hreturns, hconfig⟩

theorem clockHolds_shotSetRequest (h : ClockHolds s) (v : Nat) :
    ClockHolds (shotSetRequest s v).1 := by
  unfold shotSetRequest
  split
  · exact h
  · next hv =>
    obtain ⟨hrun, hvalue, hlow, hhigh, -, hrest⟩ := h
    exact ⟨hrun, hvalue, hlow, hhigh, Nat.le_of_not_lt hv, hrest⟩

theorem clockHolds_shotSwitchRequest (h : ClockHolds s) (on : Bool) :
    ClockHolds (shotSwitchRequest s on).1 := by
  unfold shotSwitchRequest
  split <;> exact h

theorem clockHolds_hornRequest (h : ClockHolds s) (ms : Nat) : ClockHolds (hornRequest s ms).1 := by
  unfold hornRequest
  split <;> exact h

theorem clockHolds_clockRequest (h : ClockHolds s) (x : RequestWord) :
    ClockHolds (clockRequest s x).1 := by
  unfold clockRequest
  split
  · exact clockHolds_softRequest h _
  · exact clockHolds_softRequest h _
  · exact clockHolds_setRequest h _
  · exact clockHolds_adjustRequest h _
  · exact clockHolds_periodNextRequest h
  · exact clockHolds_loadShotReset h
  · exact clockHolds_shotSetRequest h _
  · exact clockHolds_shotSwitchRequest h _
  · exact clockHolds_shotSwitchRequest h _
  · exact clockHolds_hornRequest h _
  · exact h

end
end Sys2Proof.ClockProofs
end

section
/-! What leaves the gate and the clock unit as they were: every operation of the other units, every answer,
every arrival but for the requests and the clock configuration. -/

namespace Sys2Proof.ClockProofs
open Sys2Proof.Machine Sys2Proof.FrameProofs Sys2Proof.SponsorProofs

section
variable (s : State)

@[simp] theorem clockView_aside : clockView (aside s) = clockView s := rfl
@[simp] theorem clockView_raise (k : NoticeKind) (d : List (Nat × List Byte)) :
    clockView (raise s k d) = clockView s := rfl
@[simp] theorem clockView_setMsg (f : MessageUnit → MessageUnit) :
    clockView (setMsg s f) = clockView s := rfl
@[simp] theorem clockView_issue (d : DownTxn) : clockView (issue s d) = clockView s := rfl
@[simp] theorem clockView_enterOrder (id : BitVec 8) (dir : Dir) (k : EntryKind) (n m : Nat)
    (a : Option UpResp) : clockView (enterOrder s id dir k n m a) = clockView s := rfl

@[simp] theorem clockView_settle : clockView (settle s) = clockView s := by
  rw [← clockView_aside, aside_settle, clockView_aside]

@[simp] theorem clockView_refreshStart : clockView (refreshStart s) = clockView s := by
  rw [← clockView_aside, aside_refreshStart, clockView_aside]

@[simp] theorem clockView_issueAll (l : List DownTxn) : clockView (issueAll s l) = clockView s :=
  view_foldl s clockView_issue l

@[simp] theorem clockView_raiseAll {α : Type} (k : NoticeKind) (key : α → Nat)
    (detail : α → List (Nat × List Byte)) (l : List α) :
    clockView (raiseAll s k key detail l) = clockView s := by
  unfold raiseAll
  split <;> exact view_foldl _ (fun t x => clockView_raise t k (detail x)) _

/-! ### The message unit -/

@[simp] theorem clockView_overrunTest : clockView (overrunTest s) = clockView s := by
  unfold overrunTest
  split <;> rfl

@[simp] theorem clockView_fetchStart : clockView (fetchStart s) = clockView s := by
  unfold fetchStart
  split <;> rfl

@[simp] theorem clockView_releaseTest : clockView (releaseTest s) = clockView s := by
  unfold releaseTest
  split <;> rfl

@[simp] theorem clockView_departed : clockView (departed s) = clockView s := by
  rw [departed, clockView_fetchStart, clockView_releaseTest]

theorem clockView_expireMessages : clockView (expireMessages s) = clockView s := by
  unfold expireMessages
  dsimp only
  split
  · rfl
  · rw [clockView_departed, clockView_raiseAll, clockView_setMsg]

theorem clockView_tailCaptured : clockView (tailCaptured s) = clockView s := by
  unfold tailCaptured
  dsimp only
  split
  · rfl
  · rw [clockView_fetchStart, clockView_overrunTest, clockView_setMsg]

theorem clockView_withdraw (id : BitVec 32) : clockView (withdraw s id) = clockView s := by
  unfold withdraw handWithdrawal
  split
  · exact clockView_releaseTest _
  · repeat' split
    all_goals rfl

theorem clockView_queueMessage (m : Message) : clockView (queueMessage s m) = clockView s := by
  unfold queueMessage assertTest
  split <;> rfl

theorem clockView_completeFetch (r : BitVec 16) (error : Bool) (data : List Byte) :
    clockView (completeFetch s r error data) = clockView s := by
  have hrecord : ∀ t, clockView (takeRecord t r error data) = clockView t := fun t => by
    unfold takeRecord
    split
    · rfl
    · split
      · rfl
      · exact clockView_queueMessage t _
      · exact clockView_withdraw t _
  simp [completeFetch, hrecord]

/-! ### Requests but for those of the clock unit -/

theorem clockView_setOutcomeRow (w : ReqWord) (f : OutcomeRow → OutcomeRow) :
    clockView (setOutcomeRow s w f) = clockView s := rfl

theorem clockView_modeRequests (tag : Byte) : clockView (goLiveRequest s tag).1 = clockView s ∧
    clockView (goPassRequest s tag).1 = clockView s := by
  have hsupersede : clockView (supersedeMode s) = clockView s := by
    unfold supersedeMode
    split <;> rfl
  have hpend : ∀ m, clockView (pendMode s m tag).1 = clockView s := fun _ => hsupersede
  have hunpend : clockView (unpendMode s).1 = clockView s := hsupersede
  constructor
  · unfold goLiveRequest
    split
    · rfl
    · split
      · rfl
      · split
        · exact hpend _
        · exact hunpend
  · unfold goPassRequest
    split
    · rfl
    · split
      · exact hpend _
      · exact hunpend

theorem clockView_sponsorRequest (x : RequestWord) :
    clockView (sponsorRequest s x).1 = clockView s := by
  have hsuspend : ∀ i on, clockView (suspendRequest s i on).1 = clockView s := fun i on => by
    unfold suspendRequest
    repeat' split
    all_goals rfl
  unfold sponsorRequest
  split
  · exact clockView_spotRequest s _ _ _ _ _
  · unfold setLowestRequest
    repeat' split
    all_goals rfl
  · unfold endRequest
    repeat' split
    all_goals rfl
  · exact hsuspend _ _
  · exact hsuspend _ _
  · rfl

theorem clockView_replayRequest (x : RequestWord) : clockView (replayRequest s x).1 = clockView s := by
  have hwait : ∀ w, clockView (waitFor s w).1 = clockView s := fun w => by
    unfold waitFor supersedeWaiting
    dsimp only
    split <;> rfl
  have harm : ∀ a, clockView (armRequest s a).1 = clockView s := fun a => by
    unfold armRequest
    split
    · rfl
    · dsimp only
      repeat' split
      all_goals rfl
  have htake : clockView (takeLiveRequest s).1 = clockView s := by
    unfold takeLiveRequest
    repeat' split
    all_goals first | rfl | exact hwait _
  unfold replayRequest
  split
  · exact harm _
  · unfold disarmRequest
    repeat' split
    all_goals rfl
  · unfold resetRingRequest
    split <;> rfl
  · simp only [playRequest, apply_ite Prod.fst, apply_ite clockView, hwait, ite_self]
  · unfold freezeRequest
    split <;> rfl
  · unfold replayResumeRequest
    split <;> rfl
  · unfold stepRequest
    repeat' split
    all_goals rfl
  · exact htake
  · rfl

theorem clockView_tickerRequest (x : RequestWord) : clockView (tickerRequest s x).1 = clockView s := by
  have hact : ∀ b, clockView (setActedOn s b) = clockView s := fun b => by
    unfold setActedOn
    split <;> rfl
  unfold tickerRequest
  split
  · unfold purgeRequest
    split
    · rfl
    · exact (clockView_departed _).trans (clockView_setMsg s _)
  · unfold pauseRequest
    split
    · exact hact _
    all_goals rfl
  · unfold tickerResumeRequest
    split
    · exact hact _
    all_goals rfl
  · rfl

/-! ### Captures -/

theorem clockView_geometryCaptured (w : WriteReq) (bytes : List (Nat × Byte)) :
    clockView (geometryCaptured s w bytes) = clockView s := by
  unfold geometryCaptured setGeometry
  dsimp only
  repeat' split
  all_goals rfl

theorem clockView_teamCaptured (t : Team) (old : Nat) :
    clockView (teamCaptured s t old) = clockView s := by
  have hask : ∀ u, clockView (askFlash u t) = clockView u := fun u => by
    unfold askFlash
    split <;> rfl
  have hcut : ∀ u, clockView (sendCut u) = clockView u := fun u => by
    unfold sendCut
    split <;> rfl
  unfold teamCaptured scoreRise
  split
  · rw [hcut, hask, clockView_raise]
  · rfl

theorem clockView_sponsorCaptured (i : Nat) : clockView (sponsorCaptured s i) = clockView s := by
  unfold sponsorCaptured
  split <;> rfl

/-! ### Reads, answers and errors -/

theorem clockView_of_sameButAnswers {s t : State} (h : SameButAnswers s t) :
    clockView t = clockView s := by
  rw [h]
  rfl

theorem clockView_arriveRead (r : ReadReq) : clockView (arriveRead s r) = clockView s := by
  unfold arriveRead
  split
  · next p _ _ =>
    calc clockView (compositedRead s r p)
        = clockView (enterOrder (issueAll s _) r.id .read .composited 0 r.beats none) := rfl
      _ = clockView s := by rw [clockView_enterOrder, clockView_issueAll]
  · split
    · simp [windowRead]
    · rfl

theorem clockView_programError (read : ReadName) : clockView (programError s read) = clockView s := by
  unfold programError
  split
  · rfl
  · split
    · split
      · exact clockView_of_sameButAnswers ((modifyRead_same s _ _).trans (failRead_same _ _))
      · rfl
    · rfl

theorem clockView_overlayError (read : ReadName) (l addr : Nat) :
    clockView (overlayError s read l addr) = clockView s := by
  have herase : ∀ f, clockView (eraseLayer s f l) = clockView s := fun f => clockView_issueAll _ _
  unfold overlayError
  split
  · rfl
  · split
    · rfl
    · split
      · exact herase _
      · rfl

theorem clockView_compositedAnswer (read : ReadName) (f : Fetched) :
    clockView (compositedAnswer s read f) = clockView s := by
  unfold compositedAnswer
  split
  · rfl
  · split
    · rfl
    · split
      · exact clockView_of_sameButAnswers (completeRead_same s _ _)
      · rfl

theorem clockView_ingestResponse (id : BitVec 8) (outside : Bool) (code : Resp) :
    clockView (ingestResponse s id outside code) = clockView s := by
  have hset : ∀ u e k a b, clockView (setPieces u e k a b) = clockView u := fun u e k a b => by
    unfold setPieces
    split
    · exact clockView_of_sameButAnswers (answerKey_same u _ _)
    · rfl
  unfold ingestResponse
  split
  · rfl
  · split
    · rfl
    · split
      · exact hset _ _ _ _ _
      · rw [hset]
        split <;> rfl
      · rfl

theorem clockView_forwardedResponse (dir : Dir) (id : BitVec 8) (data : List Byte)
    (status : List Resp) : clockView (forwardedResponse s dir id data status) = clockView s := by
  unfold forwardedResponse
  split
  · rfl
  · split
    · rfl
    · split
      · exact clockView_of_sameButAnswers (answerKey_same s _ _)
      · rfl

theorem clockView_refreshComplete : clockView (refreshComplete s) = clockView s := by
  unfold refreshComplete
  split
  · rfl
  · split <;> rfl

/-- FRAME_START leaves the clock unit (R4). -/
theorem clockView_frameStart : clockView (frameStart s) = clockView s :=
  Prod.ext (gateRun_frameUnits s) (clock_frameUnits s)

end
end Sys2Proof.ClockProofs
end

section
/-! Every step keeps the run condition and the ranges of the clock unit (O55). -/

namespace Sys2Proof.ClockProofs
open Sys2Proof.Machine Sys2Proof.FrameProofs Sys2Proof.SponsorProofs

section
variable {s : State}

/-! ### Requests, captures, arrivals -/

theorem clockHolds_answerRequest (h : ClockHolds s) (w : ReqWord) (x : RequestWord) :
    ClockHolds (answerRequest s w x).1 := by
  cases w with
  | showWord =>
    change ClockHolds (showRequest s x).1
    unfold showRequest
    split
    · exact clockHolds_of_view (clockView_modeRequests s _).1 h
    · exact clockHolds_of_view (clockView_modeRequests s _).2 h
    · exact clockHolds_clearClock h
    · exact h
    · exact h
  | clockWord => exact clockHolds_clockRequest h x
  | sponsorWord => exact clockHolds_of_view (clockView_sponsorRequest s x) h
  | replayWord => exact clockHolds_of_view (clockView_replayRequest s x) h
  | tickerWord => exact clockHolds_of_view (clockView_tickerRequest s x) h
  | spareWord => exact h

theorem clockHolds_takeRequests (h : ClockHolds s) (ws : List ReqWord) :
    ClockHolds (takeRequests ws s) :=
  takeRequests_keeps
    (fun w _ ht => clockHolds_of_view (clockView_recordOutcome _ _ _ _ _)
      (clockHolds_answerRequest ht w _))
    (fun t ht => clockHolds_of_view (clockView_settle t) ht) ws s h

theorem clockHolds_reacting {f : State → State} (hf : ∀ {t}, ClockHolds t → ClockHolds (f t))
    (h : ClockHolds s) (reached : Bool) : ClockHolds (reacting reached f s) := by
  unfold reacting
  split
  · exact hf h
  · exact h

theorem clockHolds_configReactions (h : ClockHolds s) (w : WriteReq) (bytes : List (Nat × Byte)) :
    ClockHolds (configReactions s w bytes) :=
  clockHolds_reacting clockHolds_clockConfigCaptured
    (clockHolds_reacting (clockHolds_of_view (clockView_geometryCaptured _ w bytes)) h _) _

theorem clockHolds_recordReactions (h : ClockHolds s) (bytes : List (Nat × Byte)) (home away : Nat) :
    ClockHolds (recordReactions s bytes home away) := by
  have hteam : ∀ x old {t}, ClockHolds t → ClockHolds (teamCaptured t x old) := fun x old _ =>
    clockHolds_of_view (clockView_teamCaptured _ x old)
  exact clockHolds_of_view (view_foldl _ clockView_sponsorCaptured _)
    (clockHolds_reacting (hteam .away away) (clockHolds_reacting (hteam .home home) h _) _)

theorem clockHolds_wordReactions (h : ClockHolds s) (bytes : List (Nat × Byte)) :
    ClockHolds (wordReactions s bytes) :=
  clockHolds_reacting (clockHolds_of_view (clockView_tailCaptured _))
    (clockHolds_reacting (f := consumeCaptured) (clockHolds_of_view rfl) h _) _

theorem clockHolds_capture (h : ClockHolds s) (w : WriteReq) : ClockHolds (capture s w) := by
  have hmerged : ClockHolds (mergeCapture s (captureBytes s w)) := h
  exact clockHolds_takeRequests (clockHolds_wordReactions (clockHolds_recordReactions
    (clockHolds_configReactions hmerged w _) _ _ _) _) _

theorem clockHolds_ingestWrite (h : ClockHolds s) {w : WriteReq} {t : State}
    (hw : ingestWrite s w = some t) : ClockHolds t := by
  obtain ⟨⟨k, u⟩, hopen, rfl⟩ := Option.map_eq_some_iff.1 hw
  have hopen : clockView u = clockView s := by
    unfold openFor at hopen
    split at hopen
    · obtain ⟨j, -, he⟩ := Option.map_eq_some_iff.1 hopen
      cases he
      rfl
    · split at hopen <;> cases hopen <;> rfl
  have hcommit : ∀ t, clockView (commitFrame t k) = clockView t := fun t => by
    unfold commitFrame
    repeat' split
    all_goals rfl
  refine clockHolds_capture (clockHolds_of_view ?_ h) w
  simp only [apply_ite clockView, hcommit, clockView_enterOrder, clockView_issueAll, ite_self, hopen]

theorem clockHolds_arriveWrite (h : ClockHolds s) {w : WriteReq} {t : State}
    (hw : arriveWrite s w = some t) : ClockHolds t := by
  unfold arriveWrite at hw
  split at hw
  case h_3 => exact clockHolds_ingestWrite h hw
  all_goals cases hw
  · exact h
  · exact h
  · refine clockHolds_capture ?_ w
    exact h
  · exact h

/-! ### Commands -/

/-- Every next state of this outcome meets the run condition and the ranges. -/
def OutcomeHolds (o : Host.Outcome State Fault Refusal) : Prop := ∀ t, o = .next t → ClockHolds t

theorem outcomeHolds_next (h : ClockHolds s) : OutcomeHolds (.next s) := by
  rintro t ⟨⟩
  exact h

theorem outcomeHolds_done (h : ClockHolds s) : OutcomeHolds (done s) :=
  outcomeHolds_next (clockHolds_of_view (clockView_settle s) h)

theorem outcomeHolds_whenDue {u : State} (due : Bool) (hu : ClockHolds u) (h : ClockHolds s) :
    OutcomeHolds (whenDue due u s) := by
  unfold whenDue
  split
  · exact outcomeHolds_done hu
  · exact outcomeHolds_next h

theorem outcomeHolds_settled (h : ClockHolds s) (w : WriteReq) :
    OutcomeHolds (settled (arriveWrite s w)) := by
  cases hw : arriveWrite s w with
  | none => rintro t ⟨⟩
  | some t => exact outcomeHolds_done (clockHolds_arriveWrite h hw)

theorem outcomeHolds_arriving (h : ClockHolds s) (w : WriteReq) : OutcomeHolds (arriving w s) := by
  unfold arriving
  split
  · exact outcomeHolds_settled h w
  · rintro t ⟨⟩

theorem outcomeHolds_reading (h : ClockHolds s) (r : ReadReq) : OutcomeHolds (reading r s) := by
  unfold reading
  split
  · exact outcomeHolds_done (clockHolds_of_view (clockView_arriveRead s r) h)
  · rintro t ⟨⟩

theorem outcomeHolds_intakeFetchComplete (h : ClockHolds s) (error : Bool) (data : List Byte) :
    OutcomeHolds (execIntakeFetchComplete error data s) := by
  unfold execIntakeFetchComplete
  split
  · exact outcomeHolds_next h
  · split
    · exact outcomeHolds_next h
    · exact outcomeHolds_whenDue _ (clockHolds_of_view (clockView_completeFetch s _ _ _) h) h

theorem clockHolds_houseAdvance (h : ClockHolds s) : ClockHolds (houseAdvance s) :=
  clockHolds_of_view (clockView_expireMessages _) (clockHolds_advanceClock h)

theorem clockHolds_tickArrival (h : ClockHolds s) : ClockHolds (tickArrival s) := by
  unfold tickArrival
  split
  · exact clockHolds_timebaseEdge h
  · exact clockHolds_houseAdvance h

theorem clockHolds_reset (tbase : BitVec 8) (gate : Bool) (stale : List Stale) (pending : List Instr) :
    ClockHolds (.resetWith tbase gate stale pending) := by
  have hranges : ClockOk .reset := by
    unfold ClockOk ConfigOk
    decide
  exact ⟨runOk_iff.2 ⟨nofun, fun _ => rfl⟩, hranges⟩

theorem outcomeHolds_exec (h : ClockHolds s) (c : Instr) : OutcomeHolds (exec c s) := by
  have keeps {o : Host.Outcome State Fault Refusal} {u : State} (ho : o = done u)
      (hv : clockView u = clockView s) : OutcomeHolds o :=
    ho ▸ outcomeHolds_done (clockHolds_of_view hv h)
  cases c with
  | resetN tbase gate => exact outcomeHolds_next (clockHolds_reset _ _ _ _)
  | frameStart => exact keeps rfl (clockView_frameStart s)
  | flashEnd | stackEntryDwellEnd | enteringBumperEnd | leavingBumperEnd | clipEndAction =>
    exact outcomeHolds_whenDue _ (clockHolds_of_view (clockView_frameStart s) h) h
  | gateRunEdge => exact outcomeHolds_done (clockHolds_gateEdge h)
  | shotRstEdge => exact outcomeHolds_done (clockHolds_loadShotReset h)
  | tbInEdge => exact outcomeHolds_done (clockHolds_timebaseEdge h)
  | houseTimeAdvance => exact outcomeHolds_done (clockHolds_houseAdvance h)
  | timebaseLoss | hornEnd | messageExpiry =>
    exact outcomeHolds_whenDue _ (clockHolds_houseAdvance h) h
  | timebaseRestore => exact outcomeHolds_whenDue _ (clockHolds_timebaseEdge h) h
  | gameClockExpiry | shotClockExpiry | upSetPointReached | upLimit =>
    exact outcomeHolds_whenDue _ (clockHolds_tickArrival h) h
  | compositedRead r | windowRead r => exact outcomeHolds_reading h r
  | compositedReadAnswer read => exact keeps rfl (clockView_compositedAnswer s read _)
  | overlayFetchError read l a => exact keeps rfl (clockView_overlayError s read l a)
  | programFetchError read => exact keeps rfl (clockView_programError s read)
  | ingestWriteResponse id o code => exact keeps rfl (clockView_ingestResponse s id o code)
  | forwardedResponse dir id d st => exact keeps rfl (clockView_forwardedResponse s dir id d st)
  | forwardedTransaction t =>
    cases t with
    | read r => exact outcomeHolds_reading h r
    | write w => exact outcomeHolds_arriving h w
  | ingestWrite w | blockedWrite w | partOwnedWrite w | capturedWrite w | geometryCapture w
  | teamRecordCapture w | sponsorEntryCapture w | clockConfigCapture w | intakeTailCapture w
  | noticeConsumeCapture w => exact outcomeHolds_arriving h w
  | intakeFetchStart => exact keeps rfl (clockView_fetchStart s)
  | intakeFetchComplete e d => exact outcomeHolds_intakeFetchComplete h e d
  | statusRefreshStart => exact outcomeHolds_next (clockHolds_of_view (clockView_refreshStart s) h)
  | statusRefreshComplete => exact keeps rfl (clockView_refreshComplete s)
  | goLive | goPass | clearGame | clearExposure | spareRequest | runEnable | runDisable | clockSet
  | clockAdjust | periodNext | shotReset | shotSet | shotEnable | shotDisable | horn | spot | setLowest
  | endEntry | suspend | sponsorResume | arm | disarm | resetRing | play | freeze | replayResume
  | stepReplay | takeLive | purge | pause | tickerResume | unknownRequestCode =>
    exact outcomeHolds_settled h _

end

/-- Settles O55: what a command can do to the clock unit, by the unit's own operations, keeps both. -/
theorem stepsKeepTheRunCondition : Obligations.StepsKeepTheRunCondition := by
  intro s t hrun hclock hstep
  unfold step at hstep
  split at hstep
  · cases hstep
    exact ⟨hrun, hclock⟩
  · next c rest _ =>
    have hqueue : ClockHolds { s with pending := rest } := ⟨hrun, hclock⟩
    exact outcomeHolds_exec hqueue c t hstep

end Sys2Proof.ClockProofs
end

section
/-! What an attempt to start and an evaluation of the run condition come to, case by case (R64, R66), and how
a request of the CLOCK word ends (R171, R183). -/

namespace Sys2Proof.ClockProofs
open Sys2Proof.Machine Sys2Proof.FrameProofs Sys2Proof.SponsorProofs

/-! ### A state with another clock unit -/

/-- The state with this clock unit. -/
def withClock (t : State) (c : ClockUnit) : State := { t with clock := c }

section
variable (t : State) (c : ClockUnit)

@[simp] theorem withClock_gateRun : (withClock t c).gateRun = t.gateRun := rfl
@[simp] theorem withClock_path : (withClock t c).path = t.path := rfl
@[simp] theorem withClock_comp : (withClock t c).comp = t.comp := rfl
@[simp] theorem withClock_clock : (withClock t c).clock = c := rfl
@[simp] theorem withClock_msg : (withClock t c).msg = t.msg := rfl
@[simp] theorem withClock_report : (withClock t c).report = t.report := rfl
@[simp] theorem withClock_withClock (d : ClockUnit) :
    withClock (withClock t c) d = withClock t d := rfl
@[simp] theorem withClock_self : withClock t t.clock = t := rfl

theorem setClock_eq_withClock (f : ClockUnit → ClockUnit) :
    setClock t f = withClock t (f t.clock) := rfl

end

/-! ### The run condition (R64) -/

section
variable {t : State} (cause : ClockCause)

theorem runWanted_iff : runWanted t = true ↔
    t.clock.soft = true ∧ (t.gateRun = true ∨ t.clock.config.gateOverride = true) := by
  simp [runWanted]

theorem tryStart_of_idle (h : ¬(t.clock.state = .stopped ∧ runWanted t = true)) :
    tryStart t cause = t := by
  rw [tryStart, if_neg h]

theorem tryStart_of_wanted (hs : t.clock.state = .stopped) (hw : runWanted t = true)
    (hz : ¬(t.clock.config.mode = .down ∧ t.clock.value = 0)) :
    tryStart t cause = withClock t (started t.clock t.comp.frame cause) := by
  rw [tryStart, if_pos ⟨hs, hw⟩, if_neg hz]
  rfl

theorem tryStart_of_zero (hs : t.clock.state = .stopped) (hw : runWanted t = true)
    (hm : t.clock.config.mode = .down) (hz : t.clock.value = 0) :
    tryStart t cause = withClock t { t.clock with state := .expired } := by
  rw [tryStart, if_pos ⟨hs, hw⟩, if_pos ⟨hm, hz⟩]
  rfl

theorem reevaluate_of_idle (hs : t.clock.state ≠ .running) :
    reevaluate t cause = tryStart t cause := by
  rw [reevaluate, if_neg hs]

theorem reevaluate_of_wanted (hs : t.clock.state = .running) (hw : runWanted t = true) :
    reevaluate t cause = t := by
  rw [reevaluate, if_pos hs, if_pos hw]

theorem reevaluate_of_unwanted (hs : t.clock.state = .running) (hw : ¬runWanted t = true) :
    reevaluate t cause = stopClock t .stopped cause := by
  rw [reevaluate, if_pos hs, if_neg hw]

end

/-! ### A stop (R66) -/

/-- The state of a stop before the command settles: this clock unit, CLOCK_STOPPED raised with the period and
the value of the stop, the refresh due (R66). -/
def withStop (t : State) (c : ClockUnit) (cause : ClockCause) (period value : Nat) : State :=
  raise (refreshDue (withClock t c) .clockStop) .clockStopped
    [(0, leBytes 1 cause.code), (1, leBytes 1 period), (4, leBytes 4 value)]

theorem stopClock_eq_withStop (t : State) (target : GameState) (cause : ClockCause) :
    stopClock t target cause = withStop t (stoppedConfigured t t.gateRun t.clock target cause) cause
      t.clock.period t.clock.value := stopClock_eq_stoppedConfigured t target cause

theorem withStop_withClock (t : State) (c d : ClockUnit) (cause : ClockCause) (period value : Nat) :
    withStop (withClock t c) d cause period value = withStop t d cause period value := rfl

section
variable {t : State} (gate : Bool) (c : ClockUnit) (target : GameState) (cause : ClockCause)

/-- A stop that takes no pending configuration. -/
theorem stoppedConfigured_of_none (h : t.clock.configPending = false) :
    stoppedConfigured t gate c target cause = stopped c t.comp.frame target cause := by
  rw [stoppedConfigured, h]
  rfl

/-- A stop that takes the pending configuration. -/
theorem stoppedConfigured_of_pending (h : t.clock.configPending = true) :
    stoppedConfigured t gate c target cause =
      configured gate t.comp.frame (readClockConfig t.path.shadow)
        (stopped c t.comp.frame target cause) := by
  rw [stoppedConfigured, if_pos h]

end

/-! ### How a request of the CLOCK word ends -/

section
variable (s : State) (id : BitVec 8) (code : Byte) (params : List Byte) (tag : Byte)
  (h : WordReady s id .clockWord)
include h

/-- A stop that a request brings about: the configuration it may take is not the request word's. -/
theorem stopClock_asked (c : ClockUnit) (hc : c.configPending = s.clock.configPending)
    (target : GameState) (cause : ClockCause) :
    stopClock (withClock (asked s id .clockWord code params tag) c) target cause =
      withStop (asked s id .clockWord code params tag) (stoppedConfigured s s.gateRun c target cause)
        cause c.period c.value := by
  obtain ⟨-, hwf, -⟩ := h
  rw [stopClock_eq_withStop, withStop_withClock]
  simp only [stoppedConfigured, withClock_clock, withClock_comp, withClock_path, withClock_gateRun, hc,
    asked_comp, asked_gateRun, readClockConfig_asked s id .clockWord code params tag hwf]

/-- A request that changes the clock unit alone. -/
theorem clockWord_taken {c : ClockUnit} {o : ReqOutcome}
    (ha : answerRequest (asked s id .clockWord code params tag) .clockWord
      { bytes := wordBytes code params tag } =
        (withClock (asked s id .clockWord code params tag) c, verdict o))
    (ho : o.refused = false) :
    asking id .clockWord code params tag s = .next
      (recorded (withClock (asked s id .clockWord code params tag) c) .clockWord tag o false) :=
  asking_taken s id .clockWord code params tag _ o false (verdict o) h ha ⟨rfl, rfl⟩ ho
    ((asked_quiet s id .clockWord code params tag h.1).of_report rfl)

/-- A request that stops the clock. -/
theorem clockWord_stopped {c : ClockUnit} {o : ReqOutcome} {cause : ClockCause} {period value : Nat}
    (ha : answerRequest (asked s id .clockWord code params tag) .clockWord
      { bytes := wordBytes code params tag } =
        (withStop (asked s id .clockWord code params tag) c cause period value, verdict o))
    (ho : o.refused = false) :
    asking id .clockWord code params tag s = .next (stopReported
      (recorded (withClock (asked s id .clockWord code params tag) c) .clockWord tag o false)
      cause period value) := by
  rw [asking_answer s id .clockWord code params tag _ _ h ha]
  refine congrArg _ (settle_recorded_stop _ .clockWord tag _ (verdict o) ?_ ho _)
  exact (asked_quiet s id .clockWord code params tag h.1).1

/-- A request that the clock unit answers without effect. -/
theorem clockWord_unchanged {o : ReqOutcome}
    (ha : answerRequest (asked s id .clockWord code params tag) .clockWord
      { bytes := wordBytes code params tag } = (asked s id .clockWord code params tag, verdict o))
    (ho : o.refused = false) :
    asking id .clockWord code params tag s =
      .next (recorded (asked s id .clockWord code params tag) .clockWord tag o false) :=
  clockWord_taken s id code params tag h ha ho

end
end Sys2Proof.ClockProofs
end

section
/-! The CLOCK requests (section 4.6). -/

namespace Sys2Proof.ClockProofs
open Sys2Proof.Machine Sys2Proof.FrameProofs Sys2Proof.SponsorProofs

/-! ### The shot clock and the horn (R71, R72, R77) -/

theorem shotSwitchRequest_switch {t : State} {on : Bool} (h : t.clock.shotOn = !on) :
    shotSwitchRequest t on = (withClock t { t.clock with shotOn := on }, verdict .accepted) := by
  rw [shotSwitchRequest, if_neg (by rw [h]; exact Bool.not_ne_self on)]
  rfl

theorem shotSwitchRequest_duplicate {t : State} {on : Bool} (h : t.clock.shotOn = on) :
    shotSwitchRequest t on = (t, verdict .duplicate) := by
  rw [shotSwitchRequest, if_pos h]

/-- Settles O12: each request by the branch its parameter or the shot enable takes. -/
theorem shotAndHornRequestsActOnTheirPartOnly : Obligations.ShotAndHornRequestsActOnTheirPartOnly := by
  intro s id tag v ms h reset load on off sound answered
  have hclock : ∀ code params, (asked s id .clockWord code params tag).clock = s.clock :=
    fun code params => asked_clock s id .clockWord code params tag
  have hend : BitVec.ofNat 32 ms.toNat = ms.setWidth 32 := BitVec.ofNat_toNat ..
  refine ⟨?_, fun hv => ?_, fun hv => ?_, fun hs => ?_, fun hs => ?_, fun hs => ?_, fun hs => ?_,
    fun hlow hhigh => ?_, fun hms => ?_⟩
  · refine clockWord_taken s id 6 [] tag h ((answer_shotReset _ tag).trans ?_) rfl
    rw [shotResetRequest, loadShotReset, setClock_eq_withClock, hclock]
  · refine clockWord_taken s id 7 _ tag h ((answer_shotSet _ tag v).trans ?_) rfl
    rw [shotSetRequest, if_neg (by omega), setClock_eq_withClock, hclock]
  · refine asking_refused s id .clockWord 7 _ tag .badParam _ 1 h ((answer_shotSet _ tag v).trans ?_) rfl
    rw [shotSetRequest, if_pos hv, badParam]
  · refine clockWord_taken s id 8 [] tag h ((answer_shotEnable _ tag).trans ?_) rfl
    rw [shotSwitchRequest_switch (by rw [hclock, hs]; rfl), hclock]
  · exact clockWord_unchanged s id 8 [] tag h
      ((answer_shotEnable _ tag).trans (shotSwitchRequest_duplicate (by rw [hclock, hs]))) rfl
  · refine clockWord_taken s id 9 [] tag h ((answer_shotDisable _ tag).trans ?_) rfl
    rw [shotSwitchRequest_switch (by rw [hclock, hs]; rfl), hclock]
  · exact clockWord_unchanged s id 9 [] tag h
      ((answer_shotDisable _ tag).trans (shotSwitchRequest_duplicate (by rw [hclock, hs]))) rfl
  · refine clockWord_taken s id 10 _ tag h ((answer_horn _ tag ms).trans ?_) rfl
    rw [hornRequest, if_neg (by omega), startHornGame, hornEndAt, setClock_eq_withClock, hclock, hend]
  · refine asking_refused s id .clockWord 10 _ tag .badParam _ 1 h ((answer_horn _ tag ms).trans ?_) rfl
    rw [hornRequest, if_pos hms, badParam]

/-! ### SET (R74) -/

/-- The clock unit that SET loads, before the attempt to start (R74). -/
def setUnit (c : ClockUnit) (v : Nat) : ClockUnit :=
  { c with value := v, state := .stopped, added := false }

theorem setRequest_load {t : State} {v : Nat} (hs : t.clock.state ≠ .running) (hlow : 1 ≤ v)
    (hhigh : v ≤ 5999999) :
    setRequest t v = (tryStart (withClock t (setUnit t.clock v)) .soft, verdict .accepted) := by
  have hrange : ¬(v = 0 ∨ clockLimit < v) := by
    unfold clockLimit
    omega
  rw [setRequest, if_neg hs, if_neg hrange]
  rfl

/-- Settles O9: SET by the state and the range, then the attempt to start. -/
theorem setLoadsTheGameClock : Obligations.SetLoadsTheGameClock := by
  intro s id tag v h t loaded gate
  have hclock : t.clock = s.clock := asked_clock ..
  have hcomp : t.comp = s.comp := asked_comp ..
  have hgate : t.gateRun = s.gateRun := asked_gateRun ..
  have loads : s.clock.state ≠ .running → 1 ≤ v.toNat → v.toNat ≤ 5999999 →
      setRequest t v.toNat = (tryStart (withClock t loaded) .soft, verdict .accepted) := by
    intro hs hlow hhigh
    rw [setRequest_load (hclock ▸ hs) hlow hhigh, hclock]
    rfl
  have wanted : runWanted (withClock t loaded) = true ↔ s.clock.soft = true ∧ gate := by
    rw [runWanted_iff, withClock_gateRun, hgate]
    rfl
  refine ⟨fun hs hlow hhigh hrun => ?_, fun hs hlow hhigh hsoft hg => ?_, fun hs => ?_,
    fun hs hv => ?_⟩
  · refine clockWord_taken s id 3 _ tag h ((answer_clockSet t tag v).trans ?_) rfl
    rw [loads hs hlow hhigh, tryStart_of_idle]
    exact fun hstarts => hrun (wanted.1 hstarts.2)
  · refine clockWord_taken s id 3 _ tag h ((answer_clockSet t tag v).trans ?_) rfl
    have hvalue : loaded.value ≠ 0 := Nat.ne_of_gt hlow
    rw [loads hs hlow hhigh, tryStart_of_wanted _ rfl (wanted.2 ⟨hsoft, hg⟩) fun hz => hvalue hz.2,
      withClock_comp, hcomp]
    rfl
  · refine asking_refused s id .clockWord 3 _ tag .running 0 0 h ((answer_clockSet t tag v).trans ?_) rfl
    rw [setRequest, hclock, if_pos hs, verdict]
  · refine asking_refused s id .clockWord 3 _ tag .badParam _ 1 h ((answer_clockSet t tag v).trans ?_) rfl
    have hrange : v.toNat = 0 ∨ clockLimit < v.toNat := hv.imp_left fun h0 => by rw [h0]; rfl
    rw [setRequest, hclock, if_neg hs, if_pos hrange, badParam]

/-! ### RUN_ENABLE and RUN_DISABLE (R73) -/

theorem softRequest_duplicate {t : State} {on : Bool} (h : t.clock.soft = on) :
    softRequest t on = (t, verdict .duplicate) := by
  rw [softRequest, if_pos h]

theorem softRequest_switch {t : State} {on : Bool} (h : t.clock.soft = !on) :
    softRequest t on =
      (reevaluate (withClock t { t.clock with soft := on }) .soft, verdict .accepted) := by
  rw [softRequest, if_neg (by rw [h]; exact Bool.not_ne_self on)]
  rfl

/-- Settles O8: the soft enable, then each case of the run condition. -/
theorem runSwitchFollowsTheRunCondition : Obligations.RunSwitchFollowsTheRunCondition := by
  intro s id tag h t u gate answered
  have tclock : t.clock = s.clock := asked_clock ..
  have uclock : u.clock = s.clock := asked_clock ..
  have tcomp : t.comp = s.comp := asked_comp ..
  have tgate : t.gateRun = s.gateRun := asked_gateRun ..
  have ugate : u.gateRun = s.gateRun := asked_gateRun ..
  let enabled : State := withClock t { s.clock with soft := true }
  let disabled : State := withClock u { s.clock with soft := false }
  have enables : s.clock.soft = false →
      softRequest t true = (reevaluate enabled .soft, verdict .accepted) := fun hsoft => by
    rw [softRequest_switch (by rw [tclock, hsoft]; rfl), tclock]
  have disables : s.clock.soft = true →
      softRequest u false = (reevaluate disabled .soft, verdict .accepted) := fun hsoft => by
    rw [softRequest_switch (by rw [uclock, hsoft]; rfl), uclock]
  have wanted : runWanted enabled = true ↔ gate := by
    rw [runWanted_iff, withClock_gateRun, tgate]
    exact and_iff_right rfl
  have unwanted : ¬runWanted disabled = true := nofun
  have stops : s.clock.soft = true → s.clock.state = .running → softRequest u false =
      (withStop u (stoppedConfigured s s.gateRun { s.clock with soft := false } .stopped .soft) .soft
        s.clock.period s.clock.value, verdict .accepted) := by
    intro hsoft hs
    rw [disables hsoft, reevaluate_of_unwanted (t := disabled) _ hs unwanted]
    exact congrArg (·, _) (stopClock_asked s id 2 [] tag h { s.clock with soft := false } rfl _ _)
  refine ⟨fun hsoft => ?_, fun hsoft hs => ?_, fun hsoft hs hg hz => ?_, fun hsoft hs hg hm hz => ?_,
    fun hsoft => ?_, fun hsoft hs => ?_, fun hsoft hs hp => ?_, fun hsoft hs hp => ?_⟩
  · exact clockWord_unchanged s id 1 [] tag h
      ((answer_runEnable t tag).trans (softRequest_duplicate (by rw [tclock, hsoft]))) rfl
  · refine clockWord_taken s id 1 [] tag h ((answer_runEnable t tag).trans ?_) rfl
    have hidle : s.clock.state ≠ .running := by rcases hs with hs | ⟨hs, -⟩ <;> simp [hs]
    rw [enables hsoft, reevaluate_of_idle (t := enabled) _ hidle, tryStart_of_idle]
    rintro ⟨hstopped, hw⟩
    rcases hs with hs | ⟨-, hg⟩
    · cases hs.symm.trans hstopped
    · exact hg (wanted.1 hw)
  · refine clockWord_taken s id 1 [] tag h ((answer_runEnable t tag).trans ?_) rfl
    have hidle : s.clock.state ≠ .running := by simp [hs]
    rw [enables hsoft, reevaluate_of_idle (t := enabled) _ hidle,
      tryStart_of_wanted (t := enabled) _ hs (wanted.2 hg) hz, withClock_comp, tcomp]
    rfl
  · refine clockWord_taken s id 1 [] tag h ((answer_runEnable t tag).trans ?_) rfl
    have hidle : s.clock.state ≠ .running := by simp [hs]
    rw [enables hsoft, reevaluate_of_idle (t := enabled) _ hidle,
      tryStart_of_zero (t := enabled) _ hs (wanted.2 hg) hm hz]
    rfl
  · exact clockWord_unchanged s id 2 [] tag h
      ((answer_runDisable u tag).trans (softRequest_duplicate (by rw [uclock, hsoft]))) rfl
  · refine clockWord_taken s id 2 [] tag h ((answer_runDisable u tag).trans ?_) rfl
    rw [disables hsoft, reevaluate_of_idle (t := disabled) _ hs, tryStart_of_idle]
    exact fun hstarts => unwanted hstarts.2
  · refine clockWord_stopped s id 2 [] tag h ((answer_runDisable u tag).trans ?_) rfl
    rw [stops hsoft hs, stoppedConfigured_of_none _ _ _ _ hp]
  · refine clockWord_stopped s id 2 [] tag h ((answer_runDisable u tag).trans ?_) rfl
    rw [stops hsoft hs, stoppedConfigured_of_pending _ _ _ _ hp]

/-! ### PERIOD_NEXT (R76) -/

/-- The clock unit at the start of a period (R76). -/
def nextPeriod (c : ClockUnit) : ClockUnit :=
  { c with
    period := min 9 (c.period + 1), value := periodStart c.config, state := .stopped,
    soft := false, added := false, shotValue := c.config.shotReset }

/-- The outcome of PERIOD_NEXT (R76). -/
def periodOutcome (period : Nat) : ReqOutcome := if 9 ≤ period then .clamped else .accepted

theorem periodOutcome_not_refused (period : Nat) : (periodOutcome period).refused = false := by
  unfold periodOutcome
  split <;> rfl

theorem periodNextRequest_of_idle {t : State} (h : t.clock.state ≠ .running) :
    periodNextRequest t =
      (withClock t (nextPeriod t.clock), verdict (periodOutcome t.clock.period)) := by
  rw [periodNextRequest, stopForGame, if_neg h]
  rfl

theorem stopForGame_of_running {t : State} (h : t.clock.state = .running) :
    stopForGame t = stopClock (withClock t { t.clock with soft := false }) .stopped .soft := if_pos h

theorem periodNextRequest_of_stop {t : State} {c : ClockUnit} {period value : Nat}
    (hstop : stopForGame t = withStop t c .soft period value) :
    periodNextRequest t =
      (withStop t (nextPeriod c) .soft period value, verdict (periodOutcome t.clock.period)) := by
  rw [periodNextRequest, hstop]
  rfl

/-- Settles O11: PERIOD_NEXT on a clock that stands and on one that its request stops. -/
theorem periodNextStartsTheNextPeriod : Obligations.PeriodNextStartsTheNextPeriod := by
  intro s id tag h t o next
  have hclock : t.clock = s.clock := asked_clock ..
  have ho : o.refused = false := periodOutcome_not_refused s.clock.period
  have stops : s.clock.state = .running → answerRequest t .clockWord { bytes := wordBytes 5 [] tag } =
      (withStop t (nextPeriod
        (stoppedConfigured s s.gateRun { s.clock with soft := false } .stopped .soft)) .soft
        s.clock.period s.clock.value, verdict o) := by
    intro hs
    have hstop : stopForGame t = _ := (stopForGame_of_running (hclock ▸ hs)).trans (hclock ▸
      stopClock_asked s id 5 [] tag h { s.clock with soft := false } rfl .stopped .soft)
    rw [answer_periodNext, periodNextRequest_of_stop hstop, hclock]
    rfl
  refine ⟨fun hs => ?_, fun hs hp => ?_, fun hs hp => ?_⟩
  · refine clockWord_taken s id 5 [] tag h ((answer_periodNext t tag).trans ?_) ho
    rw [periodNextRequest_of_idle (hclock ▸ hs), hclock]
    rfl
  · rw [stoppedConfigured_of_none _ _ _ _ hp] at stops
    exact clockWord_stopped s id 5 [] tag h (stops hs) ho
  · rw [stoppedConfigured_of_pending _ _ _ _ hp] at stops
    exact clockWord_stopped s id 5 [] tag h (stops hs) ho

/-! ### ADJUST (R75) -/

theorem signed32_toNat (v : BitVec 32) : signed32 v.toNat = v.toInt := by
  rw [signed32, BitVec.toInt_eq_toNat_cond]
  split <;> split <;> omega

/-- The outcome of an ADJUST that gives this sum (R75). -/
def adjustOutcome (sum : Int) : ReqOutcome := if sum < 0 ∨ 5999999 < sum then .clamped else .accepted

theorem adjustOutcome_not_refused (sum : Int) : (adjustOutcome sum).refused = false := by
  unfold adjustOutcome
  split <;> rfl

theorem adjustRequest_eq (t : State) (delta : Int) :
    adjustRequest t delta =
      (adjustState (withClock t
        { t.clock with value := (max 0 (min 5999999 ((t.clock.value : Int) + delta))).toNat }),
        verdict (adjustOutcome ((t.clock.value : Int) + delta))) := by
  have hclamps : (adjustClamps t.clock.value delta = true) =
      ((t.clock.value : Int) + delta < 0 ∨ 5999999 < (t.clock.value : Int) + delta) := by
    have hlimit : (clockLimit : Int) = 5999999 := rfl
    simp only [adjustClamps, hlimit, Bool.or_eq_true, decide_eq_true_eq]
  simp only [adjustRequest, hclamps, adjustOutcome]
  rfl

section
variable {t : State}

theorem adjustState_up (h : t.clock.config.mode = .up) : adjustState t =
    withClock t { t.clock with added := decide (t.clock.config.setPoint ≤ t.clock.value) } := by
  simp [adjustState, h, addedFor, setClock_eq_withClock]

variable (hm : t.clock.config.mode = .down)
include hm

theorem adjustState_down_above (hv : t.clock.value ≠ 0) (hs : t.clock.state ≠ .expired) :
    adjustState t = t := by
  simp [adjustState, hm, hv, hs]

theorem adjustState_down_zero (hv : t.clock.value = 0) (hs : t.clock.state ≠ .running) :
    adjustState t = withClock t { t.clock with state := .expired } := by
  simp [adjustState, hm, hv, hs, setClock_eq_withClock]

theorem adjustState_down_revived (hv : t.clock.value ≠ 0) (hs : t.clock.state = .expired) :
    adjustState t = tryStart (withClock t { t.clock with state := .stopped }) .soft := by
  simp [adjustState, hm, hv, hs, setClock_eq_withClock]

theorem adjustState_down_stop (hv : t.clock.value = 0) (hs : t.clock.state = .running) :
    adjustState t = stopClock t .expired .adjust := by
  simp [adjustState, hm, hv, hs]

end

/-- Settles O10: ADJUST by the mode, the value it gives and the state. -/
theorem adjustMovesTheGameClock : Obligations.AdjustMovesTheGameClock := by
  intro s id tag delta h t sum v o gate answered
  have hclock : t.clock = s.clock := asked_clock ..
  have hcomp : t.comp = s.comp := asked_comp ..
  have hgate : t.gateRun = s.gateRun := asked_gateRun ..
  have ho : o.refused = false := adjustOutcome_not_refused sum
  let moved : State := withClock t { s.clock with value := v }
  have answers : answerRequest t .clockWord { bytes := wordBytes 4 (leBytes 4 delta.toNat) tag } =
      (adjustState moved, verdict o) := by
    rw [answer_clockAdjust, signed32_toNat, adjustRequest_eq, hclock]
    rfl
  have taken : ∀ c, adjustState moved = withClock t c →
      exec (.clockAdjust id tag delta) s = .next (answered c) := fun c hc =>
    clockWord_taken s id 4 _ tag h (answers.trans (by rw [hc])) ho
  have wanted : runWanted (withClock t { s.clock with value := v, state := .stopped }) = true ↔
      s.clock.soft = true ∧ gate := by
    rw [runWanted_iff, withClock_gateRun, hgate]
    rfl
  have stops : s.clock.config.mode = .down → v = 0 → s.clock.state = .running →
      adjustState moved = withStop t
        (stoppedConfigured s s.gateRun { s.clock with value := 0 } .expired .adjust) .adjust
        s.clock.period 0 := by
    intro hm hv hs
    rw [adjustState_down_stop (t := moved) hm hv hs]
    simp only [moved, hv]
    exact stopClock_asked s id 4 _ tag h { s.clock with value := 0 } rfl _ _
  refine ⟨fun hm => ?_, fun hm hv hs => ?_, fun hm hv hs => ?_, fun hm hv hs hrun => ?_,
    fun hm hv hs hsoft hg => ?_, fun hm hv hs hp => ?_, fun hm hv hs hp => ?_⟩
  · exact taken _ (adjustState_up (t := moved) hm)
  · exact taken _ (adjustState_down_above (t := moved) hm hv hs)
  · refine taken _ ((adjustState_down_zero (t := moved) hm hv hs).trans ?_)
    simp only [moved, hv]
    rfl
  · exact taken _ ((adjustState_down_revived (t := moved) hm hv hs).trans
      (tryStart_of_idle _ fun hstarts => hrun (wanted.1 hstarts.2)))
  · refine taken _ ((adjustState_down_revived (t := moved) hm hv hs).trans
      ((tryStart_of_wanted _ rfl (wanted.2 ⟨hsoft, hg⟩) fun hz => hv hz.2).trans ?_))
    exact congrArg (fun x : CompUnit => withClock t (started _ x.frame .soft)) hcomp
  · rw [stoppedConfigured_of_none _ _ _ _ hp] at stops
    exact clockWord_stopped s id 4 _ tag h (answers.trans (by rw [stops hm hv hs])) ho
  · rw [stoppedConfigured_of_pending _ _ _ _ hp] at stops
    exact clockWord_stopped s id 4 _ tag h (answers.trans (by rw [stops hm hv hs])) ho

end Sys2Proof.ClockProofs
end

section
/-! An edge of GATE_RUN, and a capture into the clock configuration (R64, R65, R78). -/

namespace Sys2Proof.ClockProofs
open Sys2Proof.Machine Sys2Proof.FrameProofs Sys2Proof.SponsorProofs

/-! ### The end of a command that changes the clock unit -/

/-- A command that changes the clock unit alone ends as it stands. -/
theorem done_withClock {t : State} (h : Quiet t) (c : ClockUnit) :
    done (withClock t c) = .next (withClock t c) :=
  congrArg Host.Outcome.next (settle_of_quiet _ (h.of_report (withClock_report t c)))

/-- A command that stops the clock and raises nothing else. -/
theorem done_withStop {t : State} (h : Quiet t) (c : ClockUnit) (cause : ClockCause)
    (period value : Nat) : done (withStop t c cause period value) =
      .next (stopReported (withClock t c) cause period value) := by
  refine congrArg _ (settle_raise_of_none _ ?_ _ _)
  exact h.1

/-! ### GATE_RUN (R65) -/

/-- The state after an edge of the line, before the run condition is evaluated. -/
def gateTurned (s : State) : State := { s with gateRun := !s.gateRun }

/-- The clock unit with the stamp of this edge (R65). -/
def gateStamped (s : State) : ClockUnit :=
  { s.clock with
    gateRec :=
      { house := s.clock.house, frame := s.comp.frame, value := s.clock.value, rising := !s.gateRun } }

theorem gateEdge_eq (s : State) :
    gateEdge s = reevaluate (withClock (gateTurned s) (gateStamped s)) .gate := rfl

/-- An edge that stops the clock: the line is low after it. -/
theorem gateEdge_of_stop {s : State} (hg : s.gateRun = true) (hs : s.clock.state = .running)
    (ho : s.clock.config.gateOverride = false) :
    gateEdge s = withStop (gateTurned s) (stoppedConfigured s false (gateStamped s) .stopped .gate) .gate
      s.clock.period s.clock.value := by
  have hlow : (gateTurned s).gateRun = false := by simp [gateTurned, hg]
  have hunwanted : ¬runWanted (withClock (gateTurned s) (gateStamped s)) = true := by
    rw [runWanted_iff, withClock_gateRun, hlow]
    have ho : (gateStamped s).config.gateOverride = false := ho
    simp [ho]
  rw [gateEdge_eq, reevaluate_of_unwanted (t := withClock (gateTurned s) (gateStamped s)) _ hs hunwanted,
    stopClock_eq_withStop, withClock_gateRun, hlow]
  rfl

/-- Settles O21: the level after the edge and the state decide what the run condition brings about. -/
theorem gateEdgeStartsAndStopsTheClock : Obligations.GateEdgeStartsAndStopsTheClock := by
  intro s quiet c edge
  have hquiet : Quiet (gateTurned s) := quiet
  let stamped : State := withClock (gateTurned s) (gateStamped s)
  have wanted : runWanted stamped = true ↔
      s.clock.soft = true ∧ (s.gateRun = false ∨ s.clock.config.gateOverride = true) := by
    rw [runWanted_iff]
    change s.clock.soft = true ∧ ((!s.gateRun) = true ∨ s.clock.config.gateOverride = true) ↔ _
    rw [Bool.not_eq_true']
  have ends : ∀ d, gateEdge s = withClock (gateTurned s) d → exec .gateRunEdge s = .next (edge d) :=
    fun d hd => (congrArg done hd).trans (done_withClock hquiet d)
  refine ⟨fun hg hs hsoft hz => ?_, fun hg hs hsoft hm hz => ?_, fun hg hs ho hp => ?_,
    fun hg hs ho hp => ?_, fun hnothing => ?_⟩
  · have hidle : s.clock.state ≠ .running := by simp [hs]
    refine ends _ ?_
    rw [gateEdge_eq, reevaluate_of_idle (t := stamped) _ hidle,
      tryStart_of_wanted (t := stamped) _ hs (wanted.2 ⟨hsoft, .inl hg⟩) hz]
    rfl
  · have hidle : s.clock.state ≠ .running := by simp [hs]
    refine ends _ ?_
    rw [gateEdge_eq, reevaluate_of_idle (t := stamped) _ hidle,
      tryStart_of_zero (t := stamped) _ hs (wanted.2 ⟨hsoft, .inl hg⟩) hm hz]
    rfl
  · refine (congrArg done (gateEdge_of_stop hg hs ho)).trans ?_
    rw [done_withStop hquiet, stoppedConfigured_of_none _ _ _ _ hp]
    rfl
  · refine (congrArg done (gateEdge_of_stop hg hs ho)).trans ?_
    rw [done_withStop hquiet, stoppedConfigured_of_pending _ _ _ _ hp]
    rfl
  · refine ends _ ?_
    rw [gateEdge_eq]
    by_cases hs : s.clock.state = .running
    · have hw : runWanted stamped = true := by
        rcases hnothing with h | ⟨-, h⟩ | ⟨ho, hsoft, -⟩ | ⟨-, h, -⟩
        · cases hs.symm.trans h
        · cases hs.symm.trans h
        · exact wanted.2 ⟨hsoft, .inr ho⟩
        · cases hs.symm.trans h
      exact reevaluate_of_wanted (t := stamped) _ hs hw
    · refine (reevaluate_of_idle (t := stamped) _ hs).trans (tryStart_of_idle _ ?_)
      rintro ⟨hstopped, hw⟩
      obtain ⟨hsoft, hrun⟩ := wanted.1 hw
      rcases hnothing with h | ⟨h, -⟩ | ⟨-, -, h⟩ | ⟨hg, -, ho⟩
      · cases hstopped.symm.trans h
      · cases hsoft.symm.trans h
      · exact hs h
      · rcases hrun with hrun | hrun
        · cases hg.symm.trans hrun
        · cases ho.symm.trans hrun

/-! ### A capture into the clock configuration (R78) -/

section
variable {bytes : List (Nat × Byte)} (h : ∀ b ∈ bytes, 0x240 ≤ b.1 ∧ b.1 < 0x260)
include h

/-- A capture into the clock configuration reaches nothing below or beyond it. -/
theorem reaches_beside_clockConfig {off n : Nat} (hoff : off + n ≤ 0x240 ∨ 0x260 ≤ off) :
    reaches bytes off n = false := by
  refine (reaches_eq_false_iff bytes off n).2 fun b hb => ?_
  have := h b hb
  omega

theorem reaches_clockConfig (hne : bytes ≠ []) : reaches bytes 0x240 32 = true := by
  obtain ⟨b, hb⟩ := List.exists_mem_of_ne_nil bytes hne
  refine List.any_eq_true.2 ⟨b, hb, ?_⟩
  simp only [inRange, Bool.and_eq_true, decide_eq_true_eq]
  exact h b hb

/-- The clock unit alone acts on a capture into the clock configuration. -/
theorem capture_of_clockConfig (hne : bytes ≠ []) {s : State} {w : WriteReq}
    (hb : captureBytes s w = bytes) : capture s w = clockConfigCaptured (mergeCapture s bytes) := by
  have geometry : reachesGeometry bytes = false := by
    refine List.any_eq_false.2 fun f hf => ?_
    have hoff : f.off + f.width ≤ 0x240 := by
      revert f
      decide
    rw [reaches_beside_clockConfig h (.inl hoff)]
    exact Bool.false_ne_true
  have entries : reachedEntries bytes = [] := by
    refine List.filter_eq_nil_iff.2 fun i _ => ?_
    rw [reaches_beside_clockConfig h (.inr (by unfold sponsorOffset; omega))]
    exact Bool.false_ne_true
  have words : completedWords bytes = [] := by
    refine List.filter_eq_nil_iff.2 fun w _ => ?_
    have := wordOffset_bounds w
    rw [reaches_beside_clockConfig h (.inr (by omega))]
    exact Bool.false_ne_true
  have beyond := fun off n hoff => @reaches_beside_clockConfig bytes h off n (.inr hoff)
  simp only [capture, hb, words, takeRequests, wordReactions, recordReactions, configReactions, entries,
    geometry, reacting, List.foldl_nil, reaches_clockConfig h hne,
    beyond 0x2000 32 (by decide), beyond 0x2020 32 (by decide), beyond 0x1070 2 (by decide),
    beyond 0x1060 2 (by decide), Bool.false_eq_true, if_false, if_true]

end

theorem clockConfigCaptured_of_running {t : State} (h : t.clock.state = .running) :
    clockConfigCaptured t = withClock t { t.clock with configPending := true } := if_pos h

theorem clockConfigCaptured_of_idle {t : State} (h : t.clock.state ≠ .running) :
    clockConfigCaptured t =
      withClock t (configured t.gateRun t.comp.frame (readClockConfig t.path.shadow) t.clock) :=
  (if_neg h).trans (takeConfig_eq t)

/-- The clock unit with a configuration taken, before the run condition is evaluated (R78). -/
def adopted (new : ClockConfig) (c : ClockUnit) : ClockUnit :=
  { c with
    config := new, configPending := false,
    added := if new.mode ≠ c.config.mode ∨ new.setPoint ≠ c.config.setPoint
      then decide (new.mode = .up ∧ new.setPoint ≤ c.value) else c.added,
    state := if new.mode ≠ c.config.mode ∧ new.mode = .up ∧ c.state = .expired then .stopped
      else c.state }

/-- A configuration that asks for an evaluation of the run condition (R78). -/
def Evaluates (new : ClockConfig) (c : ClockUnit) : Prop :=
  new.gateOverride ≠ c.config.gateOverride ∨
    (new.mode ≠ c.config.mode ∧ new.mode = .up ∧ c.state = .expired)

section
variable {gate : Bool} {frame : FrameNo} {new : ClockConfig} {c : ClockUnit}

theorem configured_of_idle
    (h : ¬(Evaluates new c ∧ (c.soft = true ∧ (gate = true ∨ new.gateOverride = true)) ∧
      (adopted new c).state = .stopped)) :
    configured gate frame new c = adopted new c := by
  refine if_neg fun hstarts => h ?_
  obtain ⟨hevaluates, hstopped, hsoft, hgate⟩ := hstarts
  exact ⟨hevaluates, ⟨hsoft, hgate⟩, hstopped⟩

variable (he : Evaluates new c) (hw : c.soft = true ∧ (gate = true ∨ new.gateOverride = true))
  (hs : (adopted new c).state = .stopped)
include he hw hs

theorem configured_of_wanted (hz : ¬(new.mode = .down ∧ c.value = 0)) :
    configured gate frame new c = started (adopted new c) frame .soft :=
  (if_pos ⟨he, hs, hw⟩).trans (if_neg hz)

theorem configured_of_zero (hz : new.mode = .down ∧ c.value = 0) :
    configured gate frame new c = { adopted new c with state := .expired } :=
  (if_pos ⟨he, hs, hw⟩).trans (if_pos hz)

end

/-- Settles O43: the clock unit alone acts; a clock that does not run takes the configuration. -/
theorem clockConfigurationIsTakenWhenStopped : Obligations.ClockConfigurationIsTakenWhenStopped := by
  intro s w quiet hlegal hclass bytes hbytes merged new old leaves c evaluated wanted answered
  have hquiet : Quiet merged := quiet
  have result : exec (.clockConfigCapture w) s = done (clockConfigCaptured merged) := by
    change arriving w s = _
    rw [arriving, if_pos hlegal, arriveWrite, hclass]
    exact congrArg done (capture_of_clockConfig hbytes (captureBytes_ne_nil hclass)
      (s := forwardWrite s w) rfl)
  have taken : s.clock.state ≠ .running → ∀ d,
      configured s.gateRun s.comp.frame new s.clock = d → answered d := by
    intro hs d hd
    refine result.trans ?_
    rw [clockConfigCaptured_of_idle (t := merged) hs, done_withClock hquiet, ← hd]
    rfl
  refine ⟨fun hs => ?_, fun hs hidle => ?_, fun hs he hw hstopped hz => ?_,
    fun hs he hw hstopped hm hz => ?_⟩
  · refine result.trans ?_
    rw [clockConfigCaptured_of_running (t := merged) hs, done_withClock hquiet]
    rfl
  · exact taken hs _ (configured_of_idle hidle)
  · exact taken hs _ (configured_of_wanted he hw hstopped hz)
  · exact taken hs _ (configured_of_zero he hw hstopped ⟨hm, hz⟩)

end Sys2Proof.ClockProofs
end

section
/-! Ticks of a RUNNING game clock: those that bring about nothing but the two values, and the one that ends
something (R62, R67, R68, R70). -/

namespace Sys2Proof.ClockProofs
open Sys2Proof.Machine Sys2Proof.FrameProofs Sys2Proof.SponsorProofs

/-! ### The shot clock at a tick (R69, R70) -/

section
variable {c : ClockUnit}

theorem shotCounts_iff (hr : c.state = .running) :
    shotCounts c = true ↔ c.shotOn = true ∧ c.shotValue ≠ 0 := by
  unfold shotCounts shotState
  rw [if_pos hr]
  cases c.shotOn <;> by_cases hz : c.shotValue = 0 <;> simp [hz]

theorem tickShot_eq (hr : c.state = .running) : tickShot c = shotTicked c := by
  unfold tickShot shotTicked
  by_cases hon : c.shotOn = true
  · by_cases hz : c.shotValue = 0
    · have hcounts : ¬shotCounts c = true := fun h => ((shotCounts_iff hr).1 h).2 hz
      rw [if_neg hcounts, if_pos hon]
      omega
    · rw [if_pos ((shotCounts_iff hr).2 ⟨hon, hz⟩), if_pos hon]
  · have hcounts : ¬shotCounts c = true := fun h => hon ((shotCounts_iff hr).1 h).1
    rw [if_neg hcounts, if_neg hon]

theorem tickShotExpires_iff (hr : c.state = .running) :
    tickShotExpires c = true ↔ c.shotOn = true ∧ c.shotValue = 1 := by
  rw [tickShotExpires, Bool.and_eq_true, shotCounts_iff hr, decide_eq_true_eq, tickShot_eq hr]
  unfold shotTicked
  constructor
  · rintro ⟨⟨hon, hpos⟩, hzero⟩
    rw [if_pos hon] at hzero
    exact ⟨hon, by omega⟩
  · rintro ⟨hon, hone⟩
    rw [if_pos hon]
    exact ⟨⟨hon, by omega⟩, by omega⟩

theorem tickShotExpires_eq_false (hr : c.state = .running) (h : ShotRunsOn c) :
    tickShotExpires c = false := by
  rw [← Bool.not_eq_true, tickShotExpires_iff hr]
  rintro ⟨hon, hone⟩
  rcases h with h | h
  · cases hon.symm.trans h
  · exact h hone

end

/-! ### Ticks that bring about nothing but the two values -/

/-- The game value `k` ticks on, where none of them ends anything. -/
def valueAfter (k : Nat) (c : ClockUnit) : Nat :=
  match c.config.mode with
  | .down => c.value - k
  | .up => c.value + k

/-- The shot value `k` ticks on, where none of them expires it. -/
def shotAfter (k : Nat) (c : ClockUnit) : Nat := if c.shotOn then c.shotValue - k else c.shotValue

/-- The clock unit `k` such ticks on. -/
def after (k : Nat) (c : ClockUnit) : ClockUnit :=
  { c with value := valueAfter k c, shotValue := shotAfter k c }

/-- The shot clock does not expire within `k` ticks. -/
def ShotLasts (k : Nat) (c : ClockUnit) : Prop := c.shotOn = false ∨ c.shotValue = 0 ∨ k < c.shotValue

/-- The game clock reaches neither 0, nor its set-point, nor the limit within `k` ticks (R67, R68). -/
def GameLasts (k : Nat) (c : ClockUnit) : Prop :=
  (c.config.mode = .down → k < c.value) ∧
  (c.config.mode = .up → c.value + k < clockLimit ∧
    (c.config.setPoint ≤ c.value ∨ c.value + k < c.config.setPoint))

section
variable {c : ClockUnit} {j k : Nat}

theorem valueAfter_down (hm : c.config.mode = .down) : valueAfter k c = c.value - k := by
  rw [valueAfter, hm]

theorem valueAfter_up (hm : c.config.mode = .up) : valueAfter k c = c.value + k := by
  rw [valueAfter, hm]

theorem after_zero (c : ClockUnit) : after 0 c = c := by
  have hv : valueAfter 0 c = c.value := by
    unfold valueAfter
    split <;> rfl
  have hs : shotAfter 0 c = c.shotValue := ite_self _
  rw [after, hv, hs]

theorem after_after (j k : Nat) (c : ClockUnit) : after k (after j c) = after (j + k) c := by
  have hv : valueAfter k (after j c) = valueAfter (j + k) c := by
    cases hm : c.config.mode with
    | down =>
      rw [valueAfter_down (c := after j c) hm, valueAfter_down hm]
      exact (congrArg (· - k) (valueAfter_down hm)).trans (Nat.sub_sub _ _ _)
    | up =>
      rw [valueAfter_up (c := after j c) hm, valueAfter_up hm]
      exact (congrArg (· + k) (valueAfter_up hm)).trans (Nat.add_assoc _ _ _)
  have hs : shotAfter k (after j c) = shotAfter (j + k) c := by
    unfold shotAfter
    by_cases hon : c.shotOn = true
    · rw [if_pos hon, if_pos (c := (after j c).shotOn = true) hon]
      exact (congrArg (· - k) (if_pos hon)).trans (Nat.sub_sub _ _ _)
    · rw [if_neg hon, if_neg (c := (after j c).shotOn = true) hon]
      exact if_neg hon
  simp only [after] at hv hs ⊢
  rw [hv, hs]

theorem ShotLasts.mono (h : ShotLasts k c) (hjk : j ≤ k) : ShotLasts j c :=
  h.imp_right (Or.imp_right (lt_of_le_of_lt hjk))

theorem GameLasts.mono (h : GameLasts k c) (hjk : j ≤ k) : GameLasts j c := by
  obtain ⟨hdown, hup⟩ := h
  refine ⟨fun hm => lt_of_le_of_lt hjk (hdown hm), fun hm => ?_⟩
  have := hup hm
  omega

theorem ShotLasts.after (h : ShotLasts (j + k) c) : ShotLasts k (after j c) := by
  by_cases hon : c.shotOn = true
  · have hshot : (ClockProofs.after j c).shotValue = c.shotValue - j := if_pos hon
    unfold ShotLasts
    rw [hshot]
    rcases h with h | h | h <;> [exact .inl h; right; right] <;> omega
  · exact .inl (Bool.eq_false_iff.2 hon)

theorem GameLasts.after (h : GameLasts (j + k) c) : GameLasts k (after j c) := by
  obtain ⟨hdown, hup⟩ := h
  refine ⟨fun hm => ?_, fun hm => ?_⟩
  · have hv : (ClockProofs.after j c).value = c.value - j := valueAfter_down hm
    have := hdown hm
    omega
  · have hv : (ClockProofs.after j c).value = c.value + j := valueAfter_up hm
    have := hup hm
    rw [hv]
    exact ⟨by omega, by
      change c.config.setPoint ≤ c.value + j ∨ c.value + j + k < c.config.setPoint
      omega⟩

end

/-! ### One tick (R67, R68, R70) -/

section
variable {s : State} (hr : s.clock.state = .running)
include hr

theorem tickValues_eq (hv : tickValue s.clock = valueAfter 1 s.clock) :
    tickValues s = withClock s (after 1 s.clock) := by
  rw [tickValues, setClock_eq_withClock, hv, tickShot_eq hr]
  rfl

omit hr in
theorem tickValue_eq (h : s.clock.config.mode = .up → s.clock.value < clockLimit) :
    tickValue s.clock = valueAfter 1 s.clock := by
  unfold tickValue valueAfter
  cases hm : s.clock.config.mode with
  | down => rfl
  | up => exact if_neg (Nat.not_le.2 (h hm))

omit hr in
theorem tickEnds_down {c : ClockUnit} (hm : c.config.mode = .down) :
    tickEnds c = true ↔ c.value ≤ 1 := by
  simp only [tickEnds, tickValue, hm, decide_eq_true_eq]
  omega

omit hr in
theorem tickEnds_up {c : ClockUnit} (hm : c.config.mode = .up) :
    tickEnds c = true ↔ clockLimit ≤ c.value + 1 := by
  simp only [tickEnds, tickValue, hm, decide_eq_true_eq]
  split <;> omega

omit hr in
theorem tickReachesSetPoint_iff {c : ClockUnit} : tickReachesSetPoint c = true ↔
    c.config.mode = .up ∧ c.value < clockLimit ∧ c.value + 1 = c.config.setPoint := by
  rw [tickReachesSetPoint, Bool.and_eq_true, Bool.and_eq_true, beq_iff_eq, decide_eq_true_eq,
    decide_eq_true_eq, and_assoc]
  refine and_congr_right fun hm => and_congr_right fun hl => ?_
  rw [tickValue, hm]
  exact (if_neg (Nat.not_le.2 hl)).congr_left

/-- A tick of a DOWN clock that expires no shot clock. -/
theorem tick_down (h : ShotRunsOn s.clock) (hm : s.clock.config.mode = .down) : tick s =
    if tickEnds s.clock then expireClock (tickValues s) else tickValues s := by
  unfold tick
  simp only [tickShotExpires_eq_false hr h, hm, Bool.false_eq_true, if_false]

/-- A tick of an UP clock that expires no shot clock. -/
theorem tick_up (h : ShotRunsOn s.clock) (hm : s.clock.config.mode = .up) {t : State}
    (ht : t = if tickReachesSetPoint s.clock then reachSetPoint (tickValues s) else tickValues s) :
    tick s = if tickEnds s.clock then reachLimit t else t := by
  unfold tick
  simp only [tickShotExpires_eq_false hr h, hm, Bool.false_eq_true, if_false, ht]

/-- The tick that expires the shot clock of a clock that runs on. -/
theorem tick_of_shotExpires (hon : s.clock.shotOn = true) (hone : s.clock.shotValue = 1)
    (hends : tickEnds s.clock = false) (hpoint : tickReachesSetPoint s.clock = false) :
    tick s = shotExpire (tickValues s) := by
  unfold tick
  simp only [(tickShotExpires_iff hr).2 ⟨hon, hone⟩, hends, hpoint, Bool.false_eq_true, if_false, if_true]
  split <;> rfl

omit hr in
/-- A tick within which the game clock lasts ends nothing of it. -/
theorem tick_of_gameLasts (h : GameLasts 1 s.clock) :
    tickEnds s.clock = false ∧ tickReachesSetPoint s.clock = false ∧
      tickValue s.clock = valueAfter 1 s.clock := by
  obtain ⟨hdown, hup⟩ := h
  have hv : tickValue s.clock = valueAfter 1 s.clock := tickValue_eq fun hm => by
    have := hup hm
    omega
  refine ⟨Bool.eq_false_iff.2 fun hends => ?_, Bool.eq_false_iff.2 fun hpoint => ?_, hv⟩
  · cases hm : s.clock.config.mode with
    | down =>
      have := (tickEnds_down hm).1 hends
      have := hdown hm
      omega
    | up =>
      have := (tickEnds_up hm).1 hends
      have := hup hm
      omega
  · obtain ⟨hm, -, hreached⟩ := tickReachesSetPoint_iff.1 hpoint
    have := hup hm
    omega

/-- A tick that ends nothing moves the two values. -/
theorem tick_of_lasts (hg : GameLasts 1 s.clock) (hs : ShotLasts 1 s.clock) :
    tick s = withClock s (after 1 s.clock) := by
  obtain ⟨hends, hpoint, hv⟩ := tick_of_gameLasts hg
  have hshot : ShotRunsOn s.clock := hs.imp_right fun h => by omega
  have hvalues := tickValues_eq hr hv
  cases hm : s.clock.config.mode with
  | down => rw [tick_down hr hshot hm, hends, hvalues]; rfl
  | up => rw [tick_up hr hshot hm rfl, hends, hpoint, hvalues]; rfl

/-- The tick that brings a DOWN clock to 0 (R67). -/
theorem tick_of_zero (hshot : ShotRunsOn s.clock) (hm : s.clock.config.mode = .down)
    (hz : s.clock.value ≤ 1) : tick s = expireClock (withClock s (after 1 s.clock)) := by
  have hv : tickValue s.clock = valueAfter 1 s.clock := tickValue_eq fun h => by
    cases hm.symm.trans h
  rw [tick_down hr hshot hm, (tickEnds_down hm).2 hz, tickValues_eq hr hv]
  rfl

/-- The tick that raises an UP clock to its set-point below the limit (R68). -/
theorem tick_of_setPoint (hshot : ShotRunsOn s.clock) (hm : s.clock.config.mode = .up)
    (hp : s.clock.value + 1 = s.clock.config.setPoint) (hl : s.clock.value + 1 < clockLimit) :
    tick s = reachSetPoint (withClock s (after 1 s.clock)) := by
  have hv : tickValue s.clock = valueAfter 1 s.clock := tickValue_eq fun _ => by omega
  have hends : tickEnds s.clock = false :=
    Bool.eq_false_iff.2 fun h => Nat.not_le.2 hl ((tickEnds_up hm).1 h)
  have hpoint : tickReachesSetPoint s.clock = true := tickReachesSetPoint_iff.2 ⟨hm, by omega, hp⟩
  rw [tick_up hr hshot hm rfl, hends, hpoint, tickValues_eq hr hv]
  rfl

/-- The tick at the limit, which reaches no set-point (R68). -/
theorem tick_of_limit (hshot : ShotRunsOn s.clock) (hm : s.clock.config.mode = .up)
    (hlow : clockLimit ≤ s.clock.value + 1) (hhigh : s.clock.value ≤ clockLimit)
    (hp : s.clock.value = clockLimit ∨ s.clock.config.setPoint ≠ clockLimit) :
    tick s = reachLimit (withClock s
      { s.clock with value := clockLimit, shotValue := shotTicked s.clock }) := by
  have hv : tickValue s.clock = clockLimit := by
    rw [tickValue, hm]
    dsimp only
    split <;> omega
  have hends : tickEnds s.clock = true := (tickEnds_up hm).2 hlow
  have hpoint : tickReachesSetPoint s.clock = false := Bool.eq_false_iff.2 fun h => by
    obtain ⟨-, hbelow, hreached⟩ := tickReachesSetPoint_iff.1 h
    omega
  rw [tick_up hr hshot hm rfl, hends, hpoint, tickValues, setClock_eq_withClock, hv, tickShot_eq hr]
  rfl

end

/-! ### Several ticks (R62) -/

/-- Ticks that end nothing, credited before others. -/
theorem creditTicks_of_lasts {s : State} (hr : s.clock.state = .running) {k : Nat}
    (hg : GameLasts k s.clock) (hs : ShotLasts k s.clock) (n : Nat) :
    creditTicks (n + k) s = creditTicks n (withClock s (after k s.clock)) := by
  induction k generalizing s with
  | zero => rw [after_zero, withClock_self, Nat.add_zero]
  | succ k ih =>
    have hg1 : GameLasts 1 s.clock := hg.mono (by omega)
    have hs1 : ShotLasts 1 s.clock := hs.mono (by omega)
    obtain ⟨hends, -, -⟩ := tick_of_gameLasts hg1
    rw [← Nat.add_assoc, creditTicks, if_neg (by rw [hends]; exact Bool.false_ne_true),
      tick_of_lasts hr hg1 hs1, ih (s := withClock s (after 1 s.clock)) hr
        (GameLasts.after (by rwa [Nat.add_comm])) (ShotLasts.after (by rwa [Nat.add_comm])),
      withClock_withClock, withClock_clock, after_after, Nat.add_comm 1 k]

/-- The first tick credited, if it does not end RUNNING. -/
theorem creditTicks_succ {s : State} (n : Nat) (h : tickEnds s.clock = false) :
    creditTicks (n + 1) s = creditTicks n (tick s) := by
  rw [creditTicks, if_neg (by rw [h]; exact Bool.false_ne_true)]

/-- The tick that ends RUNNING is the last one credited (R62). -/
theorem creditTicks_of_ends {s : State} (n : Nat) (h : tickEnds s.clock = true) :
    creditTicks (n + 1) s = tick s := by
  rw [creditTicks, if_pos h]

end Sys2Proof.ClockProofs
end

section
/-! An advance of house time and an edge of TB_IN: what each comes to for the clock unit (R60, R61, R63, R72). -/

namespace Sys2Proof.ClockProofs
open Sys2Proof.Machine Sys2Proof.FrameProofs Sys2Proof.SponsorProofs

/-! ### The clock unit leaves house time and the messages -/

/-- What the expiry of messages rests on. -/
def timeView (s : State) : HouseTime × MessageUnit := (s.clock.house, s.msg)

section
variable (s : State)

theorem timeView_tryStart (cause : ClockCause) : timeView (tryStart s cause) = timeView s := by
  unfold tryStart
  split
  · split <;> rfl
  · rfl

theorem timeView_takeConfig : timeView (takeConfig s) = timeView s := by
  unfold takeConfig
  dsimp only
  split
  · exact timeView_tryStart _ _
  · rfl

theorem timeView_stopClock (target : GameState) (cause : ClockCause) :
    timeView (stopClock s target cause) = timeView s := by
  unfold stopClock
  dsimp only
  split
  · exact timeView_takeConfig _
  · rfl

/-- A SPOT changes the placements alone (R51). -/
theorem spotRequest_frame (o : SpotOffsets) (i p dwell c : Nat) :
    (spotRequest s o i p dwell c).1 = { s with rot := (spotRequest s o i p dwell c).1.rot } := by
  unfold spotRequest
  repeat' split
  all_goals rfl

/-- The record of an outcome changes the report unit alone (R183). -/
theorem recordOutcome_frame (w : ReqWord) (tag : Byte) (code : Nat) (v : Verdict) :
    recordOutcome s w tag code v = { s with report := (recordOutcome s w tag code v).report } := by
  unfold recordOutcome
  dsimp only
  split <;> rfl

theorem timeView_periodEndSpot : timeView (periodEndSpot s) = timeView s := by
  unfold periodEndSpot
  split
  · dsimp only
    rw [recordOutcome_frame, spotRequest_frame]
    rfl
  · rfl

theorem timeView_tick : timeView (tick s) = timeView s := by
  have hshot : ∀ t, timeView (shotExpire t) = timeView t := fun t => rfl
  have hdown : ∀ t, timeView (expireClock t) = timeView t := fun t =>
    (timeView_periodEndSpot _).trans (timeView_stopClock _ _ _)
  have hpoint : ∀ t, timeView (reachSetPoint t) = timeView t := fun t => by
    unfold reachSetPoint
    dsimp only
    split <;> rfl
  have hlimit : ∀ t, timeView (reachLimit t) = timeView t := fun t => timeView_stopClock _ _ _
  have hvalues : timeView (tickValues s) = timeView s := rfl
  unfold tick
  dsimp only
  split
  · simp only [apply_ite timeView, hshot, hdown, hvalues, ite_self]
  · simp only [apply_ite timeView, hshot, hpoint, hlimit, hvalues, ite_self]

theorem timeView_creditTicks (n : Nat) : timeView (creditTicks n s) = timeView s := by
  induction n generalizing s with
  | zero => rfl
  | succ n ih =>
    unfold creditTicks
    split
    · exact timeView_tick s
    · exact (ih _).trans (timeView_tick s)

theorem timeView_advanceClock : timeView (advanceClock s) = (s.clock.house + 1, s.msg) := by
  unfold advanceClock
  dsimp only
  split
  · exact timeView_creditTicks _ 3
  · split
    · exact timeView_tick _
    · rfl

end

/-! ### An advance of house time (R60) -/

section
variable {s : State}

/-- The clock unit once the horns have been silenced that house time has reached (R72). -/
def silenced (c : ClockUnit) : ClockUnit :=
  { c with hornGame := silence c.house c.hornGame, hornShot := silence c.house c.hornShot }

theorem advanceClock_of_loss (h : lossDue s = true) :
    advanceClock s = loseTimebase (withClock s (silenced (nextHouse s))) := if_pos h

theorem advanceClock_of_tick (h : lossDue s = false) (hr : s.clock.state = .running)
    (hi : s.clock.source = .internal) :
    advanceClock s = tick (withClock s (silenced (nextHouse s))) :=
  (if_neg (ne_true_of_eq_false h)).trans (if_pos ⟨hr, hi⟩)

theorem advanceClock_of_rest (h : lossDue s = false)
    (hrest : ¬(s.clock.state = .running ∧ s.clock.source = .internal)) :
    advanceClock s = withClock s (silenced (nextHouse s)) :=
  (if_neg (ne_true_of_eq_false h)).trans (if_neg hrest)

/-- No loss of the timebase on INTERNAL (R62). -/
theorem lossDue_of_internal (hi : s.clock.source = .internal) : lossDue s = false := by
  have hsource : (nextHouse s).source = .internal := hi
  rw [lossDue, watchExpired, hsource, Bool.and_eq_false_iff]
  exact .inl (Bool.and_false _)

theorem silence_eq_filter (now : HouseTime) (h : Option HouseTime) :
    silence now h = h.filter fun e => !reached now e := by
  cases h with
  | none => rfl
  | some e => cases hr : reached now e <;> simp [silence, hr, Option.filter]

theorem silence_of_not_reached {now : HouseTime} {h : Option HouseTime}
    (hn : h.any (reached now) = false) : silence now h = h := by
  cases h with
  | none => rfl
  | some e => exact if_neg (ne_true_of_eq_false hn)

theorem silenced_of_none (h : hornDue s = false) : silenced (nextHouse s) = nextHouse s := by
  obtain ⟨hgame, hshot⟩ := Bool.or_eq_false_iff.1 h
  rw [silenced, silence_of_not_reached hgame, silence_of_not_reached hshot]

theorem expireMessages_of_none {t : State} (h : ∀ m ∈ t.msg.queue, reached t.clock.house m.deadline = false) :
    expireMessages t = t := by
  have hdue : (t.msg.queue.filter fun m => reached t.clock.house m.deadline) = [] :=
    List.filter_eq_nil_iff.2 fun m hm => ne_true_of_eq_false (h m hm)
  rw [expireMessages, hdue]
  rfl

/-- Where no message's deadline is reached, an advance is the clock unit's. -/
theorem houseAdvance_of_no_expiry (h : expiryDue s = false) : houseAdvance s = advanceClock s := by
  obtain ⟨hhouse, hmsg⟩ := Prod.ext_iff.1 (timeView_advanceClock s)
  have hhouse : (advanceClock s).clock.house = s.clock.house + 1 := hhouse
  have hmsg : (advanceClock s).msg = s.msg := hmsg
  refine expireMessages_of_none fun m hm => ?_
  rw [hhouse]
  exact Bool.eq_false_iff.2 (List.any_eq_false.1 h m (hmsg ▸ hm))

/-! ### The arrival that carries a tick (R61) -/

@[simp] theorem tickCarried_state (c : ClockUnit) : (tickCarried c).state = c.state := by
  unfold tickCarried
  split <;> rfl

@[simp] theorem tickCarried_value (c : ClockUnit) : (tickCarried c).value = c.value := by
  unfold tickCarried
  split <;> rfl

@[simp] theorem tickCarried_config (c : ClockUnit) : (tickCarried c).config = c.config := by
  unfold tickCarried
  split <;> rfl

@[simp] theorem tickCarried_configPending (c : ClockUnit) :
    (tickCarried c).configPending = c.configPending := by
  unfold tickCarried
  split <;> rfl

@[simp] theorem tickCarried_shotOn (c : ClockUnit) : (tickCarried c).shotOn = c.shotOn := by
  unfold tickCarried
  split <;> rfl

@[simp] theorem tickCarried_shotValue (c : ClockUnit) : (tickCarried c).shotValue = c.shotValue := by
  unfold tickCarried
  split <;> rfl

theorem tickCarried_of_external {c : ClockUnit} (h : c.source = .external) :
    tickCarried c = { c with watch := some c.house } := by
  unfold tickCarried
  split
  · rfl
  · next hi => cases h.symm.trans hi

theorem tickCarried_of_internal {c : ClockUnit} (h : c.source = .internal) :
    tickCarried c = { c with house := c.house + 1 } := by
  unfold tickCarried
  split
  · next he => cases h.symm.trans he
  · rfl

theorem timebaseEdge_of_external (h : s.clock.source = .external) : timebaseEdge s =
    if s.clock.state = .running then tick (withClock s (tickCarried s.clock)) else s := by
  rw [tickCarried_of_external h]
  unfold timebaseEdge
  split
  · rfl
  · next hi => cases h.symm.trans hi

theorem timebaseEdge_of_internal (h : s.clock.source = .internal) :
    timebaseEdge s = countReturn s := by
  unfold timebaseEdge
  split
  · next he => cases h.symm.trans he
  · rfl

theorem tickArrival_of_external (h : s.clock.source = .external) : tickArrival s = timebaseEdge s := by
  rw [tickArrival, h]

theorem tickArrival_of_internal (h : s.clock.source = .internal) : tickArrival s = houseAdvance s := by
  rw [tickArrival, h]

/-- The arrival that carries a tick and nothing else is that tick. -/
theorem tickArrival_eq (hr : s.clock.state = .running) (h : OnlyATick s) :
    tickArrival s = tick (withClock s (tickCarried s.clock)) := by
  cases hi : s.clock.source with
  | external => rw [tickArrival_of_external hi, timebaseEdge_of_external hi, if_pos hr]
  | internal =>
    obtain ⟨hhorn, hexpiry⟩ := h.resolve_left (by rw [hi]; exact nofun)
    rw [tickArrival_of_internal hi, houseAdvance_of_no_expiry hexpiry,
      advanceClock_of_tick (lossDue_of_internal hi) hr hi, silenced_of_none hhorn,
      tickCarried_of_internal hi, nextHouse]

/-! ### Plain edges and advances (R61, R63, R71) -/

/-- A tick carried to a clock that it brings nothing but its values. -/
theorem tickArrival_of_lasts (hr : s.clock.state = .running) (h : OnlyATick s)
    (hg : GameLasts 1 s.clock) (hs : ShotRunsOn s.clock) :
    tickArrival s = withClock s (after 1 (tickCarried s.clock)) := by
  have hgame : GameLasts 1 (tickCarried s.clock) := by
    simpa only [GameLasts, tickCarried_config, tickCarried_value] using hg
  have hshot : ShotLasts 1 (tickCarried s.clock) := by
    rw [ShotLasts, tickCarried_shotOn, tickCarried_shotValue]
    exact hs.imp_right fun h => by omega
  rw [tickArrival_eq hr h, tick_of_lasts (s := withClock s (tickCarried s.clock))
    ((tickCarried_state _).trans hr) hgame hshot]
  rfl

theorem gameLasts_one_down {c : ClockUnit} (hm : c.config.mode = .down) (hv : 2 ≤ c.value) :
    GameLasts 1 c := ⟨fun _ => hv, fun h => by cases hm.symm.trans h⟩

theorem gameLasts_one_up {c : ClockUnit} (hm : c.config.mode = .up) (hv : c.value + 1 < 5999999)
    (hp : c.value + 1 ≠ c.config.setPoint) : GameLasts 1 c :=
  ⟨fun h => (by cases hm.symm.trans h), fun _ => ⟨hv, by omega⟩⟩

theorem countReturn_of_early (h : nextReturns s.clock ≠ 8) : countReturn s =
    withClock s { s.clock with returns := nextReturns s.clock, lastReturn := s.clock.house } := if_neg h

/-- Settles O22: a tick by the value it leaves, a return by the count it makes. -/
theorem plainEdgesAndAdvances : Obligations.PlainEdgesAndAdvances := by
  intro s quiet c
  have ticks : ∀ d, c.state = .running → OnlyATick s → GameLasts 1 c → ShotRunsOn c →
      after 1 (tickCarried c) = d → done (tickArrival s) = .next (withClock s d) := by
    intro d hr honly hg hs hd
    rw [tickArrival_of_lasts hr honly hg hs, done_withClock quiet]
    exact congrArg _ (congrArg _ hd)
  have edge : c.source = .external → exec .tbInEdge s = done (tickArrival s) := fun he =>
    congrArg done (tickArrival_of_external he).symm
  have advance : c.source = .internal → exec .houseTimeAdvance s = done (tickArrival s) := fun hi =>
    congrArg done (tickArrival_of_internal hi).symm
  have counts : ∀ n, c.source = .internal → nextReturns c = n → n ≠ 8 →
      exec .tbInEdge s = .next (withClock s { c with returns := n, lastReturn := c.house }) := by
    rintro n hi rfl hn
    exact (congrArg done ((timebaseEdge_of_internal hi).trans (countReturn_of_early hn))).trans
      (done_withClock quiet _)
  refine ⟨done_withClock quiet _, fun he hs => ?_, fun he hr hm hv hs => ?_,
    fun he hr hm hv hp hs => ?_, fun hi hfirst => ?_, fun hi hn hlate hseven => ?_,
    fun hloss hhorn hexpiry hrest => ?_, fun hhorn hexpiry hr hi hm hv hs => ?_,
    fun hhorn hexpiry hr hi hm hv hp hs => ?_⟩
  · have hsame : timebaseEdge s = s := (timebaseEdge_of_external he).trans (if_neg hs)
    exact (congrArg done hsame).trans (congrArg _ (settle_of_quiet s quiet))
  · refine (edge he).trans (ticks _ hr (.inl he) (gameLasts_one_down hm hv) hs ?_)
    rw [tickCarried_of_external he, after, valueAfter_down (by exact hm)]
    rfl
  · refine (edge he).trans (ticks _ hr (.inl he) (gameLasts_one_up hm hv hp) hs ?_)
    rw [tickCarried_of_external he, after, valueAfter_up (by exact hm)]
    rfl
  · exact counts 1 hi (if_pos hfirst) (by decide)
  · refine counts _ hi (if_neg ?_) (by omega)
    rintro (h | h)
    · exact hn h
    · omega
  · change done (houseAdvance s) = _
    rw [houseAdvance_of_no_expiry hexpiry, advanceClock_of_rest hloss hrest, silenced_of_none hhorn]
    exact done_withClock quiet _
  · refine (advance hi).trans (ticks _ hr (.inr ⟨hhorn, hexpiry⟩) (gameLasts_one_down hm hv) hs ?_)
    rw [tickCarried_of_internal hi, after, valueAfter_down (by exact hm)]
    rfl
  · refine (advance hi).trans (ticks _ hr (.inr ⟨hhorn, hexpiry⟩) (gameLasts_one_up hm hv hp) hs ?_)
    rw [tickCarried_of_internal hi, after, valueAfter_up (by exact hm)]
    rfl

end
end Sys2Proof.ClockProofs
end

section
/-! Advances of house time that silence horns and expire messages (R72, R145, R146). -/

namespace Sys2Proof.ClockProofs
open Sys2Proof.Machine Sys2Proof.FrameProofs Sys2Proof.SponsorProofs

/-! ### A departure from the queue (R137, R145) -/

section
variable (t : State)

theorem report_departed : (departed t).report = t.report := by
  unfold departed fetchStart
  split
  · rw [releaseTest_eq]; rfl
  · rw [releaseTest_eq]

/-- But for the message unit and the fetch that it issues, a departure leaves the state. -/
theorem aside_departed : aside (departed t) = aside { t with msg := (departed t).msg } := by
  unfold departed fetchStart
  split
  · rw [releaseTest_eq]; rfl
  · rw [releaseTest_eq]

/-- What is raised before a departure and what is raised after it come to one state. -/
theorem departed_raise (k : NoticeKind) (d : List (Nat × List Byte)) :
    departed (raise t k d) = raise (departed t) k d := by
  have hrelease : releaseTest (raise t k d) = raise (releaseTest t) k d :=
    (releaseTest_eq _).trans (congrArg (raise · k d) (releaseTest_eq t).symm)
  have hfetch : ∀ u, fetchStart (raise u k d) = raise (fetchStart u) k d := fun u => by
    by_cases hcan : canFetch u = true
    · rw [fetchStart, if_pos (c := canFetch (raise u k d) = true) hcan, fetchStart, if_pos hcan]
      rfl
    · rw [fetchStart, if_neg (c := canFetch (raise u k d) = true) hcan, fetchStart, if_neg hcan]
  rw [departed, hrelease, hfetch, departed]

theorem aside_raiseAll {α : Type} (k : NoticeKind) (key : α → Nat)
    (detail : α → List (Nat × List Byte)) (l : List α) : aside (raiseAll t k key detail l) = aside t := by
  unfold raiseAll
  split <;> exact view_foldl _ (fun u x => aside_raise u k (detail x)) _

/-! ### The expiry of messages (R146) -/

/-- The queue without the messages whose deadline house time has reached. -/
def keptQueue (now : HouseTime) (q : List Message) : List Message :=
  q.filter fun m => !reached now m.deadline

/-- The state with this crowd queue. -/
def withQueue (q : List Message) : State := { t with msg := { t.msg with queue := q } }

variable {t}

theorem expireMessages_of_due (h : (t.msg.queue.any fun m => reached t.clock.house m.deadline) = true) :
    expireMessages t = departed (raiseAll (withQueue t (keptQueue t.clock.house t.msg.queue)) .msgExpired
      (fun m => m.id.toNat) (fun m => [(4, leBytes 4 m.id.toNat)])
      (t.msg.queue.filter fun m => reached t.clock.house m.deadline)) := by
  obtain ⟨m, hm, hr⟩ := List.any_eq_true.1 h
  have hdue : ¬((t.msg.queue.filter fun m => reached t.clock.house m.deadline).isEmpty = true) := by
    rw [List.isEmpty_iff]
    exact List.ne_nil_of_mem (List.mem_filter.2 ⟨hm, hr⟩)
  exact if_neg hdue

/-- What an expiry makes of the message unit, and that it leaves the rest. -/
theorem expireMessages_spec (h : (t.msg.queue.any fun m => reached t.clock.house m.deadline) = true) :
    (expireMessages t).msg.queue = keptQueue t.clock.house t.msg.queue ∧
    (expireMessages t).msg.hold = (if (expireMessages t).msg.queue.length ≤ lowMark t.path.shadow
      then false else t.msg.hold) ∧
    (expireMessages t).msg.head = t.msg.head ∧ (expireMessages t).msg.tail = t.msg.tail ∧
    aside (expireMessages t) = aside { t with msg := (expireMessages t).msg } := by
  rw [expireMessages_of_due h]
  generalize hu : raiseAll _ _ _ _ _ = u
  have hraised : aside u = aside (withQueue t (keptQueue t.clock.house t.msg.queue)) := by
    rw [← hu, aside_raiseAll]
  have hmsg : u.msg = { t.msg with queue := keptQueue t.clock.house t.msg.queue } :=
    msg_of_aside hraised
  have hshadow : u.path.shadow = t.path.shadow :=
    (shadow_of_aside hraised).trans (by rfl)
  obtain ⟨-, hd, -⟩ := departed_spec u
  have haside : aside { u with msg := (departed u).msg } = aside { t with msg := (departed u).msg } :=
    congrArg (fun x : State => { x with msg := (departed u).msg }) hraised
  have hqueue : (departed u).msg.queue = keptQueue t.clock.house t.msg.queue :=
    (congrArg MessageUnit.queue hd).trans (congrArg MessageUnit.queue hmsg)
  have hhold : (departed u).msg.hold =
      if u.msg.queue.length ≤ lowMark u.path.shadow then false else u.msg.hold :=
    congrArg MessageUnit.hold hd
  have hhead : (departed u).msg.head = t.msg.head := by simp only [hd, hmsg]
  have htail : (departed u).msg.tail = t.msg.tail := by simp only [hd, hmsg]
  refine ⟨hqueue, ?_, hhead, htail, (aside_departed u).trans haside⟩
  rw [hhold, hqueue, hmsg, hshadow]

/-- The expiry of one message: one MSG_EXPIRED, after the tests of its departure. -/
theorem expireMessages_of_one {before after : List Message} {m : Message}
    (hq : t.msg.queue = before ++ m :: after) (hm : reached t.clock.house m.deadline = true)
    (hrest : ∀ x ∈ before ++ after, reached t.clock.house x.deadline = false) :
    expireMessages t = raise (departed (withQueue t (before ++ after))) .msgExpired
      [(4, leBytes 4 m.id.toNat)] := by
  have hnone : ∀ l, (∀ x ∈ l, reached t.clock.house x.deadline = false) →
      (l.filter fun x => reached t.clock.house x.deadline) = [] ∧ keptQueue t.clock.house l = l :=
    fun l hl => ⟨List.filter_eq_nil_iff.2 fun x hx => ne_true_of_eq_false (hl x hx),
      List.filter_eq_self.2 fun x hx => by rw [hl x hx]; rfl⟩
  obtain ⟨hbefore, hkeptBefore⟩ := hnone before fun x hx => hrest x (List.mem_append_left _ hx)
  obtain ⟨hafter, hkeptAfter⟩ := hnone after fun x hx => hrest x (List.mem_append_right _ hx)
  have hdue : (t.msg.queue.filter fun x => reached t.clock.house x.deadline) = [m] := by
    rw [hq, List.filter_append, List.filter_cons, if_pos hm, hbefore, hafter, List.nil_append]
  have hkept : keptQueue t.clock.house t.msg.queue = before ++ after := by
    have hgone : ¬(!reached t.clock.house m.deadline) = true := by rw [hm]; exact Bool.false_ne_true
    rw [hq, keptQueue, List.filter_append, List.filter_cons, if_neg hgone]
    exact congrArg₂ _ hkeptBefore hkeptAfter
  have hany : (t.msg.queue.any fun x => reached t.clock.house x.deadline) = true :=
    List.any_eq_true.2 ⟨m, hq ▸ by simp, hm⟩
  rw [expireMessages_of_due hany, hdue, hkept, ← departed_raise]
  rfl

end

/-! ### The clock unit's part of the advance (R60, R61, R72) -/

/-- An advance of house time that loses no timebase ticks the game clock (R61). -/
def AdvanceTicks (s : State) : Prop := s.clock.state = .running ∧ s.clock.source = .internal

/-- The clock unit after an advance of house time, but for what a tick may end. -/
theorem advanceClock_of_no_loss {s : State} {value shotValue : Nat} (hloss : lossDue s = false)
    (hticks : AdvanceTicks s → GameLasts 1 s.clock ∧ ShotRunsOn s.clock ∧
      value = valueAfter 1 s.clock ∧ shotValue = shotTicked s.clock)
    (hrests : ¬AdvanceTicks s → value = s.clock.value ∧ shotValue = s.clock.shotValue) :
    advanceClock s = withClock s
      { s.clock with
        house := s.clock.house + 1,
        hornGame := s.clock.hornGame.filter fun e => !reached (s.clock.house + 1) e,
        hornShot := s.clock.hornShot.filter fun e => !reached (s.clock.house + 1) e,
        value := value, shotValue := shotValue } := by
  rw [← silence_eq_filter, ← silence_eq_filter]
  by_cases ht : AdvanceTicks s
  · obtain ⟨hg, hs, rfl, rfl⟩ := hticks ht
    have hlasts : ShotLasts 1 (silenced (nextHouse s)) := hs.imp_right fun h => by
      change s.clock.shotValue = 0 ∨ 1 < s.clock.shotValue
      omega
    rw [advanceClock_of_tick hloss ht.1 ht.2,
      tick_of_lasts (s := withClock s (silenced (nextHouse s))) ht.1 hg hlasts]
    rfl
  · obtain ⟨rfl, rfl⟩ := hrests ht
    exact advanceClock_of_rest hloss ht

/-- Settles O24: the clock unit's part of the advance is one state; the messages act on it. -/
theorem advancesEndHornsAndExpireMessages : Obligations.AdvancesEndHornsAndExpireMessages := by
  intro s quiet hloss now ticks hplain advanced
  have hclock : advanceClock s = withClock s advanced := by
    refine advanceClock_of_no_loss hloss (fun ht => ?_) fun ht => ⟨if_neg ht, if_neg ht⟩
    obtain ⟨hshot, hdown, hup⟩ := hplain ht
    refine ⟨?_, hshot, if_pos ht, if_pos ht⟩
    cases hm : s.clock.config.mode with
    | down => exact gameLasts_one_down hm (hdown hm)
    | up => exact gameLasts_one_up hm (hup hm).1 (hup hm).2
  have hadvance : houseAdvance s = expireMessages (withClock s advanced) := congrArg expireMessages hclock
  have hdue : expiryDue s = true → exec .messageExpiry s = done (houseAdvance s) := fun h => if_pos h
  refine ⟨fun h => if_pos h, hdue, fun hhorn hexpiry => ?_, fun hexpiry => ?_,
    fun before m after hq hm hrest => ?_⟩
  · refine (if_pos hhorn : exec .hornEnd s = done (houseAdvance s)).trans ?_
    rw [houseAdvance_of_no_expiry hexpiry, hclock]
    exact done_withClock quiet _
  · refine ⟨_, (hdue hexpiry).trans (congrArg done hadvance), ?_⟩
    obtain ⟨hqueue, hhold, hhead, htail, haside⟩ := expireMessages_spec (t := withClock s advanced) hexpiry
    rw [settle_msg, aside_settle]
    exact ⟨hqueue, hhold, hhead, htail, haside⟩
  · have hexpiry : expiryDue s = true := List.any_eq_true.2 ⟨m, hq ▸ by simp, hm⟩
    have hone := expireMessages_of_one (t := withClock s advanced) hq hm hrest
    have hquiet : Quiet (departed (withQueue (withClock s advanced) (before ++ after))) :=
      quiet.of_report (report_departed _)
    rw [hdue hexpiry, hadvance, hone, done, settle_raise_quiet _ hquiet]
    rfl

end Sys2Proof.ClockProofs
end

section
/-! Ticks that end something: what they raise is taken in an order that is open (R67, R68, R70, R186). -/

namespace Sys2Proof.ClockProofs
open Sys2Proof.Machine Sys2Proof.FrameProofs Sys2Proof.SponsorProofs

/-! ### Several occurrences of one command (R186, log 1) -/

/-- An occurrence with its detail, as it is handed to the report unit. -/
def asReport (o : NoticeKind × List Byte) : Report := .occurrence o.1 o.2

/-- The state with these occurrences raised. -/
def withRaised (t : State) (l : List (NoticeKind × List Byte)) : State :=
  { t with report := { t.report with raised := t.report.raised ++ l.map asReport } }

section
variable (t : State) (l : List (NoticeKind × List Byte))

theorem raise_withRaised (k : NoticeKind) (d : List (Nat × List Byte)) :
    raise (withRaised t l) k d = withRaised t (l ++ [(k, layout 16 d)]) := by
  have hraised : (t.report.raised ++ l.map asReport) ++ [.occurrence k (layout 16 d)] =
      t.report.raised ++ (l ++ [(k, layout 16 d)]).map asReport := by
    rw [List.append_assoc, List.map_append]
    rfl
  exact congrArg (fun r => { t with report := { t.report with raised := r } }) hraised

theorem withStop_eq_withRaised (c : ClockUnit) (cause : ClockCause) (period value : Nat) :
    withStop t c cause period value = withRaised (refreshDue (withClock t c) .clockStop)
      [(.clockStopped,
        layout 16 [(0, leBytes 1 cause.code), (1, leBytes 1 period), (4, leBytes 4 value)])] := rfl

end

theorem insertByRank_map {α β : Type} (f : α → β) (rank : β → Nat) (x : α) (l : List α) :
    insertByRank rank (f x) (l.map f) = (insertByRank (rank ∘ f) x l).map f := by
  induction l with
  | nil => rfl
  | cons y l ih =>
    simp only [List.map_cons, insertByRank, ih, Function.comp_apply]
    split <;> rfl

theorem sortByRank_map {α β : Type} (f : α → β) (rank : β → Nat) (l : List α) :
    sortByRank rank (l.map f) = (sortByRank (rank ∘ f) l).map f := by
  induction l with
  | nil => rfl
  | cons x l ih => rw [List.map_cons, sortByRank, ih, insertByRank_map, sortByRank]

section
variable {t : State} (ht : t.report.raised = [])
include ht

/-- Two occurrences or more, raised by one command that raises nothing else. -/
theorem settle_withRaised {l m : List (NoticeKind × List Byte)} (hl : 2 ≤ l.length)
    (hm : m.Perm l) : takenInAnyOrder t (settle (withRaised t l)) m := by
  have hraised : (withRaised t l).report.raised = l.map asReport := by
    change t.report.raised ++ l.map asReport = _
    rw [ht, List.nil_append]
  have hmany : ¬(withRaised t l).report.raised.length < 2 := by
    rw [hraised, List.length_map]
    omega
  obtain ⟨rank, horder⟩ : ∃ rank, raisedOrder (withRaised t l).report = (sortByRank rank l).map asReport := by
    rw [raisedOrder, if_neg hmany, freeOrder, hraised, sortByRank_map]
    exact ⟨_, rfl⟩
  have hempty : (setReport (withRaised t l) fun r =>
      { r with raised := [], draws := if r.raised.length < 2 then r.draws else r.draws + 1 }) =
      { t with report := { t.report with draws := t.report.draws + 1 } } := by
    have hdraws : (if (withRaised t l).report.raised.length < 2 then t.report.draws
        else t.report.draws + 1) = t.report.draws + 1 := if_neg hmany
    have hreport : { t.report with raised := [] } = t.report := by rw [← ht]
    calc _ = { t with report := { t.report with raised := [], draws := t.report.draws + 1 } } :=
          congrArg (fun d => { t with report := { t.report with raised := [], draws := d } }) hdraws
      _ = _ := congrArg (fun r => { t with report := { r with draws := t.report.draws + 1 } }) hreport
  refine ⟨sortByRank rank l, hm.trans (perm_sortByRank rank l).symm, ?_⟩
  rw [settle, takeRaised, horder, hempty, List.foldl_map]
  rfl

theorem settle_withRaised_pair (a b : NoticeKind × List Byte) :
    takenInSomeOrder t (settle (withRaised t [a, b])) a b := by
  obtain ⟨order, hperm, hu⟩ := settle_withRaised ht (l := [a, b]) le_rfl (.refl _)
  rcases List.pair_perm.1 hperm with rfl | rfl
  · exact .inl hu
  · exact .inr hu

end

/-! ### What a configuration taken leaves (R78) -/

section
variable (gate : Bool) (frame : FrameNo) (new : ClockConfig) (c : ClockUnit)

/-- A configuration taken, and what the run condition then brings about. -/
theorem configured_cases : configured gate frame new c = adopted new c ∨
    configured gate frame new c = { adopted new c with state := .expired } ∨
    configured gate frame new c = started (adopted new c) frame .soft := by
  by_cases h : Evaluates new c ∧ (c.soft = true ∧ (gate = true ∨ new.gateOverride = true)) ∧
      (adopted new c).state = .stopped
  · obtain ⟨he, hw, hs⟩ := h
    by_cases hz : new.mode = .down ∧ c.value = 0
    · exact .inr (.inl (configured_of_zero he hw hs hz))
    · exact .inr (.inr (configured_of_wanted he hw hs hz))
  · exact .inl (configured_of_idle h)

/-- A configuration taken leaves the value, the period, the horn and the stop record. -/
theorem configured_frame :
    (configured gate frame new c).config = new ∧ (configured gate frame new c).configPending = false ∧
    (configured gate frame new c).house = c.house ∧ (configured gate frame new c).period = c.period ∧
    (configured gate frame new c).value = c.value ∧
    (configured gate frame new c).hornGame = c.hornGame ∧
    (configured gate frame new c).stopRec = c.stopRec := by
  rcases configured_cases gate frame new c with h | h | h
  all_goals
    rw [h]
    exact ⟨rfl, rfl, rfl, rfl, rfl, rfl, rfl⟩

end

section
variable {t : State} (gate : Bool) (c : ClockUnit) (target : GameState) (cause : ClockCause)

/-- What a stop leaves of the clock unit (R66). -/
theorem stoppedConfigured_frame :
    (stoppedConfigured t gate c target cause).house = c.house ∧
    (stoppedConfigured t gate c target cause).period = c.period ∧
    (stoppedConfigured t gate c target cause).value = c.value ∧
    (stoppedConfigured t gate c target cause).hornGame = c.hornGame ∧
    (stoppedConfigured t gate c target cause).stopRec =
      { house := c.house, frame := t.comp.frame, value := c.value, cause := cause } := by
  unfold stoppedConfigured
  split
  · obtain ⟨-, -, hhouse, hperiod, hvalue, hhorn, hstop⟩ :=
      configured_frame gate t.comp.frame (readClockConfig t.path.shadow) (stopped c t.comp.frame target cause)
    exact ⟨hhouse, hperiod, hvalue, hhorn, hstop⟩
  · exact ⟨rfl, rfl, rfl, rfl, rfl⟩

/-- A stop takes the pending configuration (R66, R78). -/
theorem stoppedConfigured_takes (hc : c.configPending = t.clock.configPending) :
    (stoppedConfigured t gate c target cause).configPending = false ∧
    (stoppedConfigured t gate c target cause).config =
      if t.clock.configPending then readClockConfig t.path.shadow else c.config := by
  unfold stoppedConfigured
  split
  · obtain ⟨hconfig, hpending, -⟩ :=
      configured_frame gate t.comp.frame (readClockConfig t.path.shadow) (stopped c t.comp.frame target cause)
    exact ⟨hpending, hconfig⟩
  · next hp => exact ⟨hc.trans (Bool.eq_false_iff.2 hp), rfl⟩

theorem stoppedConfigured_withClock (d : ClockUnit) (h : d.configPending = t.clock.configPending) :
    stoppedConfigured (withClock t d) gate c target cause = stoppedConfigured t gate c target cause := by
  simp only [stoppedConfigured, withClock_clock, withClock_comp, withClock_path, h]

end

/-! ### The end of the game clock's run (R67, R68) -/

/-- The notice of a stop (R66). -/
def stopNotice (cause : ClockCause) (period value : Nat) : NoticeKind × List Byte :=
  (.clockStopped, layout 16 [(0, leBytes 1 cause.code), (1, leBytes 1 period), (4, leBytes 4 value)])

/-- PERIOD_END at this house time, with this mode code (R67, R68). -/
def periodEndNotice (code period : Nat) (house : HouseTime) : NoticeKind × List Byte :=
  (.periodEnd, layout 16 [(0, leBytes 1 period), (1, leBytes 1 code), (2, leBytes 1 code),
    (4, leBytes 4 house.toNat)])

/-- CLOCK_LIMIT (R68). -/
def limitNotice (period value : Nat) : NoticeKind × List Byte :=
  (.clockLimit, layout 16 [(1, leBytes 1 period), (4, leBytes 4 value)])

/-- The clock unit with HORN_GAME sounding for the horn length in force (R72). -/
def sounding (c : ClockUnit) : ClockUnit :=
  { c with hornGame := some (c.house + BitVec.ofNat 32 c.config.hornLength) }

/-- The state that an expiry leaves but for the period-end spot, on this clock unit at 0 (R67). -/
def atExpiry (t : State) (c : ClockUnit) : State :=
  withRaised
    (refreshDue (withClock t (stoppedConfigured t t.gateRun (sounding c) .expired .expiry)) .clockStop)
    [stopNotice .expiry c.period c.value, periodEndNotice 0 c.period c.house]

/-- The state that the limit leaves, on this clock unit at the limit (R68). -/
def atLimit (t : State) (c : ClockUnit) : State :=
  withRaised
    (refreshDue (withClock t (stoppedConfigured t t.gateRun { c with soft := false } .stopped .limit))
      .clockStop)
    [stopNotice .limit c.period c.value, limitNotice c.period c.value]

section
variable {t : State}

theorem raisePeriodEnd_withRaised {period : Nat} {house : HouseTime} (hp : t.clock.period = period)
    (hh : t.clock.house = house) (l : List (NoticeKind × List Byte)) (mode : ClockMode) :
    raisePeriodEnd (withRaised t l) mode =
      withRaised t (l ++ [periodEndNotice mode.code period house]) := by
  subst hp hh
  exact raise_withRaised t l _ _

theorem expireClock_withClock {c : ClockUnit} (h : c.configPending = t.clock.configPending) :
    expireClock (withClock t c) = periodEndSpot (atExpiry t c) := by
  have hstop : stopClock (withClock t (sounding c)) .expired .expiry =
      withRaised
        (refreshDue (withClock t (stoppedConfigured t t.gateRun (sounding c) .expired .expiry)) .clockStop)
        [stopNotice .expiry c.period c.value] := by
    rw [stopClock_eq_withStop, withStop_withClock, stoppedConfigured_withClock _ _ _ _ _ (by exact h)]
    rfl
  obtain ⟨hhouse, hperiod, -⟩ := stoppedConfigured_frame (t := t) t.gateRun (sounding c) .expired .expiry
  change periodEndSpot (raisePeriodEnd (stopClock (withClock t (sounding c)) .expired .expiry) .down) = _
  rw [hstop, raisePeriodEnd_withRaised (by exact hperiod) (by exact hhouse)]
  rfl

theorem reachLimit_withClock {c : ClockUnit} (h : c.configPending = t.clock.configPending) :
    reachLimit (withClock t c) = atLimit t c := by
  have hstop : stopClock (withClock t { c with soft := false }) .stopped .limit =
      withRaised
        (refreshDue (withClock t (stoppedConfigured t t.gateRun { c with soft := false } .stopped .limit))
          .clockStop)
        [stopNotice .limit c.period c.value] := by
    rw [stopClock_eq_withStop, withStop_withClock, stoppedConfigured_withClock _ _ _ _ _ (by exact h)]
    rfl
  change raise (stopClock (withClock t { c with soft := false }) .stopped .limit) _ _ = _
  rw [hstop, raise_withRaised]
  rfl

/-- The UP set-point reached: one PERIOD_END (R68). -/
theorem reachSetPoint_withClock (c : ClockUnit) : reachSetPoint (withClock t c) =
    withRaised
      (withClock t { c with
        added := true,
        hornGame := if c.config.upHorn then some (c.house + BitVec.ofNat 32 c.config.hornLength)
          else c.hornGame })
      [periodEndNotice 1 c.period c.house] := by
  cases hu : c.config.upHorn with
  | true => exact if_pos hu
  | false => exact if_neg (ne_true_of_eq_false hu)

theorem shotExpire_withClock (c : ClockUnit) : shotExpire (withClock t c) =
    withRaised
      (withClock t { c with hornShot := some (c.house + BitVec.ofNat 32 c.config.hornLength) })
      [(.shotExpired, layout 16 [(0, leBytes 1 c.period), (4, leBytes 4 c.value)])] := rfl

/-- One occurrence, raised by a command that raises nothing else. -/
theorem settle_withRaised_one (h : Quiet t) (k : NoticeKind) (d : List (Nat × List Byte)) :
    settle (withRaised t [(k, layout 16 d)]) = takeOccurrence t k (layout 16 d) :=
  settle_raise_quiet t h k d

/-! ### The period-end spot (R57) -/

theorem periodEndSpot_of_disabled (h : periodSpotEnable t.path.shadow = false) : periodEndSpot t = t :=
  if_neg (ne_true_of_eq_false h)

theorem periodSpotDwell_le (m : Memory) : periodSpotDwell m ≤ 65535 := by
  have low := (readByte m 0x294).isLt
  have high := (readByte m 0x295).isLt
  simp only [periodSpotDwell, readLE]
  omega

/-- The checks of SPOT, with the creative of the rotation (R51). -/
structure SpotPasses (t : State) (i p dwell : Nat) : Prop where
  sponsor : i ≤ 31
  placement : p ≤ 3
  dwell_pos : dwell ≠ 0
  dwell_le : dwell ≤ 65535
  live : t.report.mode = .live
  unbound : (placementAt t p).fields.bound = false
  member : (placementAt t p).fields.member i = true
  resumed : sponsorSuspended t.path.shadow i = false
  waiting : inStack (placementAt t p).stack i = false
  fresh : ∀ y ∈ (placementAt t p).spots, y.sponsor ≠ i

/-- A placement with one more pending spot. -/
def withSpot (i dwell : Nat) (x : Placement) : Placement :=
  { x with spots := x.spots ++ [{ sponsor := i, creative := 15, dwell := dwell }] }

theorem spotRequest_of_passes (o : SpotOffsets) {i p dwell : Nat} (h : SpotPasses t i p dwell) :
    spotRequest t o i p dwell 15 = (modifyPlacement t p (withSpot i dwell), verdict .accepted) := by
  obtain ⟨hi, hp, hd, hd', hmode, hbound, hmember, hsuspended, hservice, hspots⟩ := h
  have hnone : ((placementAt t p).spots.any fun x => x.sponsor == i) = false :=
    List.any_eq_false.2 fun y hy => by simpa using hspots y hy
  have hlive : t.report.mode ≠ .pass := by simp [hmode]
  unfold spotRequest
  simp only [Nat.not_lt.2 hi, Nat.not_lt.2 hp, hd, Nat.not_lt.2 hd', hlive, hbound, hmember, hsuspended,
    hservice, hnone, if_false, Bool.false_eq_true, Bool.not_true, or_self, ne_eq, not_true_eq_false,
    and_false]
  rfl

/-- The spot of an expiry whose SPOT passes every check joins its placement's pending set (R57). -/
theorem periodEndSpot_of_passes (he : periodSpotEnable t.path.shadow = true)
    (h : SpotPasses t (periodSpotSponsor t.path.shadow) (periodSpotPlacement t.path.shadow)
      (periodSpotDwell t.path.shadow))
    (hlength : periodSpotPlacement t.path.shadow < t.rot.placements.length) :
    placementAt (periodEndSpot t) (periodSpotPlacement t.path.shadow) =
      withSpot (periodSpotSponsor t.path.shadow) (periodSpotDwell t.path.shadow)
        (placementAt t (periodSpotPlacement t.path.shadow)) := by
  have hrecorded : ∀ u w tag code v, placementAt (recordOutcome u w tag code v) = placementAt u :=
    fun u w tag code v => by rw [recordOutcome_frame]; rfl
  rw [periodEndSpot, if_pos he, spotRequest_of_passes periodSpotOffsets h]
  exact (congrFun (hrecorded ..) _).trans (placementAt_modifyPlacement t hlength _)

end

end Sys2Proof.ClockProofs
end

section
/-! The tick that expires a clock, reaches the set-point or stops at the limit (R57, R67, R68, R70). -/

namespace Sys2Proof.ClockProofs
open Sys2Proof.Machine Sys2Proof.FrameProofs Sys2Proof.SponsorProofs

section
variable {c : ClockUnit}

theorem shotRunsOn_tickCarried (h : ShotRunsOn c) : ShotRunsOn (tickCarried c) := by
  rwa [ShotRunsOn, tickCarried_shotOn, tickCarried_shotValue]

end

section
variable {s : State} (quiet : Quiet s) (honly : OnlyATick s) (hr : s.clock.state = .running)
include quiet honly hr

/-- The arrival that carries a tick which raises one occurrence. -/
theorem tickArrival_raising {c : ClockUnit} {k : NoticeKind} {d : List (Nat × List Byte)}
    (h : tick (withClock s (tickCarried s.clock)) = withRaised (withClock s c) [(k, layout 16 d)]) :
    done (tickArrival s) = .next (takeOccurrence (withClock s c) k (layout 16 d)) := by
  have hquiet : Quiet (withClock s c) := quiet.of_report rfl
  rw [tickArrival_eq hr honly, h, done, settle_withRaised_one hquiet]

end

/-- Settles O26: the tick leaves the two values, and the shot expiry raises one occurrence. -/
theorem shotClockExpirySoundsItsHorn : Obligations.ShotClockExpirySoundsItsHorn := by
  intro s quiet honly hr hon hone c expired
  have hrun : c.state = .running := (tickCarried_state _).trans hr
  have hcon : c.shotOn = true := (tickCarried_shotOn _).trans hon
  have hcone : c.shotValue = 1 := (tickCarried_shotValue _).trans hone
  have hshot : shotAfter 1 c = 0 := by rw [shotAfter, if_pos hcon, hcone]
  have hdue : shotExpiryDue s = true := by
    rw [shotExpiryDue, hr, (tickShotExpires_iff hr).2 ⟨hon, hone⟩]
    rfl
  have ticks : ∀ v, GameLasts 1 c → valueAfter 1 c = v → exec .shotClockExpiry s = .next (expired v) := by
    rintro v hg rfl
    obtain ⟨hends, hpoint, hvalue⟩ := tick_of_gameLasts (s := withClock s c) hg
    refine (if_pos hdue : exec .shotClockExpiry s = done (tickArrival s)).trans
      (tickArrival_raising quiet honly hr ?_)
    rw [tick_of_shotExpires (s := withClock s c) hrun hcon hcone hends hpoint, tickValues_eq hrun hvalue,
      withClock_withClock, withClock_clock, shotExpire_withClock, after, hshot]
  refine ⟨fun hm hv => ticks _ (gameLasts_one_down hm hv) (valueAfter_down hm), fun hm hv hp => ?_⟩
  exact ticks _ (gameLasts_one_up hm hv hp) (valueAfter_up hm)

/-- Settles O27: the tick at the set-point and the tick at the limit. -/
theorem upClockSetPointAndLimit : Obligations.UpClockSetPointAndLimit := by
  intro s quiet honly hr hm hshot c limited
  have hrun : c.state = .running := (tickCarried_state _).trans hr
  have hmode : c.config.mode = .up := by rwa [tickCarried_config]
  have hcshot : ShotRunsOn c := shotRunsOn_tickCarried hshot
  have hsource : c.value = s.clock.value := tickCarried_value _
  have hconfig : c.config = s.clock.config := tickCarried_config _
  refine ⟨fun hp hl => ?_, fun hlow hhigh hp => ?_⟩
  · have hreaches : tickReachesSetPoint s.clock = true :=
      tickReachesSetPoint_iff.2 ⟨hm, by unfold clockLimit; omega, by rw [← hsource, ← hconfig, hp]⟩
    have hdue : setPointDue s = true := by
      rw [setPointDue, hr, hreaches]
      rfl
    refine (if_pos hdue : exec .upSetPointReached s = done (tickArrival s)).trans
      (tickArrival_raising quiet honly hr ?_)
    rw [tick_of_setPoint (s := withClock s c) hrun hcshot hmode hp hl, withClock_withClock,
      reachSetPoint_withClock, withClock_clock, after, valueAfter_up hmode]
    rfl
  · have hlimit : clockLimit ≤ c.value + 1 := by unfold clockLimit; omega
    have hends : tickEnds s.clock = true := (tickEnds_up hm).2 (hsource ▸ hlimit)
    have hdue : limitDue s = true := by
      rw [limitDue, hr, hm, hends]
      rfl
    refine ⟨_, (if_pos hdue : exec .upLimit s = done (tickArrival s)), ?_⟩
    rw [tickArrival_eq hr honly, tick_of_limit (s := withClock s c) hrun hcshot hmode hlimit hhigh hp,
      withClock_withClock, reachLimit_withClock (by exact tickCarried_configPending _)]
    refine settle_withRaised_pair ?_ _ _
    exact quiet.1

/-- Settles O25: the expiry's clock unit, its two notices, and the period-end spot's request. -/
theorem gameClockExpiryStopsAtZero : Obligations.GameClockExpiryStopsAtZero := by
  intro s quiet honly hr hm hz hshot c m atZero t i q x
  have hrun : c.state = .running := (tickCarried_state _).trans hr
  have hmode : c.config.mode = .down := by rwa [tickCarried_config]
  have hvalue : c.value ≤ 1 := by rwa [tickCarried_value]
  have hpending : c.configPending = s.clock.configPending := tickCarried_configPending _
  have hdue : gameExpiryDue s = true := by
    rw [gameExpiryDue, hr, hm, (tickEnds_down hm).2 hz]
    rfl
  have hzero : after 1 c = { c with value := 0, shotValue := shotTicked c } := by
    have hv : valueAfter 1 c = 0 := (valueAfter_down hmode).trans (Nat.sub_eq_zero_of_le hvalue)
    rw [after, hv]
    rfl
  have hanswer : exec .gameClockExpiry s =
      done (periodEndSpot (atExpiry s { c with value := 0, shotValue := shotTicked c })) := by
    refine (if_pos hdue : exec .gameClockExpiry s = done (tickArrival s)).trans ?_
    rw [tickArrival_eq hr honly, tick_of_zero (s := withClock s c) hrun (shotRunsOn_tickCarried hshot)
      hmode hvalue, withClock_withClock, withClock_clock, hzero, expireClock_withClock (by exact hpending)]
  have hclock : ∀ d, (settle (periodEndSpot (atExpiry s d))).clock =
      stoppedConfigured s s.gateRun (sounding d) .expired .expiry := fun d =>
    (settle_clock _).trans (congrArg Prod.snd (clockView_periodEndSpot (atExpiry s d)))
  obtain ⟨-, -, hleft, hhorn, hstop⟩ :=
    stoppedConfigured_frame (t := s) s.gateRun atZero .expired .expiry
  obtain ⟨htaken, hconfig⟩ :=
    stoppedConfigured_takes (t := s) s.gateRun atZero .expired .expiry hpending
  refine ⟨_, hanswer, ?_, ?_, ?_, ?_, ?_, ?_, ?_⟩
  · rw [hclock]; exact hleft
  · rw [hclock]; exact hhorn
  · rw [hclock]; exact htaken
  · rw [hclock]; exact hstop
  · have hsame : atZero.config = s.clock.config := tickCarried_config _
    rw [hclock]
    exact hconfig.trans (by rw [hsame])
  · intro henable hi hq hdwell hlive hlength hbound hmember hsuspended hservice hspots
    have hpasses : SpotPasses (atExpiry s { c with value := 0, shotValue := shotTicked c }) i q
        (periodSpotDwell m) :=
      ⟨hi, hq, hdwell, periodSpotDwell_le m, hlive, hbound, hmember, hsuspended, hservice, hspots⟩
    have hrot : ∀ u, placementAt (settle u) q = placementAt u q := fun u =>
      congrArg (·.placements.getD q .reset) (settle_rot u)
    exact congrArg Placement.spots
      ((hrot _).trans (periodEndSpot_of_passes (t := atExpiry s _) henable hpasses hlength))
  · intro hnone hspot
    rw [periodEndSpot_of_disabled (by exact hspot), atExpiry, stoppedConfigured_of_none _ _ _ _ hnone]
    refine settle_withRaised_pair ?_ _ _
    exact quiet.1

end Sys2Proof.ClockProofs
end

section
/-! The loss of the timebase credits three ticks at once, of which one may end something; the eighth edge
restores it (R62, R63). -/

namespace Sys2Proof.ClockProofs
open Sys2Proof.Machine Sys2Proof.FrameProofs Sys2Proof.SponsorProofs

/-! ### Three ticks of which one raises something (R62) -/

section
variable {c : ClockUnit} {k : Nat}

theorem gameLasts_of_down (hm : c.config.mode = .down) (h : k < c.value) : GameLasts k c :=
  ⟨fun _ => h, fun hup => by cases hm.symm.trans hup⟩

theorem gameLasts_of_up (hm : c.config.mode = .up) (hl : c.value + k < clockLimit)
    (hp : c.config.setPoint ≤ c.value ∨ c.value + k < c.config.setPoint) : GameLasts k c :=
  ⟨fun hdown => (by cases hm.symm.trans hdown), fun _ => ⟨hl, hp⟩⟩

end

section
variable {s : State} {c e : ClockUnit} {j n : Nat} {l : List (NoticeKind × List Byte)}

/-- A tick that raises something and runs on, between ticks that end nothing. -/
theorem creditTicks_raising (hr : c.state = .running) (hg : GameLasts j c) (hs : ShotLasts j c)
    (hends : tickEnds (after j c) = false)
    (htick : tick (withClock s (after j c)) = withRaised (withClock s e) l)
    (hre : e.state = .running) (hge : GameLasts n e) (hse : ShotLasts n e) :
    creditTicks (n + 1 + j) (withClock s c) = withRaised (withClock s (after n e)) l := by
  have hrest := creditTicks_of_lasts (s := withRaised (withClock s e) l) hre hge hse 0
  rw [Nat.zero_add] at hrest
  rw [creditTicks_of_lasts (s := withClock s c) hr hg hs, withClock_withClock, withClock_clock,
    creditTicks_succ (s := withClock s (after j c)) n hends, htick, hrest]
  rfl

/-- The tick that ends RUNNING, after ticks that end nothing, if any. -/
theorem creditTicks_ending (hr : c.state = .running) (hj : j = 0 ∨ GameLasts j c ∧ ShotLasts j c)
    (hends : tickEnds (after j c) = true) :
    creditTicks (n + 1 + j) (withClock s c) = tick (withClock s (after j c)) := by
  rcases hj with rfl | ⟨hg, hs⟩
  · rw [after_zero] at hends ⊢
    exact creditTicks_of_ends (s := withClock s c) n hends
  · rw [creditTicks_of_lasts (s := withClock s c) hr hg hs, withClock_withClock, withClock_clock]
    exact creditTicks_of_ends (s := withClock s (after j c)) n hends

end

/-- The clock unit once its set-point is reached (R68). -/
def pointReached (c : ClockUnit) : ClockUnit :=
  { c with
    added := true,
    hornGame := if c.config.upHorn then some (c.house + BitVec.ofNat 32 c.config.hornLength)
      else c.hornGame }

/-- The clock unit once its shot clock has expired (R70). -/
def shotSounding (c : ClockUnit) : ClockUnit :=
  { c with hornShot := some (c.house + BitVec.ofNat 32 c.config.hornLength) }

section
variable (s : State) {c : ClockUnit} (hr : c.state = .running)
include hr

/-- One of three ticks raises an UP clock to its set-point (R68). -/
theorem creditTicks_of_setPoint (hs : ShotLasts 3 c) (hm : c.config.mode = .up)
    (hl : c.value + 3 < clockLimit) (hbelow : c.value < c.config.setPoint)
    (hreach : c.config.setPoint ≤ c.value + 3) :
    creditTicks 3 (withClock s c) = withRaised (withClock s (pointReached (after 3 c)))
      [periodEndNotice 1 c.period c.house] := by
  obtain ⟨j, n, hpoint, hcount⟩ : ∃ j n, c.value + j + 1 = c.config.setPoint ∧ n + 1 + j = 3 :=
    ⟨c.config.setPoint - c.value - 1, 3 - (c.config.setPoint - c.value), by omega, by omega⟩
  have hg : GameLasts j c := gameLasts_of_up hm (by omega) (.inr (by omega))
  have hsj : ShotLasts 1 (after j c) := (hs.mono (j := j + 1) (by omega)).after
  have hvalue : (after j c).value = c.value + j := valueAfter_up hm
  have hpointed : (after j c).value + 1 = (after j c).config.setPoint := by rw [hvalue]; exact hpoint
  have hlimit : (after j c).value + 1 < clockLimit := by rw [hvalue]; omega
  have htick := tick_of_setPoint (s := withClock s (after j c)) hr
    (hsj.imp_right fun h => by rw [withClock_clock]; omega) hm hpointed hlimit
  rw [withClock_withClock, withClock_clock, after_after, reachSetPoint_withClock] at htick
  have hends : tickEnds (after j c) = false :=
    Bool.eq_false_iff.2 fun h => Nat.not_le.2 hlimit ((tickEnds_up (c := after j c) hm).1 h)
  have hrest : GameLasts n (pointReached (after (j + 1) c)) := by
    have hv : (after (j + 1) c).value = c.value + (j + 1) := valueAfter_up hm
    refine gameLasts_of_up (c := pointReached (after (j + 1) c)) hm ?_ (.inl ?_)
    · change (after (j + 1) c).value + n < clockLimit
      omega
    · change c.config.setPoint ≤ (after (j + 1) c).value
      omega
  have hsn : ShotLasts n (after (j + 1) c) := (hs.mono (j := j + 1 + n) (by omega)).after
  have hall : after n (pointReached (after (j + 1) c)) = pointReached (after 3 c) := by
    have hsum : j + 1 + n = 3 := by omega
    rw [← hsum, ← after_after (j + 1) n]
    rfl
  have hcredit := creditTicks_raising (e := pointReached (after (j + 1) c)) hr hg (hs.mono (by omega))
    hends htick hr hrest hsn
  rw [hcount, hall] at hcredit
  exact hcredit

/-- One of three ticks expires the shot clock (R70). -/
theorem creditTicks_of_shot (hg : GameLasts 3 c) (hon : c.shotOn = true) (hlow : 1 ≤ c.shotValue)
    (hhigh : c.shotValue ≤ 3) :
    creditTicks 3 (withClock s c) = withRaised (withClock s (shotSounding (after 3 c)))
      [(.shotExpired,
        layout 16 [(0, leBytes 1 c.period), (4, leBytes 4 (valueAfter c.shotValue c))])] := by
  obtain ⟨j, n, hlast, hcount⟩ : ∃ j n, c.shotValue = j + 1 ∧ n + 1 + j = 3 :=
    ⟨c.shotValue - 1, 3 - c.shotValue, by omega, by omega⟩
  have hsj : ShotLasts j c := .inr (.inr (by omega))
  have hshot : (after j c).shotValue = 1 := (if_pos hon).trans (by omega)
  have hzero : (after (j + 1) c).shotValue = 0 := (if_pos hon).trans (by omega)
  obtain ⟨hends, hpoint, hvalue⟩ := tick_of_gameLasts (s := withClock s (after j c))
    ((hg.mono (j := j + 1) (by omega)).after)
  have htick := tick_of_shotExpires (s := withClock s (after j c)) hr hon hshot hends hpoint
  rw [tickValues_eq hr hvalue, withClock_withClock, withClock_clock, after_after,
    shotExpire_withClock] at htick
  have hrest : GameLasts n (after (j + 1) c) := (hg.mono (j := j + 1 + n) (by omega)).after
  have hall : after n (shotSounding (after (j + 1) c)) = shotSounding (after 3 c) := by
    have hsum : j + 1 + n = 3 := by omega
    rw [← hsum, ← after_after (j + 1) n]
    rfl
  have hcredit := creditTicks_raising (e := shotSounding (after (j + 1) c)) hr (hg.mono (by omega)) hsj
    hends htick hr hrest (.inr (.inl hzero))
  rw [hcount, hall] at hcredit
  rw [hlast]
  exact hcredit

/-- One of three ticks brings a DOWN clock to 0 (R67). -/
theorem creditTicks_of_zero (hm : c.config.mode = .down) (hv : c.value ≤ 3)
    (hs : ShotLasts (max 1 c.value) c) :
    creditTicks 3 (withClock s c) = expireClock (withClock s
      { c with value := 0, shotValue := shotAfter (max 1 c.value) c }) := by
  obtain ⟨j, n, hticks, hcount⟩ : ∃ j n, max 1 c.value = j + 1 ∧ n + 1 + j = 3 :=
    ⟨max 1 c.value - 1, 3 - max 1 c.value, by omega, by omega⟩
  have hvalue : (after j c).value = c.value - j := valueAfter_down hm
  have hlast : (after j c).value ≤ 1 := by rw [hvalue]; omega
  have hj : j = 0 ∨ GameLasts j c ∧ ShotLasts j c := by
    rcases Nat.eq_zero_or_pos j with h | h
    · exact .inl h
    · exact .inr ⟨gameLasts_of_down hm (by omega), hs.mono (by omega)⟩
  have hone : ShotLasts 1 (after j c) := (hs.mono (j := j + 1) (by omega)).after
  have hzero : valueAfter (j + 1) c = 0 := (valueAfter_down hm).trans (by omega)
  rw [← hcount, creditTicks_ending hr hj ((tickEnds_down (c := after j c) hm).2 hlast),
    tick_of_zero (s := withClock s (after j c)) hr
      (hone.imp_right fun h => by rw [withClock_clock]; omega) hm hlast,
    withClock_withClock, withClock_clock, after_after, after, hzero, hticks]

/-- One of three ticks stops an UP clock at the limit, its set-point behind it (R68). -/
theorem creditTicks_of_limit (hm : c.config.mode = .up) (hlow : clockLimit ≤ c.value + 3)
    (hhigh : c.value ≤ clockLimit) (hp : c.config.setPoint ≤ c.value)
    (hs : ShotLasts (max 1 (clockLimit - c.value)) c) :
    creditTicks 3 (withClock s c) = reachLimit (withClock s
      { c with value := clockLimit, shotValue := shotAfter (max 1 (clockLimit - c.value)) c }) := by
  obtain ⟨j, n, hticks, hcount⟩ : ∃ j n, max 1 (clockLimit - c.value) = j + 1 ∧ n + 1 + j = 3 :=
    ⟨max 1 (clockLimit - c.value) - 1, 3 - max 1 (clockLimit - c.value), by omega, by omega⟩
  have hvalue : (after j c).value = c.value + j := valueAfter_up hm
  have hlast : clockLimit ≤ (after j c).value + 1 := by rw [hvalue]; omega
  have hj : j = 0 ∨ GameLasts j c ∧ ShotLasts j c := by
    rcases Nat.eq_zero_or_pos j with h | h
    · exact .inl h
    · exact .inr ⟨gameLasts_of_up hm (by omega) (.inl hp), hs.mono (by omega)⟩
  have hone : ShotLasts 1 (after j c) := (hs.mono (j := j + 1) (by omega)).after
  have hpoint : (after j c).value = clockLimit ∨ (after j c).config.setPoint ≠ clockLimit := by
    change _ ∨ c.config.setPoint ≠ clockLimit
    omega
  have hshot : shotTicked (after j c) = shotAfter (j + 1) c :=
    congrArg ClockUnit.shotValue (after_after j 1 c)
  rw [← hcount, creditTicks_ending hr hj ((tickEnds_up (c := after j c) hm).2 hlast),
    tick_of_limit (s := withClock s (after j c)) hr
      (hone.imp_right fun h => by rw [withClock_clock]; omega) hm hlast (by rw [withClock_clock]; omega)
      hpoint,
    withClock_withClock, withClock_clock, hshot, hticks]
  rfl

end

/-! ### The loss (R62) -/

/-- The clock unit at the loss, before the ticks credited. -/
def lostUnit (c : ClockUnit) : ClockUnit := { c with house := c.house + 1, source := .internal }

/-- TIMEBASE_LOST (R62). -/
def lostNotice (value : Nat) (house : HouseTime) : NoticeKind × List Byte :=
  (.timebaseLost, layout 16 [(4, leBytes 4 value), (8, leBytes 4 house.toNat)])

/-- The advance loses the timebase, ends no horn and expires no message. -/
def LossOnly (s : State) : Prop := lossDue s = true ∧ hornDue s = false ∧ expiryDue s = false

/-- The clock unit with the return count at 0. -/
def countCleared (c : ClockUnit) : ClockUnit := { c with returns := 0 }

theorem lossDue_of_watch {s : State} {m : HouseTime} (hr : s.clock.state = .running)
    (he : s.clock.source = .external) (hm : s.clock.watch = some m)
    (h : reached (s.clock.house + 1) (m + 3) = true) : lossDue s = true := by
  simp only [lossDue, watchExpired, nextHouse, hr, he, hm, h, beq_self_eq_true, Bool.and_self]

section
variable {s t : State} {c : ClockUnit} {l : List (NoticeKind × List Byte)} (h : LossOnly s)
include h

/-- The loss, by the ticks that it credits. -/
theorem exec_timebaseLoss (hticks : creditTicks 3 (withClock s (lostUnit s.clock)) = withRaised t l) :
    exec .timebaseLoss s = done (withRaised (withClock t (countCleared t.clock))
      (l ++ [lostNotice t.clock.value t.clock.house])) := by
  obtain ⟨hloss, hhorn, hexpiry⟩ := h
  refine (if_pos hloss : exec .timebaseLoss s = done (houseAdvance s)).trans (congrArg done ?_)
  rw [houseAdvance_of_no_expiry hexpiry, advanceClock_of_loss hloss, silenced_of_none hhorn]
  have hraised : raiseTimebase (creditTicks 3 (withClock s (lostUnit s.clock))) .timebaseLost =
      withRaised t (l ++ [lostNotice t.clock.value t.clock.house]) := by
    rw [hticks]
    exact raise_withRaised t l _ _
  exact congrArg (fun u => withClock u (countCleared u.clock)) hraised

/-- The loss where the ticks credited raise nothing. -/
theorem exec_timebaseLoss_plain (quiet : Quiet s)
    (hticks : creditTicks 3 (withClock s (lostUnit s.clock)) = withClock s c) :
    exec .timebaseLoss s = .next (takeOccurrence (withClock s (countCleared c)) .timebaseLost
      (lostNotice c.value c.house).2) := by
  have hraised : withRaised (withClock s c) [] = withClock s c :=
    congrArg (fun r => { withClock s c with report := { s.report with raised := r } })
      (List.append_nil s.report.raised)
  have hquiet : Quiet (withClock s (countCleared c)) := quiet.of_report rfl
  rw [exec_timebaseLoss h (hticks.trans hraised.symm), done]
  exact congrArg _ (settle_withRaised_one hquiet _ _)

/-- The loss where the ticks credited raise something. -/
theorem exec_timebaseLoss_raising (ht : t.report.raised = [])
    (hticks : creditTicks 3 (withClock s (lostUnit s.clock)) = withRaised t l) (hl : l ≠ []) :
    ∃ u, exec .timebaseLoss s = .next u ∧ takenInAnyOrder (withClock t (countCleared t.clock)) u
      (lostNotice t.clock.value t.clock.house :: l) := by
  refine ⟨_, exec_timebaseLoss h hticks,
    settle_withRaised (t := withClock t (countCleared t.clock)) ht ?_ (List.perm_append_singleton _ l).symm⟩
  have := List.length_pos_iff.2 hl
  rw [List.length_append, List.length_singleton]
  omega

end

/-! ### The stop record beside the return count -/

section
variable {s : State} (gate : Bool) (c : ClockUnit) (target : GameState) (cause : ClockCause)

theorem configured_countCleared (frame : FrameNo) (new : ClockConfig) :
    configured gate frame new (countCleared c) = countCleared (configured gate frame new c) := by
  by_cases h : Evaluates new c ∧ (c.soft = true ∧ (gate = true ∨ new.gateOverride = true)) ∧
      (adopted new c).state = .stopped
  · obtain ⟨he, hw, hs⟩ := h
    by_cases hz : new.mode = .down ∧ c.value = 0
    · rw [configured_of_zero he hw hs hz, configured_of_zero (c := countCleared c) he hw hs hz]
      rfl
    · rw [configured_of_wanted he hw hs hz, configured_of_wanted (c := countCleared c) he hw hs hz]
      rfl
  · rw [configured_of_idle h, configured_of_idle (c := countCleared c) h]
    rfl

theorem stoppedConfigured_countCleared : stoppedConfigured s gate (countCleared c) target cause =
    countCleared (stoppedConfigured s gate c target cause) := by
  unfold stoppedConfigured
  split
  · exact configured_countCleared gate (stopped c s.comp.frame target cause) _ _
  · rfl

end

/-- The loss where one of the ticks credited ends RUNNING: the stop is the one of the cleared count. -/
theorem exec_timebaseLoss_stopping {s : State} {d : ClockUnit} {target : GameState} {cause : ClockCause}
    {l : List (NoticeKind × List Byte)} (h : LossOnly s) (quiet : Quiet s)
    (hticks : creditTicks 3 (withClock s (lostUnit s.clock)) = withRaised
      (refreshDue (withClock s (stoppedConfigured s s.gateRun d target cause)) .clockStop) l)
    (hl : l ≠ []) :
    ∃ u, exec .timebaseLoss s = .next u ∧ takenInAnyOrder
      (refreshDue (withClock s (stoppedConfigured s s.gateRun (countCleared d) target cause)) .clockStop) u
      (lostNotice d.value d.house :: l) := by
  obtain ⟨hhouse, -, hvalue, -⟩ := stoppedConfigured_frame (t := s) s.gateRun d target cause
  rw [stoppedConfigured_countCleared]
  generalize stoppedConfigured s s.gateRun d target cause = e at hticks hhouse hvalue ⊢
  rw [← hhouse, ← hvalue]
  exact exec_timebaseLoss_raising h (t := refreshDue (withClock s e) .clockStop) quiet.1 hticks hl

section
variable {s : State} (h : LossOnly s) (quiet : Quiet s) (hr : s.clock.state = .running)
include h quiet hr

/-- The clock unit whose game value is `value` after `ticks` ticks credited at the loss. -/
def creditedUnit (c : ClockUnit) (value ticks : Nat) : ClockUnit :=
  { lostUnit c with value := value, shotValue := shotAfter ticks c }

theorem exec_timebaseLoss_of_zero (hm : s.clock.config.mode = .down) (hv : s.clock.value ≤ 3)
    (hspot : periodSpotEnable s.path.shadow = false) (hs : ShotLasts (max 1 s.clock.value) s.clock) :
    ∃ u, exec .timebaseLoss s = .next u ∧ takenInAnyOrder
      (refreshDue (withClock s (stoppedConfigured s s.gateRun
        (countCleared (sounding (creditedUnit s.clock 0 (max 1 s.clock.value)))) .expired .expiry)) .clockStop)
      u [lostNotice 0 (s.clock.house + 1), stopNotice .expiry s.clock.period 0,
        periodEndNotice 0 s.clock.period (s.clock.house + 1)] := by
  have hticks := creditTicks_of_zero s (c := lostUnit s.clock) hr hm hv hs
  rw [expireClock_withClock (by rfl), periodEndSpot_of_disabled (by exact hspot), atExpiry] at hticks
  exact exec_timebaseLoss_stopping h quiet hticks (List.cons_ne_nil _ _)

theorem exec_timebaseLoss_of_limit (hm : s.clock.config.mode = .up) (hlow : clockLimit ≤ s.clock.value + 3)
    (hhigh : s.clock.value ≤ clockLimit) (hp : s.clock.config.setPoint ≤ s.clock.value)
    (hs : ShotLasts (max 1 (clockLimit - s.clock.value)) s.clock) :
    ∃ u, exec .timebaseLoss s = .next u ∧ takenInAnyOrder
      (refreshDue (withClock s (stoppedConfigured s s.gateRun
        (countCleared { creditedUnit s.clock clockLimit (max 1 (clockLimit - s.clock.value)) with
          soft := false }) .stopped .limit)) .clockStop)
      u [lostNotice clockLimit (s.clock.house + 1), stopNotice .limit s.clock.period clockLimit,
        limitNotice s.clock.period clockLimit] := by
  have hticks := creditTicks_of_limit s (c := lostUnit s.clock) hr hm hlow hhigh hp hs
  rw [reachLimit_withClock (by rfl), atLimit] at hticks
  exact exec_timebaseLoss_stopping h quiet hticks (List.cons_ne_nil _ _)

end

/-! ### The return (R63) -/

/-- The clock unit back on EXTERNAL. -/
def restoredUnit (c : ClockUnit) : ClockUnit :=
  { c with
    source := .external, returns := 0, lastReturn := c.house,
    watch := if c.state = .running then some c.house else c.watch }

theorem countReturn_of_eighth {s : State} (h : nextReturns s.clock = 8) : countReturn s =
    raiseTimebase (withClock s (restoredUnit s.clock)) .timebaseRestored := if_pos h

/-- The eighth returning edge restores the timebase. -/
theorem exec_timebaseRestore_of_eighth {s : State} (quiet : Quiet s) (hi : s.clock.source = .internal)
    (hseven : s.clock.returns = 7) (hsoon : (s.clock.house - s.clock.lastReturn).toNat ≤ 3) :
    exec .timebaseRestore s = .next (takeOccurrence (withClock s (restoredUnit s.clock)) .timebaseRestored
      (layout 16 [(4, leBytes 4 s.clock.value), (8, leBytes 4 s.clock.house.toNat)])) := by
  have hnext : nextReturns s.clock = 8 := by
    rw [nextReturns, if_neg (by omega), hseven]
  have hdue : restoreDue s = true := by
    rw [restoreDue, hi, hnext]
    rfl
  have hquiet : Quiet (withClock s (restoredUnit s.clock)) := quiet.of_report rfl
  refine (if_pos hdue : exec .timebaseRestore s = done (timebaseEdge s)).trans ?_
  rw [timebaseEdge_of_internal hi, countReturn_of_eighth hnext]
  exact congrArg _ (settle_raise_quiet _ hquiet _ _)

/-- Settles O23: the ticks credited by their end, the eighth return by its count. -/
theorem timebaseIsLostAndRestored : Obligations.TimebaseIsLostAndRestored := by
  intro s quiet c
  have loses : ∀ m, c.state = .running → c.source = .external → c.watch = some m →
      reached (c.house + 1) (m + 3) = true → hornDue s = false → expiryDue s = false → LossOnly s :=
    fun m hr he hm hreached hhorn hexpiry => ⟨lossDue_of_watch hr he hm hreached, hhorn, hexpiry⟩
  have plain : LossOnly s → c.state = .running → GameLasts 3 c → ShotLasts 3 c →
      exec .timebaseLoss s = .next (takeOccurrence (withClock s (countCleared (after 3 (lostUnit c))))
        .timebaseLost (lostNotice (valueAfter 3 c) (c.house + 1)).2) := fun hloss hr hg hs =>
    exec_timebaseLoss_plain hloss quiet
      (creditTicks_of_lasts (s := withClock s (lostUnit c)) hr hg hs 0)
  refine ⟨fun m hr he hm hreached hhorn hexpiry hmode hv hs => ?_,
    fun m hr he hm hreached hhorn hexpiry => ?_, fun hi hseven hsoon => ?_⟩
  · have hg : GameLasts 3 c := gameLasts_of_down hmode hv
    have hvalue : valueAfter 3 c = c.value - 3 := valueAfter_down hmode
    rw [plain (loses m hr he hm hreached hhorn hexpiry) hr hg hs, after,
      valueAfter_down (c := lostUnit c) hmode, hvalue]
    rfl
  · intro lost left sounds notice answers shotOver shotLeft climbs
    have hloss := loses m hr he hm hreached hhorn hexpiry
    have lasts : ¬shotOver → ShotLasts 3 c := fun hnot => by
      by_cases hon : c.shotOn = true
      · have : ¬(1 ≤ c.shotValue ∧ c.shotValue ≤ 3) := fun h => hnot ⟨hon, h⟩
        exact .inr (by omega)
      · exact .inl (Bool.eq_false_iff.2 hon)
    have climbing : climbs → GameLasts 3 c := fun ⟨hmode, hlimit, hpoint⟩ =>
      gameLasts_of_up hmode hlimit hpoint
    refine ⟨fun hshot hclimbs => ?_, fun hshot hmode hlimit hbelow hreach => ?_, ?_, ?_, ?_⟩
    · have hvalue : valueAfter 3 c = c.value + 3 := valueAfter_up hclimbs.1
      rw [plain hloss hr (climbing hclimbs) (lasts hshot), after,
        valueAfter_up (c := lostUnit c) hclimbs.1, hvalue]
      rfl
    · have hticks := creditTicks_of_setPoint s (c := lostUnit c) hr (lasts hshot) hmode hlimit hbelow hreach
      have hanswer := exec_timebaseLoss_raising hloss (by exact quiet.1) hticks (by simp)
      rw [after, valueAfter_up (c := lostUnit c) hmode] at hanswer
      exact hanswer
    · intro hover hgame value
      obtain ⟨hon, hlow, hhigh⟩ := hover
      have hg : GameLasts 3 c := by
        rcases hgame with h | ⟨hmode, hv⟩
        · exact climbing h
        · exact gameLasts_of_down hmode hv
      have hticks := creditTicks_of_shot s (c := lostUnit c) hr hg hon hlow hhigh
      have hanswer := exec_timebaseLoss_raising hloss (by exact quiet.1) hticks (by simp)
      have hvalue : ∀ k, valueAfter k (lostUnit c) = value k := fun k => by
        cases hmode : c.config.mode with
        | down => exact (valueAfter_down hmode).trans (if_neg (by rw [hmode]; decide)).symm
        | up => exact (valueAfter_up hmode).trans (if_pos hmode).symm
      have hzero : shotAfter 3 (lostUnit c) = 0 := (if_pos hon).trans (Nat.sub_eq_zero_of_le hhigh)
      rw [after, hvalue, hvalue, hzero] at hanswer
      exact hanswer
    · intro ticks atZero hmode hv hspot hs
      exact exec_timebaseLoss_of_zero hloss quiet hr hmode hv hspot hs
    · intro ticks atLimit hmode hlow hhigh hpoint hs
      have hlast : clockLimit ≤ c.value + 3 := by unfold clockLimit; omega
      exact exec_timebaseLoss_of_limit hloss quiet hr hmode hlast hhigh hpoint hs
  · exact exec_timebaseRestore_of_eighth quiet hi hseven hsoon

end Sys2Proof.ClockProofs
end

section
/-! A capture into the team records: which score rises, and what a rise asks for (R82, R83, R85, R87). -/

namespace Sys2Proof.ScoreProofs
open Sys2Proof.Machine Sys2Proof.FrameProofs Sys2Proof.SponsorProofs Sys2Proof.ClockProofs

/-! ### Bytes that a merge does not name -/

/-- A write into a sparse table leaves every other key, in canonical form or not. -/
theorem lookup_put_other {α : Type} [DecidableEq α] (d : α) (m : List (Nat × α)) {a b : Nat} (v : α)
    (h : b ≠ a) : lookup d (put d m a v) b = lookup d m b := by
  induction m with
  | nil => by_cases hv : v = d <;> simp [put, lookup, hv, h]
  | cons x m ih =>
    obtain ⟨k, w⟩ := x
    unfold put
    split
    · by_cases hv : v = d <;> simp [lookup, hv, h]
    · split
      · next hk =>
        by_cases hv : v = d <;> simp [lookup, hv, h, ← hk]
      · simp only [lookup, ih]

theorem readByte_writeAll_of_not_reached (bytes : List (Nat × Byte)) (m : Memory) {a : Nat}
    (h : ∀ x ∈ bytes, x.1 ≠ a) : readByte (writeAll m bytes) a = readByte m a := by
  induction bytes generalizing m with
  | nil => rfl
  | cons x bytes ih =>
    obtain ⟨hx, hrest⟩ := List.forall_mem_cons.1 h
    exact (ih _ hrest).trans (lookup_put_other 0 m x.2 hx.symm)

/-- A little-endian field depends on its own bytes alone. -/
theorem readLE_congr {m m' : Memory} (n : Nat) {off : Nat}
    (h : ∀ i, i < n → readByte m (off + i) = readByte m' (off + i)) : readLE m off n = readLE m' off n := by
  induction n generalizing off with
  | zero => rfl
  | succ n ih =>
    have hrest : readLE m (off + 1) n = readLE m' (off + 1) n := ih fun i hi => by
      rw [Nat.add_right_comm]
      exact h (i + 1) (Nat.succ_lt_succ hi)
    have hfirst : readByte m off = readByte m' off := h 0 n.succ_pos
    rw [readLE, readLE, hrest, hfirst]

/-- A capture that reaches no byte of a team's record leaves its score. -/
theorem teamScore_of_not_reached {bytes : List (Nat × Byte)} {x : Team}
    (h : reaches bytes (teamOffset x) 32 = false) (m : Memory) :
    teamScore (writeAll m bytes) x = teamScore m x := by
  refine congrArg (min 999) (readLE_congr 2 fun i hi =>
    readByte_writeAll_of_not_reached bytes m fun b hb => ?_)
  have := (reaches_eq_false_iff _ _ _).1 h b hb
  omega

/-! ### What a rise does -/

/-- The flash and the cut that a rise of this team's score asks for (R85, R87). -/
def scoreRisen (s : State) (x : Team) : State := sendCut (askFlash s x)

theorem scoreRisen_eq (s : State) (x : Team) : scoreRisen s x = { s with
    score := { s.score with
      flashAsk := if (s.report.mode == .live) && flashEnable s.path.shadow then some x
        else s.score.flashAsk },
    replay := { s.replay with
      cutPending := s.replay.cutPending ||
        ((s.report.mode == .live) && cutOnScore s.path.shadow && s.replay.playback != .live) } } := by
  have ask : askFlash s x = { s with score := { s.score with
      flashAsk := if (s.report.mode == .live) && flashEnable s.path.shadow then some x
        else s.score.flashAsk } } := by
    unfold askFlash
    split
    · next h => simp [h]
    · next h => simp [h]
  have cut : ∀ t, sendCut t = { t with replay := { t.replay with
      cutPending := t.replay.cutPending ||
        ((t.report.mode == .live) && cutOnScore t.path.shadow && t.replay.playback != .live) } } := by
    intro t
    unfold sendCut
    split
    · next h => simp [h]
    · next h =>
      have : ((t.report.mode == .live) && cutOnScore t.path.shadow && t.replay.playback != .live) = false := by
        simpa [Bool.and_assoc] using h
      rw [this, Bool.or_false]
  rw [scoreRisen, cut, ask]

/-- The fields of SCORE_CHANGE (ch. 12.6). -/
def changeFields (x : Team) (old new : Nat) : List (Nat × List Byte) :=
  [(0, leBytes 1 x.code), (2, leBytes 2 old), (4, leBytes 2 new)]

theorem scoreRise_eq (s : State) (x : Team) (old new : Nat) :
    scoreRise s x old new = raise (scoreRisen s x) .scoreChange (changeFields x old new) := by
  change scoreRisen (raise s .scoreChange (changeFields x old new)) x = _
  rw [scoreRisen_eq, scoreRisen_eq]
  rfl

theorem teamCaptured_of_rise {s : State} {x : Team} {old : Nat} (h : old < teamScore s.path.shadow x) :
    teamCaptured s x old = raise (scoreRisen s x) .scoreChange
      (changeFields x old (teamScore s.path.shadow x)) :=
  (if_pos h).trans (scoreRise_eq s x old _)

theorem teamCaptured_of_no_rise {s : State} {x : Team} {old : Nat}
    (h : teamScore s.path.shadow x ≤ old) : teamCaptured s x old = s := if_neg (Nat.not_lt.2 h)

theorem scoreRisen_raise (s : State) (x : Team) (k : NoticeKind) (d : List (Nat × List Byte)) :
    scoreRisen (raise s k d) x = raise (scoreRisen s x) k d := by
  rw [scoreRisen_eq, scoreRisen_eq]
  rfl

/-- Of two rises the later one's flash stands (R85). -/
theorem scoreRisen_twice (s : State) (x y : Team) : scoreRisen (scoreRisen s x) y = scoreRisen s y := by
  simp only [scoreRisen_eq, Bool.or_assoc, Bool.or_self]
  congr 2
  split <;> rfl

theorem shadow_scoreRisen (s : State) (x : Team) : (scoreRisen s x).path.shadow = s.path.shadow := by
  rw [scoreRisen_eq]

theorem shadow_teamCaptured (s : State) (x : Team) (old : Nat) :
    (teamCaptured s x old).path.shadow = s.path.shadow := by
  by_cases h : old < teamScore s.path.shadow x
  · rw [teamCaptured_of_rise h]
    exact shadow_scoreRisen s x
  · rw [teamCaptured_of_no_rise (Nat.not_lt.1 h)]

theorem quiet_scoreRisen {s : State} (h : Quiet s) (x : Team) : Quiet (scoreRisen s x) := by
  rw [scoreRisen_eq]
  exact h

/-- Two rises, judged one after the other: both changes, and what the later rise asks for. -/
theorem teamCaptured_of_two_rises {s : State} {x y : Team} {p q : Nat} (hx : p < teamScore s.path.shadow x)
    (hy : q < teamScore s.path.shadow y) : teamCaptured (teamCaptured s x p) y q =
      raise (raise (scoreRisen s y) .scoreChange (changeFields x p (teamScore s.path.shadow x)))
        .scoreChange (changeFields y q (teamScore s.path.shadow y)) := by
  rw [← shadow_teamCaptured s x p] at hy
  rw [teamCaptured_of_rise hy, shadow_teamCaptured, teamCaptured_of_rise hx, scoreRisen_raise,
    scoreRisen_twice]

/-! ### Two occurrences of one kind -/

theorem freeOrder_pair_of_key_eq {α : Type} (draw : Nat) {key : α → Nat} {a b : α} (h : key a = key b) :
    freeOrder draw key [a, b] = [a, b] := by
  simp [freeOrder, sortByRank, insertByRank, h]

/-- The state that one more free order has been drawn in (log 1). -/
def orderDrawn (s : State) : State := { s with report := { s.report with draws := s.report.draws + 1 } }

/-- Two occurrences of one kind on a quiet state are taken in the order in which they were raised. -/
theorem settle_raise_raise {s : State} (h : Quiet s) (k : NoticeKind) (d e : List (Nat × List Byte)) :
    settle (raise (raise s k d) k e) =
      takeOccurrence (takeOccurrence (orderDrawn s) k (layout 16 d)) k (layout 16 e) := by
  have hraised : (raise (raise s k d) k e).report.raised =
      [.occurrence k (layout 16 d), .occurrence k (layout 16 e)] := by
    change (s.report.raised ++ [_]) ++ [_] = _
    rw [h.1]
    rfl
  have horder : raisedOrder (raise (raise s k d) k e).report =
      [.occurrence k (layout 16 d), .occurrence k (layout 16 e)] := by
    rw [raisedOrder, hraised, if_neg (by simp), freeOrder_pair_of_key_eq _ (by rfl)]
  have hempty : (setReport (raise (raise s k d) k e) fun r =>
      { r with raised := [], draws := if r.raised.length < 2 then r.draws else r.draws + 1 }) =
      orderDrawn s := by
    simp only [setReport, hraised]
    rw [orderDrawn, ← h.1]
    rfl
  rw [settle, takeRaised, horder, hempty]
  refine refreshStart_of_quiet _ ?_
  change (takeOccurrence (takeOccurrence (orderDrawn s) k _) k _).report.held = none ∨
    (takeOccurrence (takeOccurrence (orderDrawn s) k _) k _).report.snapshot.isSome = true
  simp only [takeOccurrence_held, takeOccurrence_snapshot]
  exact h.2

/-! ### The capture (R82, R83) -/

/-- The judging of a record that the capture does not reach finds no rise. -/
theorem reacting_teamCaptured {bytes : List (Nat × Byte)} {s : State} (x : Team) {m : Memory}
    (hs : s.path.shadow = writeAll m bytes) :
    reacting (reaches bytes (teamOffset x) 32) (fun t => teamCaptured t x (teamScore m x)) s =
      teamCaptured s x (teamScore m x) := by
  cases hreach : reaches bytes (teamOffset x) 32 with
  | true => rfl
  | false =>
    refine (teamCaptured_of_no_rise (s := s) ?_).symm
    rw [hs, teamScore_of_not_reached hreach]

section
variable {bytes : List (Nat × Byte)} (h : ∀ b ∈ bytes, 0x2000 ≤ b.1 ∧ b.1 < 0x2040)
include h

/-- A capture into the team records reaches nothing below or beyond them. -/
theorem reaches_beside_teams {off n : Nat} (hoff : off + n ≤ 0x2000 ∨ 0x2040 ≤ off) :
    reaches bytes off n = false := by
  refine (reaches_eq_false_iff bytes off n).2 fun b hb => ?_
  have := h b hb
  omega

/-- Of the record units the score unit alone acts on a capture into the team records, home first. -/
theorem recordReactions_of_teams {s : State} {m : Memory} (hs : s.path.shadow = writeAll m bytes) :
    recordReactions s bytes (teamScore m .home) (teamScore m .away) =
      teamCaptured (teamCaptured s .home (teamScore m .home)) .away (teamScore m .away) := by
  have entries : reachedEntries bytes = [] := by
    refine List.filter_eq_nil_iff.2 fun i _ => ?_
    rw [reaches_beside_teams h (.inr (by unfold sponsorOffset; omega))]
    exact Bool.false_ne_true
  have home := reacting_teamCaptured .home hs
  have away := reacting_teamCaptured .away ((shadow_teamCaptured s .home (teamScore m .home)).trans hs)
  rw [← home] at away
  rw [recordReactions, entries, List.foldl_nil]
  exact away.trans (congrArg (teamCaptured · .away (teamScore m .away)) home)

/-- The score unit alone acts on a capture into the team records. -/
theorem capture_of_teams {s : State} {w : WriteReq} (hb : captureBytes s w = bytes) :
    capture s w = teamCaptured
      (teamCaptured (mergeCapture s bytes) .home (teamScore s.path.shadow .home))
      .away (teamScore s.path.shadow .away) := by
  have geometry : reachesGeometry bytes = false := by
    refine List.any_eq_false.2 fun f hf => ?_
    have hoff : f.off + f.width ≤ 0x2000 := by
      revert f
      decide
    rw [reaches_beside_teams h (.inl hoff)]
    exact Bool.false_ne_true
  have words : completedWords bytes = [] := by
    refine List.filter_eq_nil_iff.2 fun w _ => ?_
    have := wordOffset_bounds w
    rw [reaches_beside_teams h (.inl (by omega))]
    exact Bool.false_ne_true
  have below := fun off n hoff => @reaches_beside_teams bytes h off n (.inl hoff)
  have records := recordReactions_of_teams h (s := mergeCapture s bytes) (m := s.path.shadow) rfl
  simp only [capture, hb, words, takeRequests, wordReactions, configReactions, geometry, reacting,
    below 0x240 32 (by decide), below 0x1070 2 (by decide), below 0x1060 2 (by decide), records,
    Bool.false_eq_true, if_false]

end

/-- Settles O41: the score unit alone acts on the capture, home first, and a rise comes to `scoreRisen` and
its SCORE_CHANGE. -/
theorem scoreRisesAskForFlashAndCut : Obligations.ScoreRisesAskForFlashAndCut := by
  intro s w quiet hlegal hclass bytes hbytes merged m old live risen change
  have hquiet : Quiet merged := quiet
  have hrisen : ∀ x, scoreRisen merged x = risen x := scoreRisen_eq merged
  have result : exec (.teamRecordCapture w) s =
      done (teamCaptured (teamCaptured merged .home (old .home)) .away (old .away)) := by
    change arriving w s = _
    rw [arriving, if_pos hlegal, arriveWrite, hclass]
    exact congrArg done (capture_of_teams hbytes (s := forwardWrite s w) rfl)
  have taken : ∀ x, done (raise (scoreRisen merged x) .scoreChange
      (changeFields x (old x) (teamScore m x))) =
      .next (takeOccurrence (risen x) .scoreChange (change x)) := fun x => by
    rw [done, settle_raise_quiet _ (quiet_scoreRisen hquiet x), hrisen]
    rfl
  refine ⟨fun hhome haway => ?_, fun x y hne hrise hrest => ?_, fun hhome haway => ?_⟩
  · rw [result, teamCaptured_of_no_rise (s := merged) hhome, teamCaptured_of_no_rise (s := merged) haway,
      done, settle_of_quiet _ hquiet]
  · rw [result, ← taken x]
    cases x with
    | home =>
      obtain rfl : y = .away := by cases y <;> trivial
      rw [teamCaptured_of_rise (s := merged) hrise]
      refine congrArg done (teamCaptured_of_no_rise ?_)
      exact (congrArg (teamScore · .away) (shadow_scoreRisen merged .home)).trans_le hrest
    | away =>
      obtain rfl : y = .home := by cases y <;> trivial
      rw [teamCaptured_of_no_rise (s := merged) hrest, teamCaptured_of_rise (s := merged) hrise]
  · rw [result, teamCaptured_of_two_rises (s := merged) hhome haway, done,
      settle_raise_raise (quiet_scoreRisen hquiet .away), hrisen]
    rfl

end Sys2Proof.ScoreProofs
end

section
/-! The score unit's FRAME_START: the flash and the texts of the bug's fields (R86, R91 to R95). -/

namespace Sys2Proof.ScoreProofs
open Sys2Proof.Machine Sys2Proof.FrameProofs Sys2Proof.SponsorProofs Sys2Proof.ClockProofs

/-! ### The flash (R86) -/

theorem scoreFrame_of_live {s : State} (hm : s.report.mode = .live) :
    (scoreFrame s).score.flashAsk = none ∧ (scoreFrame s).score.flash =
      flashStart s.path.shadow s.score.flashAsk (flashCountdown s.score.flash) := by
  have hflash : flashFrame s = { s with score := { s.score with
      flash := flashStart s.path.shadow s.score.flashAsk (flashCountdown s.score.flash)
      flashAsk := none } } := by
    rw [flashFrame, hm]
  rw [scoreFrame, hflash]
  exact ⟨rfl, rfl⟩

theorem flashCountdown_of_last {f : Flash} (h : f.remaining ≤ 1) : flashCountdown (some f) = none :=
  if_pos h

theorem flashCountdown_of_more {f : Flash} (h : 2 ≤ f.remaining) :
    flashCountdown (some f) = some { f with remaining := f.remaining - 1 } := if_neg (by omega)

/-- The state the score unit finds at a FRAME_START. -/
def frameReplayed (s : State) : State := replayFrame (frameOpened s)

section
variable (s : State)

/-- A part of the state that the mode's and the replay unit's handling both keep. -/
theorem frameReplayed_keeps {β : Type} (view : State → β) (hmode : ∀ t, view (sansMode t) = view t)
    (hreplay : ∀ t, view (sansReplay t) = view t) : view (frameReplayed s) = view (openFrame s) := by
  rw [frameReplayed, ← hreplay, sansReplay_replayFrame, hreplay, ← hmode, frameOpened,
    sansMode_modeFrame, hmode]

theorem score_frameReplayed : (frameReplayed s).score = s.score :=
  frameReplayed_keeps s State.score (fun _ => rfl) fun _ => rfl

theorem path_frameReplayed : (frameReplayed s).path = s.path :=
  frameReplayed_keeps s State.path (fun _ => rfl) fun _ => rfl

theorem clock_frameReplayed : (frameReplayed s).clock = s.clock :=
  frameReplayed_keeps s State.clock (fun _ => rfl) fun _ => rfl

theorem mode_frameReplayed : (frameReplayed s).report.mode = modeAhead s :=
  (congrArg (fun t => t.report.mode) (sansReplay_replayFrame (frameOpened s)) :).trans (mode_frameOpened s)

theorem replay_frameOpened : (frameOpened s).replay = s.replay :=
  (congrArg State.replay (sansMode_modeFrame (openFrame s)) :)

/-- The score unit after a FRAME_START, and the replay unit, from which it has the stamps. -/
theorem score_settle_frameStart : (settle (frameStart s)).score = (scoreFrame (frameReplayed s)).score ∧
    (settle (frameStart s)).replay = (frameReplayed s).replay := by
  obtain ⟨-, hreplay, hscore, -⟩ := units_of_aside (aside_frameEnd (frameUnits s))
  rw [← settle_frameStart] at hreplay hscore
  exact ⟨hscore.trans (score_frameUnits s), hreplay.trans (replay_frameUnits s)⟩

end

/-- The flash after a LIVE FRAME_START (R86). -/
theorem flash_settle_frameStart {s : State} (hlive : modeAhead s = .live) :
    (settle (frameStart s)).score.flashAsk = none ∧ (settle (frameStart s)).score.flash =
      flashStart s.path.shadow s.score.flashAsk (flashCountdown s.score.flash) := by
  have h := scoreFrame_of_live ((mode_frameReplayed s).trans hlive)
  rwa [path_frameReplayed, score_frameReplayed, ← (score_settle_frameStart s).1] at h

/-! ### The texts of the fields (R91 to R95) -/

/-- The text that a bug field shows, before the cut to its cells (R91, R93 to R95). -/
def FieldTextOf (s t : State) (source : FieldSource) (text : List Nat) : Prop :=
  let m := s.path.shadow
  let c := s.clock
  match source with
  | .none => text = []
  | .score w => DecimalOf (teamScore m w) text
  | .abbr w => text = teamAbbr m w
  | .timeouts w => DecimalOf (teamTimeouts m w) text
  | .fouls w => DecimalOf (teamFouls m w) text
  | .period => DecimalOf c.period text
  | .clock => ClockTextOf c.config.mode c.value text
  | .shot =>
    let blank := c.shotOn = false ∨ (c.config.mode = .down ∧ c.value < c.shotValue)
    (blank → text = []) ∧ (¬blank → ShotTextOf c.shotValue text)
  | .replayClock =>
    match programSource t with
    | .liveCanvas => text = []
    | .slot k => ClockTextOf (slotAt t k).stampMode (slotAt t k).stampValue text

theorem shotBlank_iff (s : State) : shotBlank s = true ↔
    (s.clock.shotOn = false ∨ (s.clock.config.mode = .down ∧ s.clock.value < s.clock.shotValue)) := by
  have hoff : (shotState s.clock == .off) = true ↔ s.clock.shotOn = false := by
    unfold shotState
    cases s.clock.shotOn with
    | false => simp
    | true =>
      rw [if_neg (by decide)]
      by_cases h0 : s.clock.shotValue = 0 <;> by_cases hr : s.clock.state = .running <;> simp [h0, hr]
  rw [shotBlank, Bool.or_eq_true, hoff, Bool.and_eq_true, beq_iff_eq, decide_eq_true_eq]

theorem fieldText_spec (s : State) (source : FieldSource) :
    FieldTextOf s s source (fieldText s source) := by
  cases source with
  | none | abbr => rfl
  | score | timeouts | fouls | period => exact decimal_spec _
  | clock => exact clockText_spec _ _
  | shot =>
    refine ⟨fun hblank => if_pos ((shotBlank_iff s).2 hblank), fun hblank => ?_⟩
    rw [fieldText, if_neg (mt (shotBlank_iff s).1 hblank)]
    exact shotText_spec _
  | replayClock =>
    unfold FieldTextOf fieldText
    dsimp only
    cases programSource s with
    | liveCanvas => rfl
    | slot k => exact clockText_spec _ _

/-- The text rests on the shadow, the clock unit and the replay unit alone. -/
theorem fieldTextOf_congr {s t u : State} (hpath : u.path = s.path) (hclock : u.clock = s.clock)
    (hreplay : u.replay = t.replay) {source : FieldSource} {text : List Nat}
    (h : FieldTextOf u u source text) : FieldTextOf s t source text := by
  have hslot : slotAt u = slotAt t := by
    funext k
    rw [slotAt, slotAt, hreplay]
  unfold FieldTextOf at h ⊢
  rwa [hpath, hclock, hslot, programSource_congr hreplay] at h

/-- The cut of a text to its cells (R92). -/
theorem cutText_spec (source : FieldSource) (cells : Nat) (codes : List Nat) :
    ((∃ w, source = .abbr w) → cutText source cells codes = codes.take cells) ∧
    ((∀ w, source ≠ .abbr w) → cutText source cells codes = codes.drop (codes.length - cells)) := by
  refine ⟨by rintro ⟨w, rfl⟩; rfl, fun h => ?_⟩
  cases source with
  | abbr w => exact absurd rfl (h w)
  | _ => rfl

/-- `x` is bug field `f` as the FRAME_START from `s` to `t` renders it (R91, R92). -/
def FieldRendered (s t : State) (f : Nat) (x : RenderedField) : Prop :=
  let m := s.path.shadow
  let source := fieldSource m f
  let cells := fieldCells m f
  x.x = fieldX m f ∧ x.y = fieldY m f ∧ x.cells = cells ∧ x.right = fieldRight m f ∧
  ∃ text, FieldTextOf s t source text ∧
    ((∃ w, source = .abbr w) → x.codes = text.take cells) ∧
    ((∀ w, source ≠ .abbr w) → x.codes = text.drop (text.length - cells))

theorem fieldRendered_renderField {s t u : State} (hpath : u.path = s.path) (hclock : u.clock = s.clock)
    (hreplay : u.replay = t.replay) (f : Nat) : FieldRendered s t f (renderField u f) := by
  have htext := fieldTextOf_congr hpath hclock hreplay (fieldText_spec u (fieldSource s.path.shadow f))
  have hcut := cutText_spec (fieldSource s.path.shadow f) (fieldCells s.path.shadow f)
    (fieldText u (fieldSource s.path.shadow f))
  rw [renderField, hpath]
  exact ⟨rfl, rfl, rfl, rfl, _, htext, hcut⟩

theorem flashFrame_eq (s : State) : flashFrame s = { s with score := (flashFrame s).score } := by
  unfold flashFrame
  split <;> rfl

/-- The fields after a FRAME_START (R86, R92). -/
theorem fields_settle_frameStart (s : State) : (settle (frameStart s)).score.fields.length = 12 ∧
    ∀ f x, (settle (frameStart s)).score.fields[f]? = some x →
      FieldRendered s (settle (frameStart s)) f x := by
  obtain ⟨hscore, hreplay⟩ := score_settle_frameStart s
  have hfields : (settle (frameStart s)).score.fields =
      (List.range 12).map (renderField (flashFrame (frameReplayed s))) := by
    rw [hscore]
    rfl
  refine ⟨by rw [hfields, List.length_map, List.length_range], fun f x hx => ?_⟩
  rw [hfields, List.getElem?_map, Option.map_eq_some_iff] at hx
  obtain ⟨f', hf, rfl⟩ := hx
  obtain ⟨-, rfl⟩ := List.getElem?_eq_some_iff.1 hf
  rw [List.getElem_range, flashFrame_eq]
  exact fieldRendered_renderField (path_frameReplayed s) (clock_frameReplayed s) hreplay.symm f

end Sys2Proof.ScoreProofs
end

section
/-! The commands that name a FRAME_START's cases, and their settling with the flash and the bug (R40, R45,
R86, R121 to R123). -/

namespace Sys2Proof.ScoreProofs
open Sys2Proof.Machine Sys2Proof.FrameProofs Sys2Proof.SponsorProofs Sys2Proof.ClockProofs

/-! ### The ends of a bumper and of a clip (R121 to R123) -/

theorem playback_markShown (s : State) : (markShown s).replay.playback = s.replay.playback := by
  unfold markShown
  split <;> rfl

theorem playback_endReplay (s : State) (cause : EndCause) :
    (endReplay s cause).replay.playback = .live := playback_returnLive s

/-- The end action takes the clip off the air (R122). -/
theorem playback_endAction (s : State) : (endAction s).replay.playback ≠ .onAir := by
  unfold endAction
  dsimp only
  split
  · exact nofun
  · split
    · exact nofun
    · rw [playback_endReplay]
      exact nofun

section
variable {s : State}

theorem advanceReplay_of_entering (h : s.replay.playback = .entering) (hdone : bumperDone s = true) :
    advanceReplay s = startReplay s (s.replay.clip.getD 16) := by
  rw [advanceReplay, h]
  exact if_pos hdone

theorem advanceReplay_of_leaving (h : s.replay.playback = .leaving) (hdone : bumperDone s = true) :
    advanceReplay s = endReplay s s.replay.leaveCause := by
  rw [advanceReplay, h]
  exact if_pos hdone

theorem advanceReplay_of_end (h : s.replay.playback = .onAir) (hdone : positionDone s = true)
    (hout : (playingClip s).outPoint ≤ s.replay.position) : advanceReplay s = endAction s := by
  rw [advanceReplay, h]
  simp [hdone, Nat.not_lt.2 hout]

theorem bumperDone_of_last {i b : Nat} (h : s.replay.bumper = some (i, b)) (hb : b ≤ i + 1) :
    bumperDone s = true := by
  rw [bumperDone, h]
  exact decide_eq_true hb

theorem playingClip_of_clip {c : Nat} (h : s.replay.clip = some c) : playingClip s = clipAt s c := by
  rw [playingClip, h]
  rfl

theorem clipAt_frameOpened (s : State) : clipAt (frameOpened s) = clipAt s := by
  funext c
  rw [clipAt, clipAt, replay_frameOpened]

end

section
variable {s : State} (h : AdvanceAhead s)
include h

theorem replayAdvances_frameOpened : replayAdvances (frameOpened s) = true := by
  obtain ⟨hlive, hcut, hwait⟩ := h
  rw [replayAdvances, mode_frameOpened, replay_frameOpened, hlive, hcut, hwait]
  rfl

/-- The playback after a FRAME_START that advances it (R120). -/
theorem playback_settle_frameStart : (settle (frameStart s)).replay.playback =
    (advanceReplay (frameOpened s)).replay.playback := by
  obtain ⟨hlive, hcut, hwait⟩ := h
  rw [(score_settle_frameStart s).2, frameReplayed, replayFrame, mode_frameOpened, hlive,
    playback_markShown, replayLive, replay_frameOpened, hcut, hwait]
  rfl

variable {i b : Nat} (hbumper : s.replay.bumper = some (i, b)) (hb : b ≤ i + 1)

include hbumper hb in
theorem entering_bumper_ends (hplay : s.replay.playback = .entering) :
    exec .enteringBumperEnd s = .next (settle (frameStart s)) ∧
      (settle (frameStart s)).replay.playback = .onAir := by
  have hdue : enteringEnds s = true := by
    rw [enteringEnds, replayAdvances_frameOpened h, hplay, bumperDone_of_last hbumper hb]
    rfl
  refine ⟨if_pos hdue, ?_⟩
  rw [playback_settle_frameStart h, advanceReplay_of_entering (by rw [replay_frameOpened, hplay])
    (bumperDone_of_last (by rw [replay_frameOpened, hbumper]) hb)]
  rfl

include hbumper hb in
theorem leaving_bumper_ends (hplay : s.replay.playback = .leaving) :
    exec .leavingBumperEnd s = .next (settle (frameStart s)) ∧
      (settle (frameStart s)).replay.playback = .live := by
  have hdue : leavingEnds s = true := by
    rw [leavingEnds, replayAdvances_frameOpened h, hplay, bumperDone_of_last hbumper hb]
    rfl
  refine ⟨if_pos hdue, ?_⟩
  rw [playback_settle_frameStart h, advanceReplay_of_leaving (by rw [replay_frameOpened, hplay])
    (bumperDone_of_last (by rw [replay_frameOpened, hbumper]) hb), playback_endReplay]

theorem clip_end_acts {c : Nat} (hplay : s.replay.playback = .onAir) (hclip : s.replay.clip = some c)
    (hrate : (clipAt s c).rate ≤ s.replay.counter + 1)
    (hout : (clipAt s c).outPoint ≤ s.replay.position) :
    exec .clipEndAction s = .next (settle (frameStart s)) ∧
      (settle (frameStart s)).replay.playback ≠ .onAir := by
  have hplaying := playingClip_of_clip hclip
  have hopened : playingClip (frameOpened s) = clipAt s c := by
    rw [playingClip_of_clip (by rw [replay_frameOpened, hclip]), clipAt_frameOpened]
  have hdone : positionDone s = true := by
    rw [positionDone, hplaying]
    exact decide_eq_true hrate
  have hdue : endActionDue s = true := by
    rw [endActionDue, replayAdvances_frameOpened h, hplay, hdone, hplaying, decide_eq_true hout]
    rfl
  refine ⟨if_pos hdue, ?_⟩
  rw [playback_settle_frameStart h, advanceReplay_of_end (by rw [replay_frameOpened, hplay])
    (by rw [positionDone, hopened, replay_frameOpened]; exact decide_eq_true hrate)
    (by rw [hopened, replay_frameOpened]; exact hout)]
  exact playback_endAction _

end

/-! ### The statement -/

/-- A running flash at its last frame is due at FLASH_END (R86; log 5). -/
theorem exec_flashEnd_of_last {s : State} {f : Flash} (hlive : modeAhead s = .live)
    (hf : s.score.flash = some f) (hlast : f.remaining ≤ 1) : exec .flashEnd s = exec .frameStart s := by
  have hdue : flashEnds s = true := by
    rw [flashEnds, mode_frameOpened, hlive, hf]
    exact decide_eq_true hlast
  exact if_pos hdue

/-- Settles O29: each part speaks of the one state that FRAME_START answers. -/
theorem flashEndsAfterItsFrames : Obligations.FlashEndsAfterItsFrames := by
  refine ⟨fun s f hlive hf hlast => ?_, fun s hlive => ?_, fun s => ?_, fun s hlive => ?_⟩
  · obtain ⟨hask, hflash⟩ := flash_settle_frameStart hlive
    rw [hf, flashCountdown_of_last hlast] at hflash
    have hdue := exec_flashEnd_of_last hlive hf hlast
    refine ⟨hdue, _, hdue, hask, fun hnone => ?_, fun x hx => ?_⟩
    · rw [hflash, hnone, flashStart]
    · rw [hflash, hx, flashStart]
  · obtain ⟨hask, hflash⟩ := flash_settle_frameStart hlive
    refine ⟨_, rfl, hask, fun x hx => ?_, fun hnone hf => ?_, fun f hnone hf hmore => ?_⟩
    · rw [hflash, hx, flashStart]
    · rw [hflash, hnone, hf, flashStart, flashCountdown]
    · rw [hflash, hnone, hf, flashStart, flashCountdown_of_more hmore]
  · obtain ⟨hlength, hfields⟩ := fields_settle_frameStart s
    exact ⟨_, rfl, hlength, hfields⟩
  · refine ⟨_, rfl, fun i b h hbumper hb => ⟨entering_bumper_ends h hbumper hb,
      leaving_bumper_ends h hbumper hb⟩, fun c h => clip_end_acts h, ?_⟩
    intro q i e hq h4 hstack hkind hi hover henabled hfree hbound hready
    obtain ⟨hdue, t, ht, hlowest, -⟩ :=
      rotation_ends hlive hq h4 hstack hkind hi hover henabled hfree hbound hready
    obtain rfl : t = settle (frameStart s) := by
      rw [hdue] at ht
      cases ht
      rfl
    exact ⟨ht, hlowest⟩

end Sys2Proof.ScoreProofs
end

section
/-! The writes that a command issues on the memory-side port: an arriving write that is forwarded and the two
pieces of an ingest write are all of them (R99, R164, R167). -/

namespace Sys2Proof.ReplayProofs
open Sys2Proof.Machine Sys2Proof.FrameProofs

/-- The transaction carries the bytes of a write that a master sent. -/
def isWrite : DownTxn → Bool
  | .burst (.write _) => true
  | .store _ _ _ => true
  | _ => false

/-- The writes of masters issued since reset, in order. -/
def writesOut (s : State) : List DownTxn := s.path.issued.filter isWrite

section
variable (s : State)

@[simp] theorem writesOut_setClock (f : ClockUnit → ClockUnit) : writesOut (setClock s f) = writesOut s := rfl
@[simp] theorem writesOut_setReplay (f : ReplayUnit → ReplayUnit) :
    writesOut (setReplay s f) = writesOut s := rfl
@[simp] theorem writesOut_setMsg (f : MessageUnit → MessageUnit) : writesOut (setMsg s f) = writesOut s := rfl
@[simp] theorem writesOut_setTicker (f : TickerUnit → TickerUnit) :
    writesOut (setTicker s f) = writesOut s := rfl
@[simp] theorem writesOut_modifyPlacement (p : Nat) (f : Placement → Placement) :
    writesOut (modifyPlacement s p f) = writesOut s := rfl
@[simp] theorem writesOut_modifyClip (c : Nat) (f : Clip → Clip) :
    writesOut (modifyClip s c f) = writesOut s := rfl
@[simp] theorem writesOut_setOutcomeRow (w : ReqWord) (f : OutcomeRow → OutcomeRow) :
    writesOut (setOutcomeRow s w f) = writesOut s := rfl
@[simp] theorem writesOut_raise (k : NoticeKind) (d : List (Nat × List Byte)) :
    writesOut (raise s k d) = writesOut s := rfl
@[simp] theorem writesOut_refreshDue (c : RefreshCause) : writesOut (refreshDue s c) = writesOut s := rfl
@[simp] theorem writesOut_enterOrder (id : BitVec 8) (dir : Dir) (k : EntryKind) (n m : Nat)
    (a : Option UpResp) : writesOut (enterOrder s id dir k n m a) = writesOut s := rfl

theorem writesOut_issue (d : DownTxn) : writesOut (issue s d) = writesOut s ++ [d].filter isWrite :=
  List.filter_append ..

theorem writesOut_issueAll (l : List DownTxn) : writesOut (issueAll s l) = writesOut s ++ l.filter isWrite := by
  rw [issueAll_eq]
  exact List.filter_append ..

/-- Several operations that issue no write issue none together. -/
theorem writesOut_foldl {α : Type} {f : State → α → State} (hf : ∀ t x, writesOut (f t x) = writesOut t)
    (l : List α) : writesOut (l.foldl f s) = writesOut s := by
  induction l generalizing s with
  | nil => rfl
  | cons x l ih => rw [List.foldl_cons, ih, hf]

/-- Fetches alone are issued. -/
theorem writesOut_issueAll_of_fetches {l : List DownTxn} (h : ∀ d ∈ l, ∃ id p as, d = .fetch id p as) :
    writesOut (issueAll s l) = writesOut s := by
  have hnone : l.filter isWrite = [] := by
    rw [List.filter_eq_nil_iff]
    intro d hd
    obtain ⟨id, p, as, rfl⟩ := h d hd
    exact Bool.false_ne_true
  rw [writesOut_issueAll, hnone, List.append_nil]

/-! ### The end of a command (R168) -/

theorem writesOut_takeReport (r : Report) : writesOut (takeReport s r) = writesOut s := by
  have hnotice : ∀ t i, writesOut (writeNotice t i) = writesOut t := fun t i => by
    rw [writeNotice, writesOut_issue]
    exact List.append_nil _
  cases r with
  | consume v => rfl
  | occurrence k d =>
    simp only [takeReport, takeOccurrence]
    split <;> exact hnotice _ _

theorem pageWrites_filter (n addr : Nat) (page : List Byte) : (pageWrites n addr page).filter isWrite = [] := by
  induction n generalizing addr page with
  | zero => rfl
  | succ n ih => exact ih _ _

@[simp] theorem writesOut_refreshStart : writesOut (refreshStart s) = writesOut s := by
  unfold refreshStart
  split
  · simp only [writesOut, startRefresh, List.filter_append, pageWrites_filter, List.append_nil,
      setReport_path]
  · rfl

@[simp] theorem writesOut_settle : writesOut (settle s) = writesOut s := by
  rw [settle, writesOut_refreshStart, takeRaised, writesOut_foldl _ writesOut_takeReport]
  rfl

@[simp] theorem writesOut_recordOutcome (w : ReqWord) (tag : Byte) (code : Nat) (v : Verdict) :
    writesOut (recordOutcome s w tag code v) = writesOut s := by
  unfold recordOutcome
  dsimp only
  split <;> rfl

/-! ### The clock unit -/

@[simp] theorem writesOut_tryStart (c : ClockCause) : writesOut (tryStart s c) = writesOut s := by
  rw [tryStart_eq]
  rfl

@[simp] theorem writesOut_takeConfig : writesOut (takeConfig s) = writesOut s := by
  rw [takeConfig_eq]
  rfl

@[simp] theorem writesOut_stopClock (g : GameState) (c : ClockCause) :
    writesOut (stopClock s g c) = writesOut s := by
  unfold stopClock
  dsimp only
  split <;> simp

@[simp] theorem writesOut_reevaluate (c : ClockCause) : writesOut (reevaluate s c) = writesOut s := by
  unfold reevaluate
  simp only [apply_ite writesOut, writesOut_stopClock, writesOut_tryStart, ite_self]

@[simp] theorem writesOut_spotRequest (o : SpotOffsets) (i p dwell c : Nat) :
    writesOut (spotRequest s o i p dwell c).1 = writesOut s := by
  unfold spotRequest
  repeat' split
  all_goals rfl

theorem writesOut_expireClock : writesOut (expireClock s) = writesOut s := by
  have hspot : ∀ t, writesOut (periodEndSpot t) = writesOut t := fun t => by
    unfold periodEndSpot
    split <;> simp
  simp [expireClock, hspot, raisePeriodEnd, startHornGame]

@[simp] theorem writesOut_tick : writesOut (tick s) = writesOut s := by
  have hpoint : ∀ t, writesOut (reachSetPoint t) = writesOut t := fun t => by
    unfold reachSetPoint
    dsimp only
    split <;> rfl
  unfold tick
  dsimp only
  split <;>
    simp only [apply_ite writesOut, writesOut_expireClock, hpoint, reachLimit, shotExpire, startHornShot,
      tickValues, writesOut_raise, writesOut_stopClock, writesOut_setClock, ite_self]

@[simp] theorem writesOut_creditTicks (n : Nat) : writesOut (creditTicks n s) = writesOut s := by
  induction n generalizing s with
  | zero => rfl
  | succ n ih => simp only [creditTicks, apply_ite writesOut, writesOut_tick, ih, ite_self]

theorem writesOut_advanceClock : writesOut (advanceClock s) = writesOut s := by
  simp only [advanceClock, loseTimebase, raiseTimebase, apply_ite writesOut, writesOut_setClock,
    writesOut_raise, writesOut_creditTicks, writesOut_tick, ite_self]

@[simp] theorem writesOut_timebaseEdge : writesOut (timebaseEdge s) = writesOut s := by
  unfold timebaseEdge
  split
  · simp only [apply_ite writesOut, writesOut_tick, writesOut_setClock, ite_self]
  · simp only [countReturn, raiseTimebase, apply_ite writesOut, writesOut_raise, writesOut_setClock, ite_self]

theorem writesOut_gateEdge : writesOut (gateEdge s) = writesOut s := writesOut_reevaluate _ _

@[simp] theorem writesOut_stopForGame : writesOut (stopForGame s) = writesOut s := by
  simp only [stopForGame, apply_ite writesOut, writesOut_stopClock, writesOut_setClock, ite_self]

/-! ### The message unit -/

/-- The intake fetch is a read (R137). -/
@[simp] theorem writesOut_fetchStart : writesOut (fetchStart s) = writesOut s := by
  have hread : ∀ t r, writesOut (issue t (.burst (.read r))) = writesOut t := fun t r => by
    rw [writesOut_issue]
    exact List.append_nil _
  simp only [fetchStart, apply_ite writesOut, hread, writesOut_setMsg, ite_self]

@[simp] theorem writesOut_releaseTest : writesOut (releaseTest s) = writesOut s := by
  simp only [releaseTest, apply_ite writesOut, writesOut_setMsg, ite_self]

@[simp] theorem writesOut_departed : writesOut (departed s) = writesOut s := by
  rw [departed, writesOut_fetchStart, writesOut_releaseTest]

@[simp] theorem writesOut_overrunTest : writesOut (overrunTest s) = writesOut s := by
  simp only [overrunTest, apply_ite writesOut, writesOut_raise, writesOut_setMsg, ite_self]

theorem writesOut_tailCaptured : writesOut (tailCaptured s) = writesOut s := by
  simp only [tailCaptured, apply_ite writesOut, writesOut_fetchStart, writesOut_overrunTest,
    writesOut_setMsg, ite_self]

theorem writesOut_completeFetch (r : BitVec 16) (error : Bool) (data : List Byte) :
    writesOut (completeFetch s r error data) = writesOut s := by
  have hwithdraw : ∀ t id, writesOut (withdraw t id) = writesOut t := fun t id => by
    have hhand : writesOut (handWithdrawal t id) = writesOut t := by
      unfold handWithdrawal
      split <;> rfl
    simp only [withdraw, apply_ite writesOut, removeQueued, hhand, writesOut_releaseTest, writesOut_raise,
      writesOut_setMsg, ite_self]
  have hqueue : ∀ t m, writesOut (queueMessage t m) = writesOut t := fun t m => by
    simp only [queueMessage, assertTest, apply_ite writesOut, writesOut_setMsg, ite_self]
  have htake : ∀ t, writesOut (takeRecord t r error data) = writesOut t := fun t => by
    unfold takeRecord
    split
    · rfl
    · split
      · rfl
      · exact hqueue t _
      · exact hwithdraw t _
  simp [completeFetch, htake]

@[simp] theorem writesOut_houseAdvance : writesOut (houseAdvance s) = writesOut s := by
  have hall : ∀ t (l : List Message) key detail,
      writesOut (raiseAll t .msgExpired key detail l) = writesOut t := fun t l key detail => by
    unfold raiseAll
    split <;> exact writesOut_foldl _ (fun u x => writesOut_raise u _ (detail x)) _
  simp only [houseAdvance, expireMessages, apply_ite writesOut, writesOut_departed, hall, writesOut_setMsg,
    ite_self, writesOut_advanceClock]

@[simp] theorem writesOut_tickArrival : writesOut (tickArrival s) = writesOut s := by
  unfold tickArrival
  split <;> simp

/-! ### The requests -/

theorem writesOut_showRequest (x : RequestWord) : writesOut (showRequest s x).1 = writesOut s := by
  have hmode : writesOut (supersedeMode s) = writesOut s := by
    unfold supersedeMode
    split <;> rfl
  unfold showRequest
  split
  · unfold goLiveRequest
    split
    · rfl
    · split
      · rfl
      · split <;> exact hmode
  · unfold goPassRequest
    split
    · rfl
    · split <;> exact hmode
  · exact (writesOut_setClock _ _).trans (writesOut_stopForGame s)
  · rfl
  · rfl

theorem writesOut_clockRequest (x : RequestWord) : writesOut (clockRequest s x).1 = writesOut s := by
  have hadjust : ∀ t, writesOut (adjustState t) = writesOut t := fun t => by
    unfold adjustState
    split
    · rfl
    · simp only [apply_ite writesOut, writesOut_stopClock, writesOut_tryStart, writesOut_setClock, ite_self]
  unfold clockRequest
  split
  all_goals
    simp only [softRequest, setRequest, adjustRequest, periodNextRequest, shotResetRequest, shotSetRequest,
      shotSwitchRequest, hornRequest, startHornGame, loadShotReset, unknown, apply_ite Prod.fst,
      apply_ite writesOut, hadjust, writesOut_reevaluate, writesOut_tryStart, writesOut_stopForGame,
      writesOut_setClock, ite_self]

theorem writesOut_sponsorRequest (x : RequestWord) : writesOut (sponsorRequest s x).1 = writesOut s := by
  have hsuspend : ∀ i on, writesOut (suspendRequest s i on).1 = writesOut s := fun i on => by
    have hflag : writesOut (writeSuspended s i on) = writesOut s := rfl
    simp only [suspendRequest, apply_ite Prod.fst, apply_ite writesOut, hflag, ite_self]
  unfold sponsorRequest
  split
  · exact writesOut_spotRequest s _ _ _ _ _
  · simp only [setLowestRequest, apply_ite Prod.fst, apply_ite writesOut, writesOut_modifyPlacement, ite_self]
  · unfold endRequest
    repeat' split
    all_goals rfl
  · exact hsuspend _ _
  · exact hsuspend _ _
  · rfl

theorem writesOut_replayRequest (x : RequestWord) : writesOut (replayRequest s x).1 = writesOut s := by
  have hwait : ∀ w, writesOut (waitFor s w).1 = writesOut s := fun w => by
    change writesOut (supersedeWaiting s) = writesOut s
    unfold supersedeWaiting
    split <;> rfl
  unfold replayRequest
  split
  · unfold armRequest
    split
    · rfl
    · simp only [apply_ite Prod.fst, apply_ite writesOut, writesOut_modifyClip, ite_self]
  · unfold disarmRequest
    repeat' split
    all_goals rfl
  · unfold resetRingRequest
    split <;> rfl
  · simp only [playRequest, apply_ite Prod.fst, apply_ite writesOut, hwait, ite_self]
  · unfold freezeRequest
    split <;> rfl
  · unfold replayResumeRequest
    split <;> rfl
  · unfold stepRequest
    repeat' split
    all_goals rfl
  · unfold takeLiveRequest
    split
    · rfl
    · split
      · rfl
      · simp only [apply_ite Prod.fst, apply_ite writesOut, hwait, ite_self]
      all_goals exact hwait _
  · rfl

theorem writesOut_tickerRequest (x : RequestWord) : writesOut (tickerRequest s x).1 = writesOut s := by
  have hact : ∀ b, writesOut (setActedOn s b) = writesOut s := fun b => by
    unfold setActedOn
    split <;> rfl
  unfold tickerRequest
  split
  · unfold purgeRequest
    split
    · rfl
    · exact writesOut_departed _
  · unfold pauseRequest
    split
    · exact hact _
    all_goals rfl
  · unfold tickerResumeRequest
    split
    · exact hact _
    all_goals rfl
  · rfl

@[simp] theorem writesOut_takeRequest (w : ReqWord) : writesOut (takeRequest s w) = writesOut s := by
  refine (writesOut_recordOutcome _ _ _ _ _).trans ?_
  cases w with
  | showWord => exact writesOut_showRequest s _
  | clockWord => exact writesOut_clockRequest s _
  | sponsorWord => exact writesOut_sponsorRequest s _
  | replayWord => exact writesOut_replayRequest s _
  | tickerWord => exact writesOut_tickerRequest s _
  | spareWord => rfl

/-! ### Captures -/

theorem writesOut_reacting (reached : Bool) {f : State → State} (hf : ∀ t, writesOut (f t) = writesOut t) :
    writesOut (reacting reached f s) = writesOut s := by
  unfold reacting
  split
  · exact hf s
  · rfl

theorem writesOut_geometryCaptured (w : WriteReq) (bytes : List (Nat × Byte)) :
    writesOut (geometryCaptured s w bytes) = writesOut s := by
  unfold geometryCaptured setGeometry
  repeat' split
  all_goals rfl

theorem writesOut_clockConfigCaptured : writesOut (clockConfigCaptured s) = writesOut s := by
  simp only [clockConfigCaptured, apply_ite writesOut, writesOut_setClock, writesOut_takeConfig, ite_self]

theorem writesOut_teamCaptured (t : Team) (old : Nat) : writesOut (teamCaptured s t old) = writesOut s := by
  unfold teamCaptured scoreRise sendCut askFlash
  repeat' split
  all_goals rfl

theorem writesOut_sponsorCaptured (i : Nat) : writesOut (sponsorCaptured s i) = writesOut s := by
  unfold sponsorCaptured
  split <;> rfl

/-- A capture, the requests it completes among it, issues no write (R170, R172). -/
@[simp] theorem writesOut_capture (w : WriteReq) : writesOut (capture s w) = writesOut s := by
  have hrequests : ∀ ws t, writesOut (takeRequests ws t) = writesOut t := fun ws t =>
    takeRequests_keeps (P := fun u => writesOut u = writesOut t)
      (fun w u h => (writesOut_takeRequest u w).trans h) (fun u h => (writesOut_settle u).trans h) ws t rfl
  unfold capture wordReactions recordReactions configReactions
  dsimp only
  rw [hrequests, writesOut_reacting _ _ writesOut_tailCaptured,
    writesOut_reacting _ _ fun t => (rfl : writesOut (consumeCaptured t) = writesOut t),
    writesOut_foldl _ writesOut_sponsorCaptured,
    writesOut_reacting _ _ fun t => writesOut_teamCaptured t _ _,
    writesOut_reacting _ _ fun t => writesOut_teamCaptured t _ _,
    writesOut_reacting _ _ writesOut_clockConfigCaptured,
    writesOut_reacting _ _ fun t => writesOut_geometryCaptured t w _]
  rfl

/-! ### Reads, answers and errors -/

theorem writesOut_arriveRead (r : ReadReq) : writesOut (arriveRead s r) = writesOut s := by
  have hpieces : ∀ id dest addrs, ∀ d ∈ readPieces id dest addrs, ∃ id p as, d = .fetch id p as := by
    intro id dest addrs d hd
    obtain ⟨p, as, rfl, -⟩ := mem_readPieces hd
    exact ⟨id, p, as, rfl⟩
  unfold arriveRead
  split
  · refine writesOut_issueAll_of_fetches s fun d hd => ?_
    rcases List.mem_append.1 hd with hd | hd
    · exact hpieces _ _ _ d hd
    · obtain ⟨n, as, -, rfl⟩ := mem_overlayFetches hd
      exact ⟨_, _, as, rfl⟩
  · split
    · exact writesOut_issueAll_of_fetches s (hpieces _ _ _)
    · exact (writesOut_issue s _).trans (List.append_nil _)

theorem writesOut_of_sameButAnswers {s t : State} (h : SameButAnswers s t) : writesOut t = writesOut s := by
  rw [h]
  rfl

theorem writesOut_programError (read : ReadName) : writesOut (programError s read) = writesOut s := by
  have hfail : ∀ c, writesOut (failRead (modifyRead s c.key fun x => { x with failed := true }) c) =
      writesOut s := fun c =>
    writesOut_of_sameButAnswers ((modifyRead_same s _ _).trans (failRead_same _ _))
  unfold programError
  split
  · rfl
  · split
    · simp only [apply_ite writesOut, hfail, ite_self]
    · rfl

/-- The fetches in the place of a dropped layer are no writes (R14). -/
theorem writesOut_overlayError (read : ReadName) (l addr : Nat) :
    writesOut (overlayError s read l addr) = writesOut s := by
  have herase : ∀ f, writesOut (eraseLayer s f l) = writesOut s := fun f => by
    refine writesOut_issueAll_of_fetches _ fun d hd => ?_
    obtain ⟨c, -, hd⟩ := List.mem_flatMap.1 hd
    split at hd
    · unfold CompRead.inPlace at hd
      split at hd
      · cases hd
      · obtain ⟨n, as, -, rfl⟩ := mem_overlayFetches hd
        exact ⟨_, _, as, rfl⟩
    · cases hd
  unfold overlayError
  split
  · rfl
  · split
    · rfl
    · simp only [apply_ite writesOut, writesOut_raise, herase, ite_self]

theorem writesOut_compositedAnswer (read : ReadName) (f : Fetched) :
    writesOut (compositedAnswer s read f) = writesOut s := by
  have hcomplete : ∀ c g, writesOut (completeRead s c g) = writesOut s := fun c g =>
    writesOut_of_sameButAnswers (completeRead_same s c g)
  unfold compositedAnswer
  split
  · rfl
  · split
    · rfl
    · simp only [apply_ite writesOut, hcomplete, ite_self]

theorem writesOut_ingestResponse (id : BitVec 8) (outside : Bool) (code : Resp) :
    writesOut (ingestResponse s id outside code) = writesOut s := by
  have hset : ∀ u e k a b, writesOut (setPieces u e k a b) = writesOut u := fun u e k a b => by
    unfold setPieces
    split
    · exact writesOut_of_sameButAnswers (answerKey_same _ _ _)
    · rfl
  unfold ingestResponse
  split
  · rfl
  · split
    · rfl
    · split
      · exact hset _ _ _ _ _
      · rw [hset]
        split <;> rfl
      · rfl

theorem writesOut_forwardedResponse (dir : Dir) (id : BitVec 8) (data : List Byte) (status : List Resp) :
    writesOut (forwardedResponse s dir id data status) = writesOut s := by
  have hanswer : ∀ key r, writesOut (answerKey s key r) = writesOut s := fun key r =>
    writesOut_of_sameButAnswers (answerKey_same s key r)
  unfold forwardedResponse
  split
  · rfl
  · split
    · rfl
    · simp only [apply_ite writesOut, hanswer, ite_self]

theorem writesOut_refreshComplete : writesOut (refreshComplete s) = writesOut s := by
  unfold refreshComplete
  repeat' split
  all_goals rfl

/-! ### FRAME_START -/

theorem writesOut_tickerFrame : writesOut (tickerFrame s) = writesOut s := by
  have hsuppress : ∀ t, writesOut (bandSuppress t) = writesOut t := fun t => by
    unfold bandSuppress
    dsimp only
    repeat' split
    all_goals rfl
  have hscroll : ∀ t, writesOut (bandScroll t) = writesOut t := fun t => by
    unfold bandScroll
    split <;> rfl
  have hstart : ∀ t, writesOut (bandStart t) = writesOut t := fun t => by
    unfold bandStart
    split <;> rfl
  have henter : ∀ t m rest, writesOut (enterHead t m rest) = writesOut t := fun t m rest =>
    writesOut_departed _
  have hband : ∀ t, writesOut (bandEnter t) = writesOut t := fun t => by
    unfold bandEnter
    dsimp only
    cases t.msg.queue with
    | nil => simp only [apply_ite writesOut, writesOut_setTicker, ite_self]
    | cons m rest => simp only [apply_ite writesOut, writesOut_setTicker, henter, ite_self]
  unfold tickerFrame
  split
  · rfl
  · rw [hband, hstart, bandWithdraw, writesOut_setTicker, hscroll, hsuppress]

/-- The frame's own writes are its page and its notices; the units but the ticker issue nothing (R4). -/
theorem writesOut_frameStart : writesOut (frameStart s) = writesOut s := by
  have hrot : ∀ t hand r, writesOut (rotFrame t hand r) = writesOut t := fun t hand r =>
    (congrArg writesOut (sansRot_rotFrame t hand r) :).trans
      (congrArg writesOut (sansAccrual_rotOpen t hand) :)
  have hsourced : writesOut (frameSourced s) = writesOut s := by
    have hmode : writesOut (frameOpened s) = writesOut (openFrame s) :=
      (congrArg writesOut (sansMode_modeFrame (openFrame s)) :)
    have hreplay : ∀ t, writesOut (replayFrame t) = writesOut t := fun t =>
      (congrArg writesOut (sansReplay_replayFrame t) :)
    rw [frameSourced, scoreFrame_eq]
    exact (hreplay _).trans hmode
  change writesOut (frameUnits s) = writesOut s
  rw [frameUnits, writesOut_tickerFrame, hrot, hsourced]

end
end Sys2Proof.ReplayProofs
end

section
/-! No write that arrives is issued to a locked sector or to a part-owned area (O60). -/

namespace Sys2Proof.ReplayProofs
open Sys2Proof.Machine Sys2Proof.FrameProofs Sys2Proof.SponsorProofs

/-! ### The class of a write (R164) -/

/-- The byte lies in no sector of the lock set in force and in no part-owned area (R174, R175). -/
def Spared (s : State) (a : Nat) : Prop :=
  inPartOwned s a = false ∧ ∀ j ∈ s.comp.lock, inSector s.path.geom j a = false

section
variable {s : State} {w : WriteReq}

/-- What the checks of R164, in their order, say of each class. -/
theorem classifyWrite_spec (s : State) (w : WriteReq) :
    match classifyWrite s w with
    | .locked _ => True
    | .partOwned => True
    | .ingest => (∀ b ∈ writeBytes w, Spared s b.1) ∧ s.report.mode = .live ∧
        masterTag w.id = s.path.geom.ingestTag
    | .captured => ∀ b ∈ writeBytes w, Spared s b.1
    | .forwarded => ∀ b ∈ writeBytes w, Spared s b.1 := by
  unfold classifyWrite
  dsimp only
  cases hlock : lockedSector s (writeBytes w) with
  | some j => trivial
  | none =>
    cases howned : (writeBytes w).any (fun b => inPartOwned s b.1) with
    | true => trivial
    | false =>
      have hspared : ∀ b ∈ writeBytes w, Spared s b.1 := fun b hb => by
        refine ⟨by simpa using List.any_eq_false.1 howned b hb, fun j hj => ?_⟩
        have hsector := List.find?_eq_none.1 hlock j hj
        rw [Bool.not_eq_true, List.any_eq_false] at hsector
        simpa using hsector b hb
      by_cases hingest : (s.report.mode == .live && masterTag w.id == s.path.geom.ingestTag &&
          (writeBytes w).any fun b => inWindow s.path.geom b.1) = true
      · have hboth := hingest
        simp only [Bool.and_eq_true, beq_iff_eq] at hboth
        obtain ⟨⟨hlive, htag⟩, -⟩ := hboth
        simp only [hingest, if_true, Bool.false_eq_true, if_false]
        exact ⟨hspared, hlive, htag⟩
      · by_cases hcap : ((writeBytes w).any fun b => inCaptured s b.1) = true
        · simpa only [hingest, hcap, if_true, Bool.false_eq_true, if_false] using hspared
        · simpa only [hingest, hcap, Bool.false_eq_true, if_false] using hspared

/-! ### The pieces of an ingest write (R99, R102) -/

/-- The write is one that R174, R175 and R99 let through from state `s`. -/
def Admitted (s : State) : DownTxn → Prop
  | .burst (.write w) => ∀ b ∈ writeBytes w, Spared s b.1
  | .store id purpose bytes =>
    (purpose = .outside ∧ ∀ b ∈ bytes, Spared s b.1) ∨
    ∃ k, purpose = .ingest k ∧ masterTag id = s.path.geom.ingestTag ∧ s.report.mode = .live ∧
      (TablesOk s → SlotsOk s → k < s.path.geom.slotCount) ∧
      ∀ b ∈ bytes, s.path.geom.poolBase + k * (s.path.geom.stride * s.path.geom.height) ≤ b.1 ∧
        b.1 < s.path.geom.poolBase + (k + 1) * (s.path.geom.stride * s.path.geom.height)
  | _ => True

/-- A byte of the window lies at its offset in the slot (R99). -/
theorem slotAddr_bounds (g : Geometry) (k : Nat) {o : Nat} (h : o < canvasSize g) :
    g.poolBase + k * (g.stride * g.height) ≤ slotAddr g k o ∧
      slotAddr g k o < g.poolBase + (k + 1) * (g.stride * g.height) := by
  unfold canvasSize at h
  unfold slotAddr canvasSize
  rw [Nat.succ_mul]
  omega

theorem lt_canvasSize_of_windowBytes {g : Geometry} {b : Nat × Byte} (h : b ∈ windowBytes g w) :
    b.1 < canvasSize g := by
  obtain ⟨a, -, ha⟩ := List.mem_filterMap.1 h
  split at ha
  · next hin =>
    cases ha
    simp only [inWindow, Bool.and_eq_true, decide_eq_true_eq] at hin
    dsimp only
    omega
  · cases ha

theorem mem_ingestPieces {g : Geometry} {k : Nat} {d : DownTxn} (h : d ∈ ingestPieces g w k) :
    d = remappedWrite g w k ∨ d = .store w.id .outside (outsideBytes g w) := by
  unfold ingestPieces at h
  split at h
  · exact .inl (List.mem_singleton.1 h)
  · next b bs hb =>
    rw [hb]
    dsimp only at h
    split at h
    · simpa [or_comm] using h
    · simpa using h

/-- An ingest write issues its two pieces alone, and opening its slot none (R99, R105). -/
theorem writesOut_ingestWrite {t : State} (h : ingestWrite s w = some t) :
    ∃ k, writesOut t = writesOut s ++ (ingestPieces s.path.geom w k).filter isWrite ∧
      (SlotsOk s → k < s.replay.slots.length) := by
  have hcommit : ∀ u k, writesOut (commitFrame u k) = writesOut u := fun u k => by
    have habandon : ∀ c, writesOut (abandonFrame u k c) = writesOut u := fun c => rfl
    have hfill : writesOut (fillSlot u k) = writesOut u := rfl
    simp only [commitFrame, apply_ite writesOut, habandon, hfill, ite_self]
  have hfill : ∀ u k, u.path = s.path → writesOut (fillWrite u w k) =
      writesOut s ++ (ingestPieces s.path.geom w k).filter isWrite := fun u k hu => by
    have hsame : writesOut u = writesOut s := congrArg (fun p : PathUnit => p.issued.filter isWrite) hu
    simp only [fillWrite, writesOut_capture, apply_ite writesOut, hcommit, writesOut_enterOrder,
      writesOut_issueAll, ite_self, hsame, hu]
  obtain ⟨⟨k, u⟩, hopen, rfl⟩ := Option.map_eq_some_iff.1 h
  refine ⟨k, ?_, fun hslots => ?_⟩ <;> unfold openFor at hopen <;> split at hopen
  · obtain ⟨j, -, hj⟩ := Option.map_eq_some_iff.1 hopen
    cases hj
    exact hfill _ k rfl
  · split at hopen <;> cases hopen <;> exact hfill _ k rfl
  · obtain ⟨j, hj, hjk⟩ := Option.map_eq_some_iff.1 hopen
    cases hjk
    exact (nextFill_spec hj).1
  · next j hj =>
    have hlt : j < s.replay.slots.length := lt_of_slotAt (by rw [(hslots.1 j).2 hj]; nofun)
    split at hopen <;> cases hopen <;> exact hlt

/-- What an arriving write adds to the writes issued is admitted, whatever its class (R164). -/
theorem admitted_arriveWrite {t : State} (h : arriveWrite s w = some t) :
    ∃ l, writesOut t = writesOut s ++ l ∧ ∀ d ∈ l, Admitted s d := by
  have hforward : writesOut (forwardWrite s w) = writesOut s ++ [.burst (.write w)] := writesOut_issue s _
  have hspec := classifyWrite_spec s w
  unfold arriveWrite at h
  cases hclass : classifyWrite s w with
  | locked j | partOwned =>
    simp only [hclass] at h
    cases h
    exact ⟨[], (List.append_nil _).symm, nofun⟩
  | captured =>
    simp only [hclass] at h hspec
    cases h
    exact ⟨[_], (writesOut_capture _ w).trans hforward, List.forall_mem_singleton.2 hspec⟩
  | forwarded =>
    simp only [hclass] at h hspec
    cases h
    exact ⟨[_], hforward, List.forall_mem_singleton.2 hspec⟩
  | ingest =>
    simp only [hclass] at h hspec
    obtain ⟨hspared, hlive, htag⟩ := hspec
    obtain ⟨k, hout, hk⟩ := writesOut_ingestWrite h
    refine ⟨_, hout, fun d hd => ?_⟩
    rcases mem_ingestPieces (List.mem_filter.1 hd).1 with rfl | rfl
    · refine .inr ⟨k, rfl, htag, hlive, fun htables hslots => htables.1 ▸ hk hslots, fun b hb => ?_⟩
      obtain ⟨x, hx, rfl⟩ := List.mem_map.1 hb
      exact slotAddr_bounds _ k (lt_canvasSize_of_windowBytes hx)
    · exact .inl ⟨rfl, fun b hb => hspared b (List.mem_filter.1 hb).1⟩

end

/-! ### Commands -/

/-- Every next state of this outcome has issued, beside what `s` had, admitted writes alone, or has issued
nothing since a reset. -/
def IssuesAdmitted (s : State) (o : Host.Outcome State Fault Refusal) : Prop :=
  ∀ t, o = .next t → t.path.issued = [] ∨ ∃ l, writesOut t = writesOut s ++ l ∧ ∀ d ∈ l, Admitted s d

section
variable {s u : State}

theorem issuesAdmitted_next (h : writesOut u = writesOut s) : IssuesAdmitted s (.next u) := by
  rintro t ⟨⟩
  exact .inr ⟨[], by rw [h, List.append_nil], nofun⟩

theorem issuesAdmitted_done (h : writesOut u = writesOut s) : IssuesAdmitted s (done u) :=
  issuesAdmitted_next ((writesOut_settle u).trans h)

theorem issuesAdmitted_whenDue (due : Bool) (h : writesOut u = writesOut s) :
    IssuesAdmitted s (whenDue due u s) := by
  unfold whenDue
  split
  · exact issuesAdmitted_done h
  · exact issuesAdmitted_next rfl

theorem issuesAdmitted_settled (w : WriteReq) : IssuesAdmitted s (settled (arriveWrite s w)) := by
  cases hw : arriveWrite s w with
  | none => rintro t ⟨⟩
  | some u =>
    rintro t ⟨⟩
    rw [writesOut_settle]
    exact .inr (admitted_arriveWrite hw)

theorem issuesAdmitted_arriving (w : WriteReq) : IssuesAdmitted s (arriving w s) := by
  unfold arriving
  split
  · exact issuesAdmitted_settled w
  · rintro t ⟨⟩

theorem issuesAdmitted_reading (r : ReadReq) : IssuesAdmitted s (reading r s) := by
  unfold reading
  split
  · exact issuesAdmitted_done (writesOut_arriveRead s r)
  · rintro t ⟨⟩

theorem issuesAdmitted_intakeFetchComplete (error : Bool) (data : List Byte) :
    IssuesAdmitted s (execIntakeFetchComplete error data s) := by
  unfold execIntakeFetchComplete
  split
  · exact issuesAdmitted_next rfl
  · split
    · exact issuesAdmitted_next rfl
    · exact issuesAdmitted_whenDue _ (writesOut_completeFetch s _ _ _)

/-- A command issues no write but those of the write that arrives with it. -/
theorem issuesAdmitted_exec (s : State) (c : Instr) : IssuesAdmitted s (exec c s) := by
  cases c with
  | resetN tbase gate =>
    rintro t ⟨⟩
    exact .inl rfl
  | frameStart => exact issuesAdmitted_done (writesOut_frameStart s)
  | flashEnd | stackEntryDwellEnd | enteringBumperEnd | leavingBumperEnd | clipEndAction =>
    exact issuesAdmitted_whenDue _ (writesOut_frameStart s)
  | gateRunEdge => exact issuesAdmitted_done (writesOut_gateEdge s)
  | shotRstEdge => exact issuesAdmitted_done (writesOut_setClock s _)
  | tbInEdge => exact issuesAdmitted_done (writesOut_timebaseEdge s)
  | houseTimeAdvance => exact issuesAdmitted_done (writesOut_houseAdvance s)
  | timebaseLoss | hornEnd | messageExpiry => exact issuesAdmitted_whenDue _ (writesOut_houseAdvance s)
  | timebaseRestore => exact issuesAdmitted_whenDue _ (writesOut_timebaseEdge s)
  | gameClockExpiry | shotClockExpiry | upSetPointReached | upLimit =>
    exact issuesAdmitted_whenDue _ (writesOut_tickArrival s)
  | compositedRead r | windowRead r => exact issuesAdmitted_reading r
  | compositedReadAnswer read => exact issuesAdmitted_done (writesOut_compositedAnswer s read _)
  | overlayFetchError read l a => exact issuesAdmitted_done (writesOut_overlayError s read l a)
  | programFetchError read => exact issuesAdmitted_done (writesOut_programError s read)
  | ingestWriteResponse id o code => exact issuesAdmitted_done (writesOut_ingestResponse s id o code)
  | forwardedResponse dir id d st => exact issuesAdmitted_done (writesOut_forwardedResponse s dir id d st)
  | forwardedTransaction t =>
    cases t with
    | read r => exact issuesAdmitted_reading r
    | write w => exact issuesAdmitted_arriving w
  | ingestWrite w | blockedWrite w | partOwnedWrite w | capturedWrite w | geometryCapture w
  | teamRecordCapture w | sponsorEntryCapture w | clockConfigCapture w | intakeTailCapture w
  | noticeConsumeCapture w => exact issuesAdmitted_arriving w
  | intakeFetchStart => exact issuesAdmitted_done (writesOut_fetchStart s)
  | intakeFetchComplete e d => exact issuesAdmitted_intakeFetchComplete e d
  | statusRefreshStart => exact issuesAdmitted_next (writesOut_refreshStart s)
  | statusRefreshComplete => exact issuesAdmitted_done (writesOut_refreshComplete s)
  | goLive | goPass | clearGame | clearExposure | spareRequest | runEnable | runDisable | clockSet
  | clockAdjust | periodNext | shotReset | shotSet | shotEnable | shotDisable | horn | spot | setLowest
  | endEntry | suspend | sponsorResume | arm | disarm | resetRing | play | freeze | replayResume
  | stepReplay | takeLive | purge | pause | tickerResume | unknownRequestCode =>
    exact issuesAdmitted_settled _

/-- A step is a command on the rest of the queue, which no address and no class depends on. -/
theorem issuesAdmitted_step (s : State) : IssuesAdmitted s (step s) := by
  unfold step
  split
  · exact issuesAdmitted_next rfl
  · next c rest _ => exact issuesAdmitted_exec { s with pending := rest } c

/-- The writes that a step adds to the record of what was issued are admitted. -/
theorem admitted_of_step {t : State} {issued : List DownTxn} (h : step s = .next t)
    (ht : t.path.issued = s.path.issued ++ issued) {d : DownTxn} (hd : d ∈ issued) (hw : isWrite d = true) :
    Admitted s d := by
  rcases issuesAdmitted_step s t h with hnil | ⟨l, hl, hall⟩
  · rw [ht] at hnil
    rw [(List.append_eq_nil_iff.1 hnil).2] at hd
    cases hd
  · have hfilter : writesOut s ++ issued.filter isWrite = writesOut s ++ l := by
      rw [← hl, writesOut, writesOut, ht, List.filter_append]
    rw [List.append_cancel_left hfilter |>.symm] at hall
    exact hall d (List.mem_filter.2 ⟨hd, hw⟩)

end

/-- Settles O60: a write reaches the memory-side port by its class alone, and each class that issues one has
passed the checks of R174 and R175. -/
theorem noIssuedWriteReachesALockedSector : Obligations.NoIssuedWriteReachesALockedSector := by
  unfold Obligations.NoIssuedWriteReachesALockedSector
  intro s t issued hstep ht
  exact ⟨fun w hw => admitted_of_step hstep ht hw rfl,
    fun id purpose bytes hb => admitted_of_step hstep ht hb rfl⟩

end Sys2Proof.ReplayProofs
end

section
/-! The requests on the ring: ARM, DISARM and RESET_RING (R113 to R116). -/

namespace Sys2Proof.ReplayProofs
open Sys2Proof.Machine Sys2Proof.FrameProofs Sys2Proof.ClockProofs Sys2Proof.ScoreProofs Sys2Proof.SponsorProofs

/-! ### Present sequences (R109) -/

section
variable {s : State} {q : Nat}

theorem present_iff : present s q = true ↔ q ∈ filledSeqs s := by
  simp [present, filledSeqs, and_assoc]

theorem le_foldl_max (l : List Nat) (a : Nat) : a ≤ l.foldl max a ∧ ∀ x ∈ l, x ≤ l.foldl max a := by
  induction l generalizing a with
  | nil => exact ⟨le_rfl, nofun⟩
  | cons y l ih =>
    obtain ⟨hstart, hall⟩ := ih (max a y)
    exact ⟨(le_max_left a y).trans hstart,
      List.forall_mem_cons.2 ⟨(le_max_right a y).trans hstart, hall⟩⟩

theorem le_newestSeq (h : q ∈ filledSeqs s) : q ≤ newestSeq s := (le_foldl_max _ 0).2 q h

theorem newestSeq_lt_of_forall (hpos : 0 < q) (h : ∀ x ∈ filledSeqs s, x < q) : newestSeq s < q := by
  rcases foldl_max_mem (filledSeqs s) 0 with hzero | hmem
  · exact hzero.trans_lt hpos
  · exact h _ hmem

end

/-! ### What rests on the replay unit alone -/

section
variable {s t : State} (h : t.replay = s.replay)
include h

theorem clipAt_of_replay : clipAt t = clipAt s := by
  funext c
  rw [clipAt, clipAt, h]

theorem slotAt_of_replay : slotAt t = slotAt s := by
  funext k
  rw [slotAt, slotAt, h]

theorem filledSeqs_of_replay : filledSeqs t = filledSeqs s := by rw [filledSeqs, filledSeqs, h]

theorem newestSeq_of_replay : newestSeq t = newestSeq s := by
  rw [newestSeq, newestSeq, filledSeqs_of_replay h]

theorem present_of_replay : present t = present s := by
  funext q
  rw [present, present, h]

theorem unheldCount_of_replay : unheldCount t = unheldCount s := by
  funext clips
  rw [unheldCount, unheldCount, h]

theorem runStart_of_replay (q : Nat) : runStart t q = runStart s q := by
  have hfrom : ∀ n p, runStartFrom t n p = runStartFrom s n p := fun n => by
    induction n with
    | zero => exact fun p => rfl
    | succ n ih => exact fun p => by simp only [runStartFrom, present_of_replay h, ih]
  rw [runStart, runStart, h, hfrom]

end

/-! ### ARM (R113, R114) -/

section
variable (s : State) (c rate flags bf bi : Byte) (inP outP : BitVec 32)

/-- The parameters of an ARM, as the word spells them. -/
abbrev armOf : ArmParams :=
  { clip := c.toNat, rate := rate.toNat, flags := flags.toNat, inPoint := inP.toNat,
    outPoint := outP.toNat, bumperFrames := bf.toNat, bumperIndex := bi.toNat }

/-- The parameter bytes of an ARM. -/
abbrev armBytes : List Byte :=
  [c, rate, flags] ++ leBytes 4 inP.toNat ++ leBytes 4 outP.toNat ++ [bf, bi]

/-- The clip that an ARM sets (R114). -/
abbrev armSets : Clip :=
  { state := .armed, inPoint := max inP.toNat (runStart s outP.toNat), outPoint := outP.toNat,
    rate := rate.toNat,
    endAction := if flags.toNat % 4 = 1 then .returnLive else .holdLast,
    bumperFrames := bf.toNat,
    bumper := if bf = 0 then none else some (bumperDescriptor s.path.shadow bi.toNat),
    autoDisarm := flags.getLsbD 7 }

/-- The parameters in the order in which they are checked before the others: the clip and the points. -/
abbrev PointsInRange : Prop := c.toNat ≤ 15 ∧ inP ≠ 0 ∧ outP ≠ 0

/-- The range that an ARM's parameters lie in. -/
abbrev ArmInRange : Prop :=
  PointsInRange c inP outP ∧ (1 ≤ rate.toNat ∧ rate.toNat ≤ 8) ∧ flags.toNat % 4 ≤ 1 ∧ bf.toNat ≤ 120 ∧
    bi.toNat ≤ 3

end

theorem ne_zero_of_toNat {n : Nat} {v : BitVec n} (h : v ≠ 0) : v.toNat ≠ 0 := fun hz =>
  h (BitVec.eq_of_toNat_eq (by simpa using hz))

theorem bumperDescriptor_congr {m m' : Memory} {j : Nat} (hj : j ≤ 3)
    (h : ∀ a, a < 0x1000 → readByte m' a = readByte m a) : bumperDescriptor m' j = bumperDescriptor m j := by
  have hread : ∀ off n, off + n ≤ 0x1000 → readLE m' off n = readLE m off n := fun off n hn =>
    readLE_congr n fun i hi => h _ (by omega)
  simp only [bumperDescriptor, readPlainDescriptor]
  rw [hread _ 5 (by omega), hread _ 2 (by omega), hread _ 2 (by omega), hread _ 2 (by omega)]

theorem armRequest_of_badParam {t : State} {a : ArmParams} {v : Verdict} (h : armBadParam a = some v) :
    armRequest t a = (t, v) := by rw [armRequest, h]

/-- The checks of an ARM whose parameters are in range (R113). -/
theorem armRequest_of_inRange {t : State} {a : ArmParams} (h : armBadParam a = none) : armRequest t a =
    if (clipAt t a.clip).state = .playing then (t, verdict .inUse)
    else if a.outPoint < a.inPoint then (t, verdict .badRange)
    else if a.outPoint ≤ newestSeq t ∧ present t a.outPoint = false then (t, verdict .gone)
    else if newestSeq t < a.outPoint then (t, verdict .notYet)
    else if unheldCount t (t.replay.clips.modify a.clip fun _ => armedClip t a) < 3 then
      (t, verdict .noRoom)
    else (modifyClip t a.clip fun _ => armedClip t a,
      verdict (if a.inPoint < runStart t a.outPoint then .clamped else .accepted)) := by
  rw [armRequest, h]
  rfl

section
variable {s : State} {id : BitVec 8} {tag c rate flags bf bi : Byte} {inP outP : BitVec 32}

theorem armBadParam_of_inRange (h : ArmInRange c rate flags bf bi inP outP) :
    armBadParam (armOf c rate flags bf bi inP outP) = none := by
  obtain ⟨⟨hc, hin, hout⟩, hrate, hend, hbf, hbi⟩ := h
  have hin := ne_zero_of_toNat hin
  have hout := ne_zero_of_toNat hout
  simp only [armBadParam, ArmParams.endBits]
  rw [if_neg (by omega), if_neg hin, if_neg hout, if_neg (by omega), if_neg (by omega), if_neg (by omega),
    if_neg (by omega)]

/-- The checks behind those of the clip and the points (R113; log 14). -/
theorem armBadParam_of_points (h : PointsInRange c inP outP) :
    armBadParam (armOf c rate flags bf bi inP outP) =
      if rate.toNat = 0 ∨ 8 < rate.toNat then some (badParam rate.toNat 2)
      else if 1 < flags.toNat % 4 then some (badParam (flags.toNat % 4) 3)
      else if 120 < bf.toNat then some (badParam bf.toNat 12)
      else if 3 < bi.toNat then some (badParam bi.toNat 13)
      else none := by
  obtain ⟨hc, hin, hout⟩ := h
  simp only [armBadParam, ArmParams.endBits]
  rw [if_neg (by omega), if_neg (ne_zero_of_toNat hin), if_neg (ne_zero_of_toNat hout)]

variable (h : WordReady s id .replayWord)
include h

/-- The checks of an ARM in range read the replay unit, which the word's write has left as it was. -/
theorem armRequest_asked (tag : Byte) (params : List Byte) (hr : ArmInRange c rate flags bf bi inP outP) :
    armRequest (asked s id .replayWord 1 params tag) (armOf c rate flags bf bi inP outP) =
      if (clipAt s c.toNat).state = .playing then (asked s id .replayWord 1 params tag, verdict .inUse)
      else if outP.toNat < inP.toNat then (asked s id .replayWord 1 params tag, verdict .badRange)
      else if outP.toNat ≤ newestSeq s ∧ present s outP.toNat = false then
        (asked s id .replayWord 1 params tag, verdict .gone)
      else if newestSeq s < outP.toNat then (asked s id .replayWord 1 params tag, verdict .notYet)
      else if unheldCount s (s.replay.clips.modify c.toNat fun _ => armSets s rate flags bf bi inP outP) < 3 then
        (asked s id .replayWord 1 params tag, verdict .noRoom)
      else (modifyClip (asked s id .replayWord 1 params tag) c.toNat fun _ => armSets s rate flags bf bi inP outP,
        verdict (if inP.toNat < runStart s outP.toNat then .clamped else .accepted)) := by
  have hreplay : (asked s id .replayWord 1 params tag).replay = s.replay := asked_replay ..
  have hbumper : bumperDescriptor (asked s id .replayWord 1 params tag).path.shadow bi.toNat =
      bumperDescriptor s.path.shadow bi.toNat :=
    bumperDescriptor_congr hr.2.2.2.2 fun a ha => readByte_asked_low s id _ _ _ _ a h.2.1 ha
  have hframes : bf.toNat = 0 ↔ bf = 0 := ⟨fun hz => BitVec.eq_of_toNat_eq hz, fun hz => by rw [hz]; rfl⟩
  have hclip : armedClip (asked s id .replayWord 1 params tag) (armOf c rate flags bf bi inP outP) =
      armSets s rate flags bf bi inP outP := by
    simp only [armedClip, armIn, ArmParams.endBits, runStart_of_replay hreplay, hbumper, hframes]
    rfl
  rw [armRequest_of_inRange (armBadParam_of_inRange hr), hclip, clipAt_of_replay hreplay,
    newestSeq_of_replay hreplay, present_of_replay hreplay, unheldCount_of_replay hreplay,
    runStart_of_replay hreplay, hreplay]

/-- An ARM that the replay unit refuses. -/
theorem exec_arm_refused {o : ReqOutcome} {value offset : Nat} (ho : o.refused = true)
    (ha : armRequest (asked s id .replayWord 1 (armBytes c rate flags bf bi inP outP) tag)
        (armOf c rate flags bf bi inP outP) =
      (asked s id .replayWord 1 (armBytes c rate flags bf bi inP outP) tag,
        { outcome := o, waits := false, value := value, offset := offset })) :
    exec (.arm id tag c rate flags inP outP bf bi) s = .next
      (refusedWith (asked s id .replayWord 1 (armBytes c rate flags bf bi inP outP) tag) .replayWord tag 1 o
        value offset) :=
  asking_refused s id .replayWord 1 _ tag o value offset h
    ((answer_arm _ tag c rate flags bf bi inP outP).trans ha) ho

theorem exec_arm_badParam {value offset : Nat}
    (ha : armBadParam (armOf c rate flags bf bi inP outP) = some (badParam value offset)) :
    exec (.arm id tag c rate flags inP outP bf bi) s = .next
      (refusedWith (asked s id .replayWord 1 (armBytes c rate flags bf bi inP outP) tag) .replayWord tag 1
        .badParam value offset) := exec_arm_refused h rfl (armRequest_of_badParam ha)

/-- An ARM that passes every check. -/
theorem exec_arm_taken (hr : ArmInRange c rate flags bf bi inP outP)
    (hidle : (clipAt s c.toNat).state ≠ .playing) (hle : inP.toNat ≤ outP.toNat)
    (hpresent : present s outP.toNat = true)
    (hroom : 3 ≤ unheldCount s
      (s.replay.clips.modify c.toNat fun _ => armSets s rate flags bf bi inP outP)) :
    exec (.arm id tag c rate flags inP outP bf bi) s = .next (recorded
      (modifyClip (asked s id .replayWord 1 (armBytes c rate flags bf bi inP outP) tag) c.toNat
        fun _ => armSets s rate flags bf bi inP outP)
      .replayWord tag (if inP.toNat < runStart s outP.toNat then .clamped else .accepted) false) := by
  have hnewest : outP.toNat ≤ newestSeq s := le_newestSeq (present_iff.1 hpresent)
  have hnot : ¬(outP.toNat ≤ newestSeq s ∧ present s outP.toNat = false) := by simp [hpresent]
  have ha : armRequest (asked s id .replayWord 1 (armBytes c rate flags bf bi inP outP) tag)
      (armOf c rate flags bf bi inP outP) =
      (modifyClip (asked s id .replayWord 1 (armBytes c rate flags bf bi inP outP) tag) c.toNat
        fun _ => armSets s rate flags bf bi inP outP,
        verdict (if inP.toNat < runStart s outP.toNat then .clamped else .accepted)) := by
    rw [armRequest_asked h tag _ hr, if_neg hidle, if_neg (by omega), if_neg hnot, if_neg (by omega),
      if_neg (by omega)]
  refine asking_taken s id .replayWord 1 _ tag _ _ false _ h
    ((answer_arm _ tag c rate flags bf bi inP outP).trans ha) ⟨rfl, rfl⟩ ?_ (asked_quiet s id _ _ _ _ h.1)
  split <;> rfl

end

/-- Settles O13: the checks of ARM in the table's order. -/
theorem armSetsTheClip : Obligations.ArmSetsTheClip := by
  refine ⟨fun s id tag c rate flags bf bi inP outP h hc hin hout hlow hhigh hend hbf hbi hidle hle hpresent =>
    exec_arm_taken h ⟨⟨hc, hin, hout⟩, ⟨hlow, hhigh⟩, hend, hbf, hbi⟩ hidle hle hpresent, ?_⟩
  intro s id tag c rate flags bf bi inP outP h t refused points speed inRange
  refine ⟨fun hc => ?_, fun hc hin => ?_, fun hc hin hout => ?_, fun hp hrate => ?_, fun hp hs hend => ?_,
    fun hp hs hend hbf => ?_, fun hp hs hend hbf hbi => ?_, fun hr hplaying => ?_, fun hr hidle =>
    ⟨fun hlt => ?_, fun hle => ⟨fun habsent hnewer => ?_, fun hall => ?_, fun hpresent hroom => ?_⟩⟩⟩
  · exact exec_arm_badParam h (if_pos hc)
  · subst hin
    exact exec_arm_badParam h ((if_neg (by simpa using hc)).trans (if_pos rfl))
  · subst hout
    exact exec_arm_badParam h ((if_neg (by simpa using hc)).trans
      ((if_neg (ne_zero_of_toNat hin)).trans (if_pos rfl)))
  · have hrate' : rate.toNat = 0 ∨ 8 < rate.toNat := hrate.imp_left fun hz => by rw [hz]; rfl
    exact exec_arm_badParam h ((armBadParam_of_points hp).trans (if_pos hrate'))
  · refine exec_arm_badParam h ((armBadParam_of_points hp).trans ?_)
    rw [if_neg (by omega), if_pos hend]
  · refine exec_arm_badParam h ((armBadParam_of_points hp).trans ?_)
    rw [if_neg (by omega), if_neg (by omega), if_pos hbf]
  · refine exec_arm_badParam h ((armBadParam_of_points hp).trans ?_)
    rw [if_neg (by omega), if_neg (by omega), if_neg (by omega), if_pos hbi]
  all_goals refine exec_arm_refused h rfl ((armRequest_asked h tag _ hr).trans ?_)
  · rw [if_pos hplaying]
    rfl
  · rw [if_neg hidle, if_pos hlt]
    rfl
  · obtain ⟨x, hx, hxo⟩ := hnewer
    rw [if_neg hidle, if_neg (by omega), if_pos ⟨hxo.trans (le_newestSeq hx), habsent⟩]
    rfl
  · have hlt : newestSeq s < outP.toNat :=
      newestSeq_lt_of_forall (Nat.pos_of_ne_zero (ne_zero_of_toNat hr.1.2.2)) hall
    rw [if_neg hidle, if_neg (by omega), if_neg (by omega), if_pos hlt]
    rfl
  · have hnewest : outP.toNat ≤ newestSeq s := le_newestSeq (present_iff.1 hpresent)
    rw [if_neg hidle, if_neg (by omega), if_neg (by simp [hpresent]), if_neg (by omega),
      if_pos (hroom _ rfl rfl rfl)]
    rfl

/-! ### DISARM and RESET_RING (R115, R116) -/

section
variable {s : State} {id : BitVec 8} {tag c : Byte}

/-- What DISARM answers for a clip in this state (R115). -/
def disarmAnswer (t : State) (k : Nat) : ClipState → State × Verdict
  | .playing => (t, verdict .inUse)
  | .empty => (t, verdict .duplicate)
  | .armed => (modifyClip t k fun _ => .emptied, verdict .accepted)

theorem disarmRequest_of_state {t : State} {k : Nat} (hk : k ≤ 15) :
    disarmRequest t k = disarmAnswer t k (clipAt t k).state := by
  rw [disarmRequest, if_neg (by omega)]
  cases (clipAt t k).state <;> rfl

/-- An emptied clip holds nothing, so a slot that no other clip holds is released at once (R110, R115). -/
theorem slotHeld_of_emptied {t : State} {j k : Nat} (hreplay : t.replay = s.replay)
    (hother : ∀ b, b ≠ j → (clipAt s b).holds (slotAt s k).seq = false) :
    slotHeld (modifyClip t j fun _ => .emptied) k = false := by
  have hslot : slotAt (modifyClip t j fun _ => .emptied) k = slotAt s k := by
    rw [← slotAt_of_replay hreplay]
    rfl
  rw [slotHeld, hslot, heldBy, Bool.and_eq_false_iff, List.any_eq_false]
  refine .inr fun x hx => ?_
  obtain ⟨b, hb, rfl⟩ := List.mem_iff_getElem.1 hx
  have hlen : b < s.replay.clips.length := by
    rw [← hreplay]
    simpa [modifyClip] using hb
  have hclips : (modifyClip t j fun _ => Clip.emptied).replay.clips[b] =
      if j = b then Clip.emptied else clipAt s b := by
    simp only [modifyClip, setReplay_replay, hreplay, List.getElem_modify, clipAt,
      List.getD_eq_getElem _ _ hlen]
  rw [hclips]
  split
  · exact Bool.false_ne_true
  · next hne => simp [hother b (Ne.symm hne)]

variable (h : WordReady s id .replayWord)
include h

theorem exec_disarm_refused {o : ReqOutcome} {value offset : Nat} (ho : o.refused = true)
    (ha : ∀ t, t.replay = s.replay → disarmRequest t c.toNat =
      (t, { outcome := o, waits := false, value := value, offset := offset })) :
    exec (.disarm id tag c) s =
      .next (refusedWith (asked s id .replayWord 2 [c] tag) .replayWord tag 2 o value offset) :=
  asking_refused s id .replayWord 2 [c] tag o value offset h
    ((answer_disarm _ tag c).trans (ha _ (asked_replay ..))) ho

theorem exec_disarm_taken {o : ReqOutcome} {f : State → State} (ho : o.refused = false)
    (hf : ∀ t, (f t).report = t.report)
    (ha : ∀ t, t.replay = s.replay → disarmRequest t c.toNat = (f t, verdict o)) :
    exec (.disarm id tag c) s =
      .next (recorded (f (asked s id .replayWord 2 [c] tag)) .replayWord tag o false) :=
  asking_taken s id .replayWord 2 [c] tag _ o false _ h
    ((answer_disarm _ tag c).trans (ha _ (asked_replay ..))) ⟨rfl, rfl⟩ ho
    ((asked_quiet s id _ _ _ _ h.1).of_report (hf _))

end

/-- Settles O14: DISARM by the state of its clip, RESET_RING by whether a clip is PLAYING. -/
theorem disarmAndResetRingReleaseTheSlots : Obligations.DisarmAndResetRingReleaseTheSlots := by
  intro s id tag c h t u v
  have answer : ∀ {x : State}, c.toNat ≤ 15 → x.replay = s.replay → ∀ {state}, (clipAt s c.toNat).state = state →
      disarmRequest x c.toNat = disarmAnswer x c.toNat state := by
    rintro x hc hx state rfl
    rw [disarmRequest_of_state hc, clipAt_of_replay hx]
  refine ⟨fun hc harmed => ⟨?_, fun k hother => slotHeld_of_emptied (asked_replay ..) hother⟩,
    fun hc hempty => ?_, fun hc hplaying => ?_, fun hc => ?_, fun hidle => ?_, fun hbusy => ?_⟩
  · exact exec_disarm_taken h rfl (f := fun x => modifyClip x c.toNat fun _ => .emptied) (fun _ => rfl)
      fun x hx => answer hc hx harmed
  · exact exec_disarm_taken h rfl (f := fun x => x) (fun _ => rfl) fun x hx => answer hc hx hempty
  · exact exec_disarm_refused h rfl fun x hx => answer hc hx hplaying
  · exact exec_disarm_refused h rfl fun x _ => if_pos hc
  · have hany : (v.replay.clips.any fun x => x.state == .playing) = false := by
      rw [List.any_eq_false, asked_replay]
      exact fun x hx => by simpa using hidle x hx
    have hring : resetRingRequest v = (emptyRing v, verdict .accepted) := by
      rw [resetRingRequest, hany]
      rfl
    rw [show ({ v with replay := _ } : State) = emptyRing v by
      simp only [emptyRing, setReplay, v, asked_replay, asked_geom]]
    exact asking_taken s id .replayWord 3 [] tag _ _ false _ h ((answer_resetRing v tag).trans hring)
      ⟨rfl, rfl⟩ rfl (asked_quiet s id _ _ _ _ h.1)
  · have hany : (v.replay.clips.any fun x => x.state == .playing) = true := by
      obtain ⟨x, hx, hplaying⟩ := hbusy
      rw [List.any_eq_true, asked_replay]
      exact ⟨x, hx, by simpa using hplaying⟩
    have hring : resetRingRequest v = (v, verdict .inUse) := by
      rw [resetRingRequest, hany]
      rfl
    exact asking_refused s id .replayWord 3 [] tag _ 0 0 h ((answer_resetRing v tag).trans hring) rfl

end Sys2Proof.ReplayProofs
end

section
/-! Forwarded traffic, window reads, and which transaction a response answers (R99, R100, R106, R164 to R167,
R176). -/

namespace Sys2Proof.ReplayProofs
open Sys2Proof.Machine Sys2Proof.FrameProofs

/-! ### The oldest waiting transaction -/

section
variable {s : State} {e : Entry} {before after : List Entry}

/-- Behind transactions that do not fit, the one that fits and is unanswered is the oldest. -/
theorem oldestWaiting_eq (horder : s.path.order = before ++ e :: after) (hnone : e.answer = none)
    {p : Entry → Bool} (hp : p e = true) (hbefore : ∀ x ∈ before, p x = false ∨ x.answer ≠ none) :
    oldestWaiting s p = some e := by
  have hskip : before.find? (fun x => x.answer.isNone && p x) = none := by
    rw [List.find?_eq_none]
    intro x hx
    rcases hbefore x hx with hx | hx
    · simp [hx]
    · simp [hx]
  rw [oldestWaiting, horder, List.find?_append, hskip, Option.none_or,
    List.find?_cons_of_pos (by simp [hnone, hp])]

theorem awaits_remapped_iff (x : Entry) : x.awaits false = true ↔ ∃ j o, x.kind = .ingest j .waiting o := by
  unfold Entry.awaits
  cases x.kind <;> simp

theorem awaits_outside_iff (x : Entry) : x.awaits true = true ↔ ∃ j r, x.kind = .ingest j r .waiting := by
  unfold Entry.awaits
  cases x.kind <;> simp

/-- The oldest ingest write of this ID that waits for this response. -/
theorem oldestAwaiting_eq (horder : s.path.order = before ++ e :: after) (hnone : e.answer = none)
    {outside : Bool} (hawaits : e.awaits outside = true)
    (hbefore : ∀ x ∈ before, x.id ≠ e.id ∨ x.awaits outside = false ∨ x.answer ≠ none) :
    oldestWaiting s (fun x => x.id == e.id && x.awaits outside) = some e :=
  oldestWaiting_eq horder hnone (by simp [hawaits]) fun x hx => by
    rcases hbefore x hx with hid | hidle | hanswer
    · exact .inl (by simp [hid])
    · exact .inl (by simp [hidle])
    · exact .inr hanswer

theorem ingestResponse_of_remapped {k : Nat} {remap other : Piece} {code : Resp}
    (hkind : e.kind = .ingest k remap other) (hstale : Stale.ingest e.id false ∉ s.path.stale)
    (hold : oldestWaiting s (fun x => x.id == e.id && x.awaits false) = some e) :
    ingestResponse s e.id false code =
      setPieces (if respIsError code then markWriteError s k else s) e k (.answered code) other := by
  rw [ingestResponse, isStale_eq_false hstale, if_neg Bool.false_ne_true, hold]
  simp only [hkind]

theorem ingestResponse_of_outside {k : Nat} {remap other : Piece} {code : Resp}
    (hkind : e.kind = .ingest k remap other) (hstale : Stale.ingest e.id true ∉ s.path.stale)
    (hold : oldestWaiting s (fun x => x.id == e.id && x.awaits true) = some e) :
    ingestResponse s e.id true code = setPieces s e k remap (.answered code) := by
  rw [ingestResponse, isStale_eq_false hstale, if_neg Bool.false_ne_true, hold]
  simp only [hkind]

end

/-- A response to what a reset dropped is discarded (R176). -/
theorem done_discard {s : State} (hq : Quiet s) (x : Stale) : done (discard s x) = .next (discard s x) :=
  congrArg Host.Outcome.next (settle_of_quiet (discard s x) (hq.of_report rfl))

theorem isStale_of_mem {s : State} {x : Stale} (h : x ∈ s.path.stale) : isStale s x = true := by
  simpa [isStale] using h

/-- Settles O39: the response finds its transaction by the response order, and what it leaves the ingest write
waiting for decides whether it is answered. -/
theorem responsesAnswerTheOldestTransaction : Obligations.ResponsesAnswerTheOldestTransaction := by
  refine ⟨fun s e before after hq horder hnone => ⟨fun data status hkind hstale hbefore hdata hstatus => ?_,
    fun k remap other code hkind => ?_⟩, fun s hq => ?_⟩
  · have hold : oldestWaiting s (fun x => x.id == e.id && x.dir == e.dir && x.kind == .forwarded) = some e :=
      oldestWaiting_eq horder hnone (by simp [hkind]) fun x hx => by
        have := hbefore x hx
        simp only [Bool.and_eq_false_iff, beq_eq_false_iff_ne]
        tauto
    change done (forwardedResponse s e.dir e.id data status) = _
    rw [forwardedResponse, isStale_eq_false hstale, if_neg Bool.false_ne_true, hold]
    simp only [hdata, hstatus, and_self, if_true]
    exact done_of_sameButAnswers hq (answerKey_same _ _ _)
  · intro answered held marked joined
    have hqm : Quiet marked := hq.of_report (by simp only [marked]; split <;> rfl)
    have hanswer : ∀ x status, Quiet x → done (answered x status) = .next (answered x status) :=
      fun x status hx => done_of_sameButAnswers hx (answerKey_same x e.key _)
    have hheld : ∀ x kind, Quiet x → done (held x kind) = .next (held x kind) := fun x kind hx =>
      congrArg Host.Outcome.next (settle_of_quiet (held x kind) (hx.of_report rfl))
    have hjoin : ∀ a b, (if (respIsError a || respIsError b) = true then Resp.slverr else .okay) = joined a b :=
      fun a b => by simp [joined]
    refine ⟨fun hremap hstale hbefore => ?_, fun hother hstale hbefore => ?_⟩
    · have hresp := ingestResponse_of_remapped (code := code) hkind hstale
        (oldestAwaiting_eq horder hnone ((awaits_remapped_iff e).2 ⟨k, other, hremap ▸ hkind⟩) fun x hx =>
          (hbefore x hx).imp_right <| .imp_left fun hne => by
            rw [← Bool.not_eq_true, awaits_remapped_iff]
            exact fun ⟨j, o, hj⟩ => hne j o hj)
      refine ⟨fun hother => ?_, fun hother => ?_, fun r hother => ?_⟩
      all_goals
        change done (ingestResponse s e.id false code) = _
        rw [hresp, hother]
      · exact hanswer marked code hqm
      · exact hheld marked _ hqm
      · rw [← hjoin]
        exact hanswer marked _ hqm
    · have hresp := ingestResponse_of_outside (code := code) hkind hstale
        (oldestAwaiting_eq horder hnone ((awaits_outside_iff e).2 ⟨k, remap, hother ▸ hkind⟩) fun x hx =>
          (hbefore x hx).imp_right <| .imp_left fun hne => by
            rw [← Bool.not_eq_true, awaits_outside_iff]
            exact fun ⟨j, o, hj⟩ => hne j o hj)
      refine ⟨fun hremap => ?_, fun r hremap => ?_⟩
      all_goals
        change done (ingestResponse s e.id true code) = _
        rw [hresp, hremap]
      · exact hheld s _ hq
      · rw [← hjoin]
        exact hanswer s _ hq
  · intro without
    refine ⟨fun dir id data status h => ?_, fun id outside code h => ?_, fun read program overlay status h => ?_,
      fun read l addr h => ⟨?_, ?_⟩, fun error data h => ?_, fun h => ?_⟩
    · change done (forwardedResponse s dir id data status) = _
      rw [forwardedResponse, if_pos (isStale_of_mem h)]
      exact done_discard hq _
    · change done (ingestResponse s id outside code) = _
      rw [ingestResponse, if_pos (isStale_of_mem h)]
      exact done_discard hq _
    · change done (compositedAnswer s read _) = _
      rw [compositedAnswer, if_pos (isStale_of_mem h)]
      exact done_discard hq _
    · exact done_of_eq hq (if_pos (isStale_of_mem h))
    · exact done_of_eq hq (if_pos (isStale_of_mem h))
    · exact if_pos (isStale_of_mem h)
    · change done (refreshComplete s) = _
      rw [refreshComplete, if_pos (isStale_of_mem h)]
      exact done_discard hq _

/-! ### Forwarded writes, forwarded reads and window reads -/

/-- Where a byte of a window read is fetched, and for what (R100). -/
def windowDest (s : State) (a : Nat) : Purpose × Nat :=
  if inWindow s.path.geom a then (.window, windowAddr s.path.geom (windowSlotNow s) a) else (.outside, a)

theorem windowDest_of_window {s : State} {a : Nat} (h : inWindow s.path.geom a = true) :
    windowDest s a = (.window, windowAddr s.path.geom (windowSlotNow s) a) := if_pos h

theorem windowDest_of_outside {s : State} {a : Nat} (h : inWindow s.path.geom a = false) :
    windowDest s a = (.outside, a) := if_neg (by simp [h])

theorem windowDest_window (s : State) (a : Nat) :
    ((windowDest s a).1 == .window) = inWindow s.path.geom a := by
  cases h : inWindow s.path.geom a
  · rw [windowDest_of_outside h]
    rfl
  · rw [windowDest_of_window h]
    rfl

theorem windowDest_outside (s : State) (a : Nat) :
    ((windowDest s a).1 == .outside) = !inWindow s.path.geom a := by
  cases h : inWindow s.path.geom a
  · rw [windowDest_of_outside h]
    rfl
  · rw [windowDest_of_window h]
    rfl

theorem windowDest_program (s : State) (a : Nat) : ((windowDest s a).1 == .program) = false := by
  cases h : inWindow s.path.geom a
  · rw [windowDest_of_outside h]
    rfl
  · rw [windowDest_of_window h]
    rfl

/-- The piece of a purpose that no byte has is not issued. -/
theorem pieceOf_none {id : BitVec 8} {dest : Nat → Purpose × Nat} {addrs : List Nat} {p : Purpose}
    (h : addrs.filter (fun a => (dest a).1 == p) = []) : pieceOf id dest addrs p = none := by
  rw [pieceOf, h]

/-- The window piece and the piece beside the window of a window read (R165). -/
def windowPieces (s : State) (id : BitVec 8) (addrs : List Nat) : List DownTxn :=
  readPieces id (windowDest s) addrs

/-- The window piece of a window read. -/
def windowFetch (s : State) (id : BitVec 8) (addrs : List Nat) : DownTxn :=
  .fetch id .window ((addrs.filter (inWindow s.path.geom)).map (windowAddr s.path.geom (windowSlotNow s)))

section
variable {s : State} {id : BitVec 8} {addrs : List Nat}

theorem pieceOf_program : pieceOf id (windowDest s) addrs .program = none :=
  pieceOf_none (by simp [windowDest_program])

theorem pieceOf_window (h : ∃ a ∈ addrs, inWindow s.path.geom a = true) :
    ∃ n, pieceOf id (windowDest s) addrs .window = some (n, windowFetch s id addrs) := by
  obtain ⟨a, ha, hw⟩ := h
  obtain ⟨⟨n, d⟩, hx⟩ := pieceOf_isSome (id := id) (dest := windowDest s) (p := .window) ha
    (by rw [windowDest_of_window hw])
  have hd : d = windowFetch s id addrs := by
    refine (snd_of_pieceOf hx).trans ?_
    simp only [windowDest_window, windowFetch]
    congr 1
    exact List.map_congr_left fun b hb => by rw [windowDest_of_window (List.mem_filter.1 hb).2]
  exact ⟨n, hd ▸ hx⟩

theorem pieceOf_beside (h : (addrs.filter fun a => !inWindow s.path.geom a) ≠ []) :
    ∃ n, pieceOf id (windowDest s) addrs .outside =
      some (n, .fetch id .outside (addrs.filter fun a => !inWindow s.path.geom a)) := by
  obtain ⟨a, ha⟩ := List.exists_mem_of_ne_nil _ h
  obtain ⟨hmem, hout⟩ := List.mem_filter.1 ha
  obtain ⟨⟨n, d⟩, hx⟩ := pieceOf_isSome (id := id) (dest := windowDest s) (p := .outside) hmem
    (by rw [windowDest_of_outside (by simpa using hout)])
  have hd : d = .fetch id .outside (addrs.filter fun a => !inWindow s.path.geom a) := by
    refine (snd_of_pieceOf hx).trans ?_
    simp only [windowDest_outside]
    congr 1
    refine (List.map_congr_left fun b hb => ?_).trans (List.map_id' _)
    rw [windowDest_of_outside (by simpa using (List.mem_filter.1 hb).2)]
  exact ⟨n, hd ▸ hx⟩

/-- A read whose bytes all lie in the window has one piece. -/
theorem windowPieces_inside (hw : ∃ a ∈ addrs, inWindow s.path.geom a = true)
    (hb : (addrs.filter fun a => !inWindow s.path.geom a) = []) :
    windowPieces s id addrs = [windowFetch s id addrs] := by
  obtain ⟨n, hx⟩ := pieceOf_window (id := id) hw
  have hp := perm_readPieces id (windowDest s) addrs
  rw [List.filterMap_cons_none pieceOf_program, List.filterMap_cons_some hx,
    List.filterMap_cons_none (pieceOf_none (by simpa only [windowDest_outside] using hb))] at hp
  exact List.perm_singleton.1 hp

/-- A read with bytes beside the window has two pieces, in the order of their addresses. -/
theorem windowPieces_beside (hw : ∃ a ∈ addrs, inWindow s.path.geom a = true)
    (hb : (addrs.filter fun a => !inWindow s.path.geom a) ≠ []) :
    let beside : DownTxn := .fetch id .outside (addrs.filter fun a => !inWindow s.path.geom a)
    windowPieces s id addrs = [windowFetch s id addrs, beside] ∨
      windowPieces s id addrs = [beside, windowFetch s id addrs] := by
  obtain ⟨n, hx⟩ := pieceOf_window (id := id) hw
  obtain ⟨m, hy⟩ := pieceOf_beside (id := id) hb
  have hp := perm_readPieces id (windowDest s) addrs
  rw [List.filterMap_cons_none pieceOf_program, List.filterMap_cons_some hx,
    List.filterMap_cons_some hy] at hp
  exact List.perm_pair.1 hp

end

theorem windowRead_eq (s : State) (r : ReadReq) :
    windowRead s r = enterOrder (issueAll s (windowPieces s r.id ((readBytes r).map Prod.snd))) r.id .read
      .forwarded (readBytes r).length r.beats none := rfl

theorem quiet_windowRead {s : State} (hq : Quiet s) (r : ReadReq) : Quiet (windowRead s r) :=
  hq.of_report (by rw [windowRead_eq, issueAll_eq]; rfl)

/-- The arrival of a read that is not composited (R164). -/
theorem arriveRead_of_plain {s : State} {r : ReadReq} (h : isComposited s r = false) :
    arriveRead s r = if isWindowRead s r then windowRead s r else forwardRead s r := by
  rw [arriveRead, h]

theorem isWindowRead_iff (s : State) (r : ReadReq) : isWindowRead s r = true ↔
    s.report.mode = .live ∧ ∃ a ∈ (readBytes r).map Prod.snd, inWindow s.path.geom a = true := by
  simp only [isWindowRead, Bool.and_eq_true, beq_iff_eq, List.any_eq_true, List.mem_map,
    exists_exists_and_eq_and]

/-- The command of a read that is not composited, whose arrival raises nothing. -/
theorem reading_of_plain {s t : State} {r : ReadReq} (hl : legalRead r = true)
    (hc : isComposited s r = false)
    (ht : (if isWindowRead s r then windowRead s r else forwardRead s r) = t) (hq : Quiet t) :
    reading r s = .next t := by
  rw [reading, if_pos hl, arriveRead_of_plain hc, ht, done, settle_of_quiet t hq]

/-- Settles O33: a read is forwarded unless it meets the conditions of a window read, and the pieces of a
window read are the permutation of its window piece and the piece beside it that the addresses give. -/
theorem forwardedAndWindowTraffic : Obligations.ForwardedAndWindowTraffic := by
  intro s hq
  refine ⟨fun w hl hc => ?_, fun r hl hc => ⟨fun hplain => ?_, fun hm hw => ?_⟩⟩
  · have harrive : arriveWrite s w = some (forwardWrite s w) := by rw [arriveWrite, hc]
    change arriving w s = _
    rw [arriving, if_pos hl, harrive]
    exact congrArg Host.Outcome.next (settle_of_quiet (forwardWrite s w) (hq.of_report rfl))
  · have hno : isWindowRead s r = false := by
      rw [← Bool.not_eq_true, isWindowRead_iff]
      rintro ⟨hm, a, ha, hin⟩
      rcases hplain with hp | hout
      · simp [hp] at hm
      · simp [hout a ha] at hin
    change reading r s = _
    rw [reading_of_plain (t := forwardRead s r) hl hc (by simp [hno]) (hq.of_report rfl), forwardRead,
      List.length_map]
  · have hyes : isWindowRead s r = true := (isWindowRead_iff s r).2 ⟨hm, hw⟩
    refine ⟨windowPieces s r.id ((readBytes r).map Prod.snd), ?_, windowPieces_inside hw,
      windowPieces_beside hw⟩
    change reading r s = _
    rw [reading_of_plain hl hc (by rw [if_pos hyes]) (quiet_windowRead hq r), windowRead_eq,
      List.length_map]

end Sys2Proof.ReplayProofs
end

section
/-! Filling the ring: the next fill slot and what an ingest write stores (R99, R102 to R106, R109, R110). -/

namespace Sys2Proof.ReplayProofs
open Sys2Proof.Machine Sys2Proof.FrameProofs Sys2Proof.SponsorProofs Sys2Proof.ScoreProofs

/-! ### The newest slot (R109) and the slots that are held (R110) -/

section
variable {s : State}

/-- A property of some slot that an EMPTY one lacks holds of a slot of the ring. -/
theorem exists_slot_iff {p : Slot → Prop} (hempty : ¬p .emptied) :
    (∃ x ∈ s.replay.slots, p x) ↔ ∃ j, p (slotAt s j) := by
  constructor
  · rintro ⟨x, hx, hp⟩
    obtain ⟨j, hj, rfl⟩ := List.mem_iff_getElem.1 hx
    exact ⟨j, by rwa [slotAt, List.getD_eq_getElem _ _ hj]⟩
  · rintro ⟨j, hp⟩
    by_cases hj : j < s.replay.slots.length
    · exact ⟨_, slotAt_mem hj, hp⟩
    · rw [slotAt, List.getD_eq_default _ _ (by omega)] at hp
      exact absurd hp hempty

/-- A property of some clip that an EMPTY one lacks holds of a clip of the table. -/
theorem exists_clip_iff {p : Clip → Prop} (hempty : ¬p .emptied) :
    (∃ x ∈ s.replay.clips, p x) ↔ ∃ c, p (clipAt s c) := by
  constructor
  · rintro ⟨x, hx, hp⟩
    obtain ⟨c, hc, rfl⟩ := List.mem_iff_getElem.1 hx
    exact ⟨c, by rwa [clipAt, List.getD_eq_getElem _ _ hc]⟩
  · rintro ⟨c, hp⟩
    by_cases hc : c < s.replay.clips.length
    · refine ⟨clipAt s c, ?_, hp⟩
      rw [clipAt, List.getD_eq_getElem _ _ hc]
      exact List.getElem_mem hc
    · rw [clipAt, List.getD_eq_default _ _ (by omega)] at hp
      exact absurd hp hempty

theorem holds_iff (c : Clip) (q : Nat) :
    c.holds q = true ↔ c.state ≠ .empty ∧ c.inPoint ≤ q ∧ q ≤ c.outPoint := by
  simp [Clip.holds, and_assoc]

theorem slotHeld_iff (k : Nat) : slotHeld s k = true ↔ (slotAt s k).state = .filled ∧
    ∃ c, (clipAt s c).state ≠ .empty ∧ (clipAt s c).inPoint ≤ (slotAt s k).seq ∧
      (slotAt s k).seq ≤ (clipAt s c).outPoint := by
  rw [slotHeld, heldBy, Bool.and_eq_true, beq_iff_eq, List.any_eq_true]
  simp only [holds_iff]
  rw [exists_clip_iff (by simp [Clip.emptied])]

theorem mem_filledSeqs {q : Nat} :
    q ∈ filledSeqs s ↔ ∃ j, (slotAt s j).state = .filled ∧ (slotAt s j).seq = q := by
  rw [← exists_slot_iff (p := fun x => x.state = .filled ∧ x.seq = q) (by simp [Slot.emptied])]
  simp [filledSeqs, and_assoc]

/-- Slot `b` is FILLED with a sequence above those of the other FILLED slots. -/
abbrev Newest (s : State) (b : Nat) : Prop :=
  b < s.replay.slots.length ∧ (slotAt s b).state = .filled ∧
    ∀ j, j < s.replay.slots.length → j ≠ b → (slotAt s j).state = .filled →
      (slotAt s j).seq < (slotAt s b).seq

theorem newestSeq_of_newest {b : Nat} (h : Newest s b) : newestSeq s = (slotAt s b).seq := by
  obtain ⟨-, hfilled, hrest⟩ := h
  have hle : (slotAt s b).seq ≤ newestSeq s := le_newestSeq (mem_filledSeqs.2 ⟨b, hfilled, rfl⟩)
  refine le_antisymm ?_ hle
  rcases foldl_max_mem (filledSeqs s) 0 with hzero | hmem
  · rw [newestSeq, hzero]
    exact Nat.zero_le _
  · obtain ⟨j, hj, hseq⟩ := mem_filledSeqs.1 hmem
    rw [newestSeq, ← hseq]
    by_cases hjb : j = b
    · rw [hjb]
    · exact (hrest j (lt_of_slotAt (by simp [hj])) hjb hj).le

theorem newestSlot_of_newest {b : Nat} (h : Newest s b) : newestSlot s = some b := by
  have hseq := newestSeq_of_newest h
  obtain ⟨hb, hfilled, hrest⟩ := h
  have hsome : (filledSeqs s).isEmpty = false := by
    rw [List.isEmpty_eq_false_iff_exists_mem]
    exact ⟨_, mem_filledSeqs.2 ⟨b, hfilled, rfl⟩⟩
  rw [newestSlot, hsome, if_neg Bool.false_ne_true, slotOf, List.findIdx?_eq_some_iff_getElem]
  have hget : ∀ j (hj : j < s.replay.slots.length), s.replay.slots[j] = slotAt s j := fun j hj => by
    rw [slotAt, List.getD_eq_getElem _ _ hj]
  refine ⟨hb, by simp [hget, hfilled, hseq], fun j hj => ?_⟩
  rw [hget j (hj.trans hb), hseq, Bool.and_eq_true, beq_iff_eq, beq_iff_eq]
  rintro ⟨hjfilled, heq⟩
  exact absurd heq (hrest j (hj.trans hb) hj.ne hjfilled).ne

theorem newestSlot_of_none_filled (h : ∀ j, (slotAt s j).state ≠ .filled) : newestSlot s = none := by
  have hnil : filledSeqs s = [] := List.eq_nil_iff_forall_not_mem.2 fun q hq => by
    obtain ⟨j, hj, -⟩ := mem_filledSeqs.1 hq
    exact h j hj
  rw [newestSlot, hnil]
  rfl

/-! ### The next fill slot (R102) -/

/-- Slot `k` is the first one from `start` on, round the ring, that is not held. -/
abbrev UnheldFrom (s : State) (start k : Nat) : Prop :=
  slotHeld s k = false ∧ ∃ i, i < s.replay.slots.length ∧ k = (start + i) % s.replay.slots.length ∧
    ∀ j, j < i → slotHeld s ((start + j) % s.replay.slots.length) = true

theorem nextFill_eq_some_iff {start k : Nat} (h : searchStart s = start) :
    nextFill s = some k ↔ UnheldFrom s start k := by
  rw [nextFill, List.find?_eq_some_iff_getElem]
  simp only [searchOrder, h, List.getElem_map, List.getElem_range, List.length_map, List.length_range,
    exists_prop, Bool.not_not, Bool.not_eq_true']
  exact and_congr_right fun _ => exists_congr fun i => and_congr_right fun _ => and_congr_left' eq_comm

theorem nextFill_eq_none_iff :
    nextFill s = none ↔ ∀ k, k < s.replay.slots.length → slotHeld s k = true := by
  rw [nextFill, List.find?_eq_none]
  constructor
  · exact fun h k hk => by simpa using h k (mem_searchOrder hk)
  · intro h k hk
    obtain ⟨i, hi, rfl⟩ := List.mem_map.1 hk
    have hpos : 0 < s.replay.slots.length := (Nat.zero_le i).trans_lt (List.mem_range.1 hi)
    simp [h _ (Nat.mod_lt _ hpos)]

end

/-! ### An ingest write inside the window and beside the captured areas -/

/-- Every byte of the write lies in the window, and none in a captured area. -/
abbrev InWindowOnly (s : State) (w : WriteReq) : Prop :=
  ∀ b ∈ writeBytes w, inWindow s.path.geom b.1 = true ∧ inCaptured s b.1 = false

/-- The write is stored into slot `k` and enters the response order (R99, R167). -/
def storedIn (x : State) (g : Geometry) (w : WriteReq) (k : Nat) : State :=
  enterOrder
    (issue x (.store w.id (.ingest k) ((writeBytes w).map fun b =>
      (g.poolBase + k * (g.stride * g.height) + (b.1 - g.windowBase), b.2))))
    w.id .write (.ingest k .waiting .absent) 0 1 none

section
variable {s : State} {w : WriteReq}

theorem outsideBytes_of_inWindow (h : InWindowOnly s w) : outsideBytes s.path.geom w = [] :=
  List.filter_eq_nil_iff.2 fun b hb => by simp [(h b hb).1]

theorem windowBytes_of_inWindow (h : InWindowOnly s w) :
    windowBytes s.path.geom w = (writeBytes w).map fun b => (b.1 - s.path.geom.windowBase, b.2) := by
  rw [windowBytes, ← List.filterMap_eq_map]
  exact List.filterMap_congr fun b hb => by simp [(h b hb).1]

theorem le_of_inWindow {g : Geometry} {a : Nat} (h : inWindow g a = true) : g.windowBase ≤ a := by
  simp only [inWindow, Bool.and_eq_true, decide_eq_true_eq] at h
  exact h.1

theorem touchesFirst_iff (h : InWindowOnly s w) : touchesFirst s.path.geom w = true ↔
    ∃ b ∈ writeBytes w, b.1 < s.path.geom.windowBase + 16 := by
  rw [touchesFirst, windowBytes_of_inWindow h, List.any_map, List.any_eq_true]
  refine exists_congr fun b => and_congr_right fun hb => ?_
  have := le_of_inWindow (h b hb).1
  simp only [Function.comp_apply, decide_eq_true_eq]
  omega

theorem touchesFinal_iff (h : InWindowOnly s w) : touchesFinal s.path.geom w = true ↔
    ∃ b ∈ writeBytes w,
      s.path.geom.windowBase + s.path.geom.stride * s.path.geom.height ≤ b.1 + 16 := by
  rw [touchesFinal, windowBytes_of_inWindow h, List.any_map, List.any_eq_true]
  refine exists_congr fun b => and_congr_right fun hb => ?_
  have := le_of_inWindow (h b hb).1
  simp only [Function.comp_apply, decide_eq_true_eq]
  rw [canvasSize]
  omega

/-- A write that reaches no captured area captures nothing. -/
theorem capture_of_no_bytes {t : State} (h : captureBytes t w = []) : capture t w = t := by
  rw [capture, h]
  rfl

theorem captureBytes_of_beside {t : State} (h : InWindowOnly s w) (ht : t.path.tbase = s.path.tbase) :
    captureBytes t w = [] := by
  have hcaptured : ∀ a, inCaptured t a = inCaptured s a := fun a => by
    rw [inCaptured, inCaptured, tableBase, tableBase, ht]
  rw [captureBytes, List.filterMap_eq_nil_iff]
  exact fun b hb => by rw [hcaptured, (h b hb).2, if_neg Bool.false_ne_true]

theorem issueAll_ingestPieces (h : InWindowOnly s w) (u : State) (k : Nat) :
    enterOrder (issueAll u (ingestPieces s.path.geom w k)) w.id .write
        (.ingest k .waiting (outsidePiece s.path.geom w)) 0 1 none = storedIn u s.path.geom w k := by
  rw [ingestPieces, outsidePiece, outsideBytes_of_inWindow h]
  dsimp only
  rw [remappedWrite, windowBytes_of_inWindow h, List.map_map]
  rfl

theorem commitFrame_storedIn (u : State) (g : Geometry) (k : Nat) :
    commitFrame (storedIn u g w k) k = storedIn (commitFrame u k) g w k := by
  have hslot : slotAt (storedIn u g w k) k = slotAt u k := rfl
  have hseq : (storedIn u g w k).replay.captureSeq = u.replay.captureSeq := rfl
  rw [commitFrame, commitFrame, hslot, hseq]
  split
  · rfl
  · split <;> rfl

theorem path_commitFrame (u : State) (k : Nat) : (commitFrame u k).path = u.path := by
  rw [commitFrame]
  split
  · rfl
  · split <;> rfl

/-- An ingest write commits where it touches the final bytes, and is stored. -/
theorem fillWrite_eq (h : InWindowOnly s w) {u : State} (hu : u.path = s.path) (k : Nat) :
    fillWrite u w k = storedIn (if touchesFinal s.path.geom w then commitFrame u k else u) s.path.geom w k := by
  have hpath : ∀ x : State, x.path = s.path → captureBytes (storedIn x s.path.geom w k) w = [] :=
    fun x hx => captureBytes_of_beside h (congrArg PathUnit.tbase hx :)
  rw [fillWrite, hu]
  rw [issueAll_ingestPieces h]
  split
  · rw [commitFrame_storedIn, capture_of_no_bytes (hpath _ ((path_commitFrame u k).trans hu))]
  · rw [capture_of_no_bytes (hpath u hu)]

/-- The command of an ingest write, by the slot that it finds or opens (R102, R105). -/
theorem exec_ingestWrite (hl : legalWrite w = true) (hc : classifyWrite s w = .ingest)
    (h : InWindowOnly s w) {k : Nat} {u : State}
    (hopen : openFor s (touchesFirst s.path.geom w) = some (k, u)) (hu : u.path = s.path) :
    exec (.ingestWrite w) s = .next (settle
      (storedIn (if touchesFinal s.path.geom w then commitFrame u k else u) s.path.geom w k)) := by
  have harrive : arriveWrite s w = some (fillWrite u w k) := by
    rw [arriveWrite, hc]
    change ingestWrite s w = _
    rw [ingestWrite, hopen]
    rfl
  change arriving w s = _
  rw [arriving, if_pos hl, harrive, fillWrite_eq h hu]
  rfl

end

/-! ### One slot set anew -/

/-- Slot `k` becomes `x`, and the fill slot and the capture sequence become these. -/
def withSlot (s : State) (x : Slot) (k : Nat) (fill : Option Nat) (seq : Nat) : State :=
  { s with replay := { s.replay with
      slots := s.replay.slots.modify k fun _ => x, fill := fill, captureSeq := seq } }

/-- A slot as a frame opens into it (R102). -/
abbrev filling : Slot := { Slot.emptied with state := .filling }

/-- The slot of a committed frame (R103). -/
def committed (s : State) (x : Slot) : Slot :=
  { x with
    state := .filled, seq := s.replay.captureSeq, commitFrame := s.comp.frame,
    stampValue := s.clock.value, stampMode := s.clock.config.mode, stampPeriod := s.clock.period }

/-- The fields of INGEST_ABANDONED. -/
abbrev abandonFields (cause k : Nat) : List (Nat × List Byte) := [(0, leBytes 1 cause), (2, leBytes 2 k)]

section
variable {s : State} {k : Nat}

theorem modify_slotAt (f : Slot → Slot) :
    s.replay.slots.modify k f = s.replay.slots.modify k fun _ => f (slotAt s k) := by
  apply List.ext_getElem?
  intro j
  simp only [List.getElem?_modify, slotAt, List.getD_eq_getElem?_getD]
  split
  · next hj =>
    subst hj
    cases s.replay.slots[k]? <;> rfl
  · rfl

theorem slotAt_withSlot {x : Slot} {fill : Option Nat} {seq : Nat} (hk : k < s.replay.slots.length) :
    slotAt (withSlot s x k fill seq) k = x := by
  simp [slotAt, withSlot, List.getD_eq_getElem?_getD, hk]

theorem withSlot_withSlot (x y : Slot) (fill fill' : Option Nat) (seq seq' : Nat) :
    withSlot (withSlot s x k fill seq) y k fill' seq' = withSlot s y k fill' seq' := by
  simp only [withSlot, List.modify_modify_eq]
  rfl

theorem openInto_eq : openInto s k = withSlot s filling k (some k) s.replay.captureSeq := rfl

theorem emptyFill_eq : emptyFill s k =
    withSlot s { Slot.emptied with writeError := (slotAt s k).writeError } k none s.replay.captureSeq :=
  congrArg (fun slots => { s with replay := { s.replay with slots := slots, fill := none } })
    (modify_slotAt fun x => { Slot.emptied with writeError := x.writeError })

theorem fillSlot_eq : fillSlot s k =
    withSlot s (committed s (slotAt s k)) k none (s.replay.captureSeq + 1) :=
  congrArg (fun slots => { s with replay := { s.replay with
    slots := slots, fill := none, captureSeq := s.replay.captureSeq + 1 } }) (modify_slotAt (committed s))

theorem abandonFrame_eq (cause : AbandonCause) : abandonFrame s k cause =
    raise (withSlot s { Slot.emptied with writeError := (slotAt s k).writeError } k none s.replay.captureSeq)
      .ingestAbandoned (abandonFields cause.code k) := by
  rw [abandonFrame, emptyFill_eq]

/-- The frame that is open is abandoned at a first byte, and the slot opens anew (R105). -/
theorem openInto_abandonFrame (cause : AbandonCause) : openInto (abandonFrame s k cause) k =
    raise (withSlot s filling k (some k) s.replay.captureSeq) .ingestAbandoned
      (abandonFields cause.code k) := by
  rw [abandonFrame_eq, ← withSlot_withSlot
    { Slot.emptied with writeError := (slotAt s k).writeError } filling none (some k) s.replay.captureSeq]
  rfl

/-- The commit of a frame without error below the sequence limit fills the slot (R103). -/
theorem commitFrame_of_good (herr : (slotAt s k).writeError = false)
    (hseq : s.replay.captureSeq ≠ 4294967295) :
    commitFrame s k = withSlot s (committed s (slotAt s k)) k none (s.replay.captureSeq + 1) := by
  rw [commitFrame, herr, if_neg Bool.false_ne_true, if_neg (show ¬s.replay.captureSeq = sequenceLimit from hseq),
    fillSlot_eq]

/-- The commit abandons a frame with an error, or at the sequence limit (R104, R106). -/
theorem commitFrame_of_bad (h : (slotAt s k).writeError = true ∨ s.replay.captureSeq = 4294967295) :
    commitFrame s k =
      raise (withSlot s { Slot.emptied with writeError := (slotAt s k).writeError } k none
        s.replay.captureSeq) .ingestAbandoned
        (abandonFields (if (slotAt s k).writeError then 1 else 2) k) := by
  rw [commitFrame]
  cases herr : (slotAt s k).writeError with
  | true =>
    rw [if_pos rfl, abandonFrame_eq, herr]
    rfl
  | false =>
    have hseq : s.replay.captureSeq = sequenceLimit := h.resolve_left (by simp [herr])
    rw [if_neg Bool.false_ne_true, if_pos hseq, abandonFrame_eq, herr]
    rfl

end

section
variable {s : State} {k : Nat} (hk : k < s.replay.slots.length) (cause : AbandonCause)
include hk

theorem slotAt_reopened : slotAt (openInto (abandonFrame s k cause) k) k = filling := by
  rw [openInto_abandonFrame]
  exact slotAt_withSlot hk

/-- A frame that opens anew and commits at once below the sequence limit fills the slot. -/
theorem commitFrame_reopened_of_good (hseq : s.replay.captureSeq ≠ 4294967295) :
    commitFrame (openInto (abandonFrame s k cause) k) k =
      raise (withSlot s (committed s filling) k none (s.replay.captureSeq + 1)) .ingestAbandoned
        (abandonFields cause.code k) := by
  rw [commitFrame_of_good (s := openInto (abandonFrame s k cause) k) (by rw [slotAt_reopened hk]; rfl) hseq,
    slotAt_reopened hk, openInto_abandonFrame,
    ← withSlot_withSlot filling (committed s filling) (some k) none s.replay.captureSeq]
  rfl

/-- At the sequence limit the frame that opens anew is abandoned as well. -/
theorem commitFrame_reopened_of_limit (hseq : s.replay.captureSeq = 4294967295) :
    commitFrame (openInto (abandonFrame s k cause) k) k =
      raise (raise (withSlot s .emptied k none s.replay.captureSeq) .ingestAbandoned
        (abandonFields cause.code k)) .ingestAbandoned (abandonFields 2 k) := by
  rw [commitFrame_of_bad (s := openInto (abandonFrame s k cause) k) (.inr hseq), slotAt_reopened hk,
    openInto_abandonFrame, ← withSlot_withSlot (s := s) filling Slot.emptied (some k) none s.replay.captureSeq]
  rfl

end

section
variable {s : State} (hq : Quiet s) (g : Geometry) (w : WriteReq) (x : Slot) (k : Nat) (fill : Option Nat)
  (seq : Nat)
include hq

/-- A write stored into a slot set anew raises nothing. -/
theorem settle_stored : settle (storedIn (withSlot s x k fill seq) g w k) =
    storedIn (withSlot s x k fill seq) g w k := settle_of_quiet _ (hq.of_report rfl)

/-- An abandoned frame is told of after the write is stored. -/
theorem settle_stored_raise (d : List (Nat × List Byte)) :
    settle (storedIn (raise (withSlot s x k fill seq) .ingestAbandoned d) g w k) =
      takeOccurrence (storedIn (withSlot s x k fill seq) g w k) .ingestAbandoned (layout 16 d) :=
  settle_raise_quiet (storedIn (withSlot s x k fill seq) g w k) (hq.of_report rfl) _ _

/-- Two abandoned frames are told of one after the other. -/
theorem settle_stored_raise_raise (d e : List (Nat × List Byte)) :
    settle (storedIn (raise (raise (withSlot s x k fill seq) .ingestAbandoned d) .ingestAbandoned e) g w k) =
      takeOccurrence
        (takeOccurrence (orderDrawn (storedIn (withSlot s x k fill seq) g w k)) .ingestAbandoned (layout 16 d))
        .ingestAbandoned (layout 16 e) :=
  settle_raise_raise (s := storedIn (withSlot s x k fill seq) g w k) (hq.of_report rfl) _ _ _

end

/-- The slot that a commit finds: the open one, or the one that this write opens. -/
theorem openFor_for_commit {s : State} {first : Bool} {k : Nat} {x : Slot} (hk : k < s.replay.slots.length)
    (h : (s.replay.fill = some k ∧ first = false ∧ x = slotAt s k) ∨
      (s.replay.fill = none ∧ nextFill s = some k ∧ x = filling)) :
    ∃ u, openFor s first = some (k, u) ∧ u.path = s.path ∧ slotAt u k = x ∧
      u.replay.captureSeq = s.replay.captureSeq ∧
      (∀ y seq, withSlot u y k none seq = withSlot s y k none seq) ∧ committed u x = committed s x := by
  rcases h with ⟨hfill, hfirst, rfl⟩ | ⟨hfill, hnext, rfl⟩
  · exact ⟨s, by rw [openFor, hfill, hfirst]; rfl, rfl, rfl, rfl, fun _ _ => rfl, rfl⟩
  · refine ⟨openInto s k, by rw [openFor, hfill, hnext]; rfl, rfl, ?_, rfl, fun y seq => ?_, rfl⟩
    · rw [openInto_eq, slotAt_withSlot hk]
    · rw [openInto_eq, withSlot_withSlot]

/-- Settles O38: the search for the fill slot is the search from the newest slot on, and an ingest write comes to
its slot set anew, the write stored and the abandoned frames told of. -/
theorem ingestWritesFillSlots : Obligations.IngestWritesFillSlots := by
  refine ⟨fun s => ⟨slotHeld_iff, fun k b hb => nextFill_eq_some_iff ?_, fun k hnone => nextFill_eq_some_iff ?_,
    nextFill_eq_none_iff⟩, fun s w hq hl hc hin => ?_⟩
  · rw [searchStart, newestSlot_of_newest hb]
  · rw [searchStart, newestSlot_of_none_filled hnone]
  intro g stored withSlot' filling' first final seq notice
  have hfirst : touchesFirst g w = true ↔ first := touchesFirst_iff hin
  have hfinal : touchesFinal g w = true ↔ final := touchesFinal_iff hin
  refine ⟨fun k hfill hnext hnf => ?_, fun k hfill hno hnf => ?_, fun k x hk hf hcase => ?_,
    fun k hfill hf hnf => ?_, fun k hfill hk hf hfin => ?_⟩
  · have hopen : openFor s (touchesFirst g w) = some (k, openInto s k) := by
      rw [openFor, hfill, hnext]
      rfl
    rw [exec_ingestWrite hl hc hin hopen rfl, if_neg (hfinal.not.2 hnf), openInto_eq, settle_stored hq]
    rfl
  · have hopen : openFor s (touchesFirst g w) = some (k, s) := by
      rw [openFor, hfill]
      exact if_neg (hfirst.not.2 hno)
    rw [exec_ingestWrite hl hc hin hopen rfl, if_neg (hfinal.not.2 hnf)]
    exact congrArg Host.Outcome.next (settle_of_quiet (storedIn s g w k) (hq.of_report rfl))
  · obtain ⟨u, hopen, hpath, hslot, hseq, hset, hcommitted⟩ := openFor_for_commit (first := touchesFirst g w) hk
      (hcase.imp_left fun ⟨hfill, hno, hx⟩ => ⟨hfill, by simpa using hfirst.not.2 hno, hx⟩)
    rw [exec_ingestWrite hl hc hin hopen hpath, if_pos (hfinal.2 hf)]
    refine ⟨fun herr hlimit => ?_, fun hbad => ?_⟩
    · rw [commitFrame_of_good (by rw [hslot, herr]) (by rw [hseq]; exact hlimit), hslot, hseq,
        hset, hcommitted, settle_stored hq]
      rfl
    · rw [commitFrame_of_bad (by rw [hslot, hseq]; exact hbad), hslot, hseq, hset, settle_stored_raise hq]
      rfl
  · have hopen : openFor s (touchesFirst g w) = some (k, openInto (abandonFrame s k .firstBytes) k) := by
      rw [openFor, hfill]
      exact if_pos (hfirst.2 hf)
    rw [exec_ingestWrite hl hc hin hopen rfl, if_neg (hfinal.not.2 hnf), openInto_abandonFrame,
      settle_stored_raise hq]
    rfl
  · have hopen : openFor s (touchesFirst g w) = some (k, openInto (abandonFrame s k .firstBytes) k) := by
      rw [openFor, hfill]
      exact if_pos (hfirst.2 hf)
    rw [exec_ingestWrite hl hc hin hopen rfl, if_pos (hfinal.2 hfin)]
    refine ⟨fun hlimit => ?_, fun hlimit => ?_⟩
    · rw [commitFrame_reopened_of_good hk _ hlimit, settle_stored_raise hq]
      rfl
    · rw [commitFrame_reopened_of_limit hk _ hlimit, settle_stored_raise_raise hq]
      rfl

end Sys2Proof.ReplayProofs
end

section
/-! The replay unit's turn at a FRAME_START: the unit, the row of its word and the notices after the command, by
what the turn made of the state the unit found (R120, R122, R183, R186). -/

namespace Sys2Proof.ReplayProofs
open Sys2Proof.Machine Sys2Proof.FrameProofs Sys2Proof.SponsorProofs Sys2Proof.ScoreProofs

/-! ### The last shown sequence (R122) -/

/-- The playback shows a slot where its position is present (R118). -/
abbrev OnSlot (r : ReplayUnit) : Prop := r.playback = .onAir ∨ r.playback = .frozen ∨ r.playback = .leaving

/-- The unit with its last shown sequence brought up to its position, where that is present in `s`. -/
def shownIn (s : State) (x : ReplayUnit) : ReplayUnit :=
  if present s x.position then { x with lastShown := x.position } else x

theorem offSlot_of_not {r : ReplayUnit} (h : ¬OnSlot r) : r.playback = .live ∨ r.playback = .entering := by
  cases hr : r.playback <;> simp [hr] at h ⊢

theorem isSome_slotOf (s : State) (q : Nat) : (slotOf s q).isSome = present s q := List.findIdx?_isSome

theorem isSlot_programSource {w : State} (h : OnSlot w.replay) :
    (programSource w).isSlot = present w w.replay.position := by
  rw [← isSome_slotOf, programSource]
  rcases h with h | h | h <;> rw [h] <;> cases slotOf w w.replay.position <;> rfl

theorem markShown_of_offSlot {w : State} (h : w.replay.playback = .live ∨ w.replay.playback = .entering) :
    markShown w = w := by
  have hsource : programSource w = .liveCanvas := by rcases h with h | h <;> rw [programSource, h]
  rw [markShown, hsource]
  rfl

theorem replay_markShown_of_onSlot {s w : State} (h : OnSlot w.replay)
    (hslots : w.replay.slots = s.replay.slots) : (markShown w).replay = shownIn s w.replay := by
  have hpresent : present w w.replay.position = present s w.replay.position := by
    rw [present, present, hslots]
  rw [markShown, isSlot_programSource h, hpresent, shownIn]
  split <;> rfl

theorem report_markShown (w : State) : (markShown w).report = w.report := by
  rw [markShown]
  split <;> rfl

/-! ### The turn in the command -/

/-- The REPLAY word's row of outcomes. -/
abbrev replayRow (s : State) : OutcomeRow := outcomeRow s .replayWord

theorem replayRow_of_report {s t : State} (h : t.report = s.report) : replayRow t = replayRow s := by
  rw [replayRow, replayRow, outcomeRow, outcomeRow, h]

theorem details_of_report {s t : State} (h : t.report = s.report) (k : NoticeKind) :
    details k t = details k s := by rw [details, details, h]

theorem replayRow_frameOpened (s : State) : replayRow (frameOpened s) = replayRow s :=
  outcomeRow_of_outcomesBut (w := .showWord) (by decide)
    (congrArg (fun t => t.report.outcomes) (sansMode_modeFrame (openFrame s)) :)

theorem details_frameOpened {s : State} (hq : Quiet s) {k : NoticeKind} (hk : k ∈ replayKinds) :
    details k (frameOpened s) = [] := by
  have hmode : k ∉ [NoticeKind.modeChanged] := by
    simp only [replayKinds, List.mem_cons, List.not_mem_nil, or_false] at hk
    rcases hk with rfl | rfl | rfl <;> decide
  rw [details, detailsOf_congr hmode (raised_frameOpened s), hq.1]
  rfl

theorem replayRow_settle_frameStart (s : State) :
    replayRow (settle (frameStart s)) = replayRow (replayFrame (frameOpened s)) := by
  have hticker : (frameUnits s).report.outcomes = (frameRotated s).report.outcomes :=
    frameUnits_keeps s (fun t => t.report.outcomes) fun _ => rfl
  have hrot : (frameRotated s).report.outcomes = (frameSourced s).report.outcomes :=
    frameRotated_keeps s (fun t => t.report.outcomes) (fun _ => rfl) fun _ => rfl
  have hplan : outcomeRow (frameStart s) .replayWord = outcomeRow (frameUnits s) .replayWord := rfl
  rw [replayRow, outcomeRow_settle, hplan, outcomeRow, hticker, hrot, frameSourced,
    report_scoreFrame]
  rfl

/-- What a FRAME_START raises of the replay unit's kinds, that unit raised. -/
theorem details_frameStart (s : State) {k : NoticeKind} (hk : k ∈ replayKinds) :
    details k (frameStart s) = details k (replayFrame (frameOpened s)) := by
  have hrot : k ∉ rotKinds ∧ k ∉ [NoticeKind.exposureTarget] := by
    simp only [replayKinds, List.mem_cons, List.not_mem_nil, or_false] at hk
    rcases hk with rfl | rfl | rfl <;> decide
  have hticker : (frameStart s).report.raised = (frameRotated s).report.raised :=
    frameUnits_keeps s (fun t => t.report.raised) fun _ => rfl
  have hrotated : reportsBut rotKinds (frameRotated s).report.raised =
      reportsBut rotKinds (rotOpen (frameSourced s) (handover s)).report.raised :=
    (congrArg (fun t => t.report.raised) (sansRot_rotFrame _ _ _) :)
  have haccrued : reportsBut [.exposureTarget] (rotOpen (frameSourced s) (handover s)).report.raised =
      reportsBut [.exposureTarget] (frameSourced s).report.raised :=
    (congrArg (fun t => t.report.raised) (sansAccrual_rotOpen _ _) :)
  rw [details, hticker, detailsOf_congr hrot.1 hrotated, detailsOf_congr hrot.2 haccrued, frameSourced,
    report_scoreFrame]
  rfl

/-- `w` is what the replay unit's turn at the next FRAME_START comes to, but for the last shown sequence. -/
def Turn (s w : State) : Prop := replayFrame (frameOpened s) = markShown w

theorem turn_of_live {s w : State} (hlive : modeAhead s = .live) (h : replayLive (frameOpened s) = w) :
    Turn s w := by
  rw [Turn, replayFrame, mode_frameOpened, hlive, h]

theorem turn_of_pass {s w : State} (hpass : modeAhead s = .pass) (h : replayPass (frameOpened s) = w) :
    Turn s w := by
  rw [Turn, replayFrame, mode_frameOpened, hpass, h]

section
variable {s w : State} (h : Turn s w)
include h

theorem Turn.replay_eq : (settle (frameStart s)).replay = (markShown w).replay := by
  rw [(score_settle_frameStart s).2, frameReplayed, h]

theorem Turn.replay_of_offSlot (hoff : w.replay.playback = .live ∨ w.replay.playback = .entering) :
    (settle (frameStart s)).replay = w.replay := by
  rw [h.replay_eq, markShown_of_offSlot hoff]

theorem Turn.replay_of_onSlot (hon : OnSlot w.replay) (hslots : w.replay.slots = s.replay.slots) :
    (settle (frameStart s)).replay = shownIn s w.replay := by
  rw [h.replay_eq, replay_markShown_of_onSlot hon hslots]

theorem Turn.row_eq : replayRow (settle (frameStart s)) = replayRow w := by
  rw [replayRow_settle_frameStart, h, replayRow_of_report (report_markShown w)]

theorem Turn.details_eq {k : NoticeKind} (hk : k ∈ replayKinds) :
    details k (frameStart s) = details k w := by
  rw [details_frameStart s hk, h, details_of_report (report_markShown w)]

/-- What the turn alone raised of a kind is noticed (R186). -/
theorem Turn.noticed {k : NoticeKind} (hk : k ∈ replayKinds) {d : List Byte}
    (hd : details k w = details k (frameOpened s) ++ [d]) :
    Quiet s → RingOk s → PlacesOk s → Noticed (settle (frameStart s)) k fun x => x = d := by
  intro hq hring hplaces
  have hone : detailsOf k (frameStart s).report.raised = [d] := by
    rw [← details, h.details_eq hk, hd, details_frameOpened hq hk, List.nil_append]
  refine noticed_mono (noticed_settle (k := k) (ringFits_frameStart ⟨hring, hplaces⟩)
    (onlyOccurrences_frameStart hq) (by simp [hone])) fun x hx => ?_
  rw [hone] at hx
  exact List.mem_singleton.1 hx

/-- Where the turn raised nothing of a kind, the ring has no new record of it (R186). -/
theorem Turn.not_noticed {k : NoticeKind} (hk : k ∈ replayKinds)
    (hd : details k w = details k (frameOpened s)) (hq : Quiet s) :
    ∀ x ∈ (settle (frameStart s)).report.ring, x.kind = some k → x ∈ s.report.ring := fun x hx hkind => by
  have hnone : detailsOf k (frameStart s).report.raised = [] := by
    rw [← details, h.details_eq hk, hd, details_frameOpened hq hk]
  have hring : (frameStart s).report.ring = s.report.ring := ring_frameUnits s
  exact hring ▸ mem_ring_settle hnone hx hkind

end

end Sys2Proof.ReplayProofs
end

section
/-! What the replay unit's turn makes of each case: the return to the live canvas, the start of a replay, a waiting
request carried out, a cut (R121 to R124, R128, R131 to R133, R183). -/

namespace Sys2Proof.ReplayProofs
open Sys2Proof.Machine Sys2Proof.FrameProofs Sys2Proof.SponsorProofs Sys2Proof.ScoreProofs

/-! ### The unit after each operation -/

/-- The unit after the return to the live canvas from clip `c` (R124). -/
def endedUnit (r : ReplayUnit) (c : Nat) : ReplayUnit :=
  { r with
    clips := r.clips.modify c Clip.released, playback := .live, clip := none, position := 0, counter := 0,
    bumper := none, lastShown := 0 }

/-- The unit after clip `c` goes on air (R121, R128). -/
def airedUnit (s : State) (r : ReplayUnit) (c : Nat) : ReplayUnit :=
  { r with playback := .onAir, clip := some c, position := (clipAt s c).inPoint, counter := 0, bumper := none }

/-- The unit after PLAY(c) is accepted at a FRAME_START (R128 step 1). -/
def swappedUnit (r : ReplayUnit) (c : Nat) : ReplayUnit :=
  { r with
    clips := (r.clips.map Clip.stopped).modify c fun y => { y with state := .playing },
    waiting := none }

/-- The detail of REPLAY_STARTED for clip `c`. -/
def startedDetail (s : State) (c : Nat) : List Byte :=
  layout 16 [(0, leBytes 1 c), (2, leBytes 2 ((slotOf s (clipAt s c).inPoint).getD 0)),
    (4, leBytes 4 (clipAt s c).inPoint), (8, leBytes 4 (clipAt s c).outPoint)]

/-- The detail of REPLAY_ENDED for clip `c`. -/
def endedDetail (r : ReplayUnit) (c : Nat) (cause : EndCause) : List Byte :=
  layout 16 [(0, leBytes 1 c), (1, leBytes 1 cause.code), (4, leBytes 4 r.lastShown)]

theorem report_returnLive (x : State) : (returnLive x).report = x.report := by
  rw [returnLive]
  cases x.replay.clip <;> rfl

theorem replay_returnLive {x : State} {c : Nat} (h : x.replay.clip = some c) :
    (returnLive x).replay = endedUnit x.replay c := by
  rw [returnLive, h]
  rfl

theorem replay_endReplay {x : State} {c : Nat} (h : x.replay.clip = some c) (cause : EndCause) :
    (endReplay x cause).replay = endedUnit x.replay c := replay_returnLive h

theorem details_endReplay {x : State} {c : Nat} (h : x.replay.clip = some c) (cause : EndCause) :
    details .replayEnded (endReplay x cause) =
      details .replayEnded x ++ [endedDetail x.replay c cause] := by
  rw [endReplay, details_raise, details_of_report (report_returnLive x), h]
  rfl

theorem details_startReplay (x : State) (c : Nat) :
    details .replayStarted (startReplay x c) = details .replayStarted x ++ [startedDetail x c] :=
  details_raise (putOnAir x c) _ _

/-! ### The marks of the waiting request (R183) -/

/-- The row whose marked place takes this outcome. -/
def droppedRow (o : ReqOutcome) (row : OutcomeRow) : OutcomeRow := ⟨row.latest.drop o, row.previous.drop o⟩

/-- The row with no place marked. -/
def fulfilledRow (row : OutcomeRow) : OutcomeRow :=
  ⟨{ row.latest with mark := false }, { row.previous with mark := false }⟩

theorem replayRow_fulfilWaiting (x : State) : replayRow (fulfilWaiting x) = fulfilledRow (replayRow x) :=
  outcomeRow_clearMarks x .replayWord

theorem replayRow_dropMarked (x : State) (o : ReqOutcome) :
    replayRow (dropMarked x .replayWord o) = droppedRow o (replayRow x) := by
  change (x.report.outcomes.modify ReqWord.replayWord.code _).getD ReqWord.replayWord.code emptyRow = _
  rw [replayRow, outcomeRow, List.getD_eq_getElem?_getD, List.getD_eq_getElem?_getD, getElem?_modify_ite,
    if_pos rfl]
  cases x.report.outcomes[ReqWord.replayWord.code]? <;> rfl

/-- The row after the waiting request is dropped by a cut or by PASS (R132, R133). -/
def rowAfterDrop : Option Waiting → OutcomeRow → OutcomeRow
  | some (.play _), row => droppedRow .superseded row
  | some .takeLive, row => fulfilledRow row
  | none, row => row

section
variable (x : State)

theorem replay_dropWaiting : (dropWaiting x).replay = { x.replay with waiting := none } := by
  rw [dropWaiting]
  rcases h : x.replay.waiting with _ | ⟨c | _⟩
  · exact congrArg (fun w => { x.replay with waiting := w }) h
  · dsimp only
    rw [supersedeWaiting, h]
    rfl
  · rfl

theorem replayRow_dropWaiting :
    replayRow (dropWaiting x) = rowAfterDrop x.replay.waiting (replayRow x) := by
  rw [dropWaiting]
  rcases h : x.replay.waiting with _ | ⟨c | _⟩
  · rfl
  · dsimp only
    rw [supersedeWaiting, h]
    exact replayRow_dropMarked x _
  · exact replayRow_fulfilWaiting x

theorem details_dropWaiting (k : NoticeKind) : details k (dropWaiting x) = details k x := by
  rw [dropWaiting]
  rcases h : x.replay.waiting with _ | ⟨c | _⟩
  · rfl
  · dsimp only
    rw [supersedeWaiting, h]
    rfl
  · rfl

theorem replayRow_endReplay (cause : EndCause) : replayRow (endReplay x cause) = replayRow x :=
  (replayRow_of_report (report_returnLive x) :)

theorem replayRow_endAction : replayRow (endAction x) = replayRow x := by
  rw [endAction]
  cases (playingClip x).endAction with
  | holdLast => rfl
  | returnLive =>
    dsimp only
    split
    · rfl
    · exact replayRow_endReplay x _

/-- The advance of the playback leaves the outcomes. -/
theorem replayRow_advanceReplay : replayRow (advanceReplay x) = replayRow x := by
  rw [advanceReplay]
  cases x.replay.playback with
  | live | frozen => rfl
  | entering =>
    dsimp only
    split <;> rfl
  | leaving =>
    dsimp only
    split
    · exact replayRow_endReplay x _
    · rfl
  | onAir =>
    dsimp only
    split
    · rfl
    · split
      · rfl
      · exact replayRow_endAction x

theorem replayRow_cutToClip (found : Playback) (c : Nat) : replayRow (cutToClip x found c) = replayRow x := by
  unfold cutToClip
  cases found with
  | live | entering =>
    dsimp only
    split <;> rfl
  | onAir | frozen | leaving => rfl

theorem replayRow_carryTakeLive : replayRow (carryTakeLive x) = fulfilledRow (replayRow x) := by
  rw [carryTakeLive]
  cases x.replay.playback with
  | live | leaving => exact replayRow_fulfilWaiting x
  | entering => exact (replayRow_endReplay _ _).trans (replayRow_fulfilWaiting x)
  | onAir | frozen =>
    dsimp only
    split
    · exact replayRow_fulfilWaiting x
    · exact (replayRow_endReplay _ _).trans (replayRow_fulfilWaiting x)

theorem waiting_returnLive : (returnLive x).replay.waiting = x.replay.waiting := by
  rw [returnLive]
  cases x.replay.clip <;> rfl

theorem replayRow_replayPass :
    replayRow (replayPass x) = rowAfterDrop x.replay.waiting (replayRow x) := by
  have hfill : ∀ y, replayRow (abandonFilling y) = replayRow y := fun y => by
    rw [abandonFilling]
    cases y.replay.fill <;> rfl
  rw [replayPass, hfill]
  refine Eq.trans ?_ (replayRow_dropWaiting (setReplay x fun r => { r with cutPending := false }))
  split
  · rfl
  · exact replayRow_of_report (report_returnLive _)

end

/-! ### PLAY refused (R128) -/

section
variable (x : State)

theorem replay_refusePlay : (refusePlay x).replay = { x.replay with waiting := none } := by
  rw [refusePlay]
  cases markedTag x .replayWord <;> rfl

theorem replayRow_refusePlay : replayRow (refusePlay x) = droppedRow .notArmed (replayRow x) := by
  refine Eq.trans ?_ (replayRow_dropMarked x _)
  rw [refusePlay]
  cases markedTag x .replayWord <;> rfl

/-- The detail of REQUEST_REFUSED for a PLAY with this tag whose clip is no longer ARMED. -/
def refusedDetail (tag : Byte) : List Byte :=
  layout 16 [(0, leBytes 1 ReqWord.replayWord.code), (1, [tag]), (2, leBytes 1 4),
    (3, leBytes 1 ReqOutcome.notArmed.code)]

variable {x}

theorem details_refusePlay_of_marked {tag : Byte} (h : markedTag x .replayWord = some tag) :
    details .requestRefused (refusePlay x) = details .requestRefused x ++ [refusedDetail tag] := by
  rw [refusePlay, h]
  exact details_raise _ _ _

theorem details_refusePlay_of_unmarked (h : markedTag x .replayWord = none) :
    details .requestRefused (refusePlay x) = details .requestRefused x := by
  rw [refusePlay, h]
  rfl

theorem markedTag_latest (h : (replayRow x).latest.mark = true) :
    markedTag x .replayWord = some (replayRow x).latest.tag := if_pos h

theorem markedTag_previous (h : (replayRow x).latest.mark = false) (hp : (replayRow x).previous.mark = true) :
    markedTag x .replayWord = some (replayRow x).previous.tag :=
  (if_neg (by simp [h])).trans (if_pos hp)

theorem markedTag_none (h : (replayRow x).latest.mark = false) (hp : (replayRow x).previous.mark = false) :
    markedTag x .replayWord = none := (if_neg (by simp [h])).trans (if_neg (by simp [hp]))

end

/-! ### PLAY carried out (R128) -/

section
variable {x : State} {c : Nat} (harmed : (clipAt x c).state = .armed)
include harmed

theorem clipAt_swapPlaying :
    clipAt (swapPlaying (fulfilWaiting x) c) c = { clipAt x c with state := .playing } := by
  have hc : c < x.replay.clips.length := by
    by_contra hc
    rw [clipAt, List.getD_eq_default _ _ (by omega)] at harmed
    cases harmed
  have hget : x.replay.clips[c]? = some (clipAt x c) := by
    rw [clipAt, List.getD_eq_getElem _ _ hc, List.getElem?_eq_getElem hc]
  have hstopped : (clipAt x c).stopped = clipAt x c := if_neg (by simp [harmed])
  change ((x.replay.clips.map Clip.stopped).modify c _).getD c .emptied = _
  rw [List.getD_eq_getElem?_getD, getElem?_modify_ite, if_pos rfl, List.getElem?_map, hget, Option.map_some,
    Option.map_some, hstopped]
  rfl

theorem startedDetail_swapPlaying :
    startedDetail (swapPlaying (fulfilWaiting x) c) c = startedDetail x c := by
  rw [startedDetail, clipAt_swapPlaying harmed]
  rfl

theorem airedUnit_swapPlaying (r : ReplayUnit) :
    airedUnit (swapPlaying (fulfilWaiting x) c) r c = airedUnit x r c := by
  rw [airedUnit, clipAt_swapPlaying harmed]
  rfl

theorem carryPlay_of_armed : carryPlay x c =
    cutToClip (swapPlaying (fulfilWaiting x) c) x.replay.playback c := if_pos harmed

theorem carryPlay_over_slot (h : OnSlot x.replay) :
    carryPlay x c = putOnAir (swapPlaying (fulfilWaiting x) c) c := by
  rw [carryPlay_of_armed harmed]
  unfold cutToClip
  rcases h with h | h | h <;> rw [h]

theorem carryPlay_over_canvas (h : ¬OnSlot x.replay) : carryPlay x c =
    if 0 < (clipAt x c).bumperFrames
    then enterClip (swapPlaying (fulfilWaiting x) c) c (clipAt x c).bumperFrames
    else startReplay (swapPlaying (fulfilWaiting x) c) c := by
  rw [carryPlay_of_armed harmed]
  unfold cutToClip
  rw [clipAt_swapPlaying harmed]
  rcases offSlot_of_not h with h | h <;> rw [h]

end

theorem carryPlay_of_not_armed {x : State} {c : Nat} (h : (clipAt x c).state ≠ .armed) :
    carryPlay x c = refusePlay x := if_neg h

/-! ### TAKE_LIVE and the cut (R131, R132) -/

section
variable {x : State}

theorem carryTakeLive_of_held {c : Nat} (hclip : x.replay.clip = some c)
    (h : x.replay.playback = .onAir ∨ x.replay.playback = .frozen) : carryTakeLive x =
      if 0 < (clipAt x c).bumperFrames then leaveReplay (fulfilWaiting x) (clipAt x c).bumperFrames .takeLive
      else endReplay (fulfilWaiting x) .takeLive := by
  rw [carryTakeLive, playingClip_of_clip hclip]
  rcases h with h | h <;> rw [h]

theorem carryTakeLive_of_entering (h : x.replay.playback = .entering) :
    carryTakeLive x = endReplay (fulfilWaiting x) .takeLive := by rw [carryTakeLive, h]

theorem carryTakeLive_of_live (h : x.replay.playback = .live) : carryTakeLive x = fulfilWaiting x := by
  rw [carryTakeLive, h]

/-- The state in which no cut is pending. -/
def sansCut (x : State) : State := setReplay x fun r => { r with cutPending := false }

theorem carryCut_of_live (h : x.replay.playback = .live) : carryCut x = sansCut x := by
  rw [carryCut, h]
  rfl

theorem carryCut_of_replay (h : x.replay.playback ≠ .live) :
    carryCut x = dropWaiting (endReplay (sansCut x) .cut) := by
  rw [carryCut]
  cases hp : x.replay.playback with
  | live => exact absurd hp h
  | _ => rfl

theorem replayRow_carryCut_of_replay (h : x.replay.playback ≠ .live) :
    replayRow (carryCut x) = rowAfterDrop x.replay.waiting (replayRow x) := by
  have hwait : (endReplay (sansCut x) .cut).replay.waiting = x.replay.waiting :=
    waiting_returnLive (sansCut x)
  rw [carryCut_of_replay h, replayRow_dropWaiting, hwait, replayRow_endReplay]
  rfl

end

/-! ### PASS (R107, R133) -/

section
variable {x : State}

theorem playback_dropWaiting_sansCut : (dropWaiting (sansCut x)).replay.playback = x.replay.playback := by
  rw [replay_dropWaiting]
  rfl

theorem replayPass_of_live (h : x.replay.playback = .live) :
    replayPass x = abandonFilling (dropWaiting (sansCut x)) := by
  rw [replayPass]
  split
  · rfl
  · next hp => exact absurd (playback_dropWaiting_sansCut.trans h) hp

theorem replayPass_of_replay (h : x.replay.playback ≠ .live) :
    replayPass x = abandonFilling (returnLive (dropWaiting (sansCut x))) := by
  rw [replayPass]
  split
  · next hp => exact absurd (playback_dropWaiting_sansCut.symm.trans hp) h
  · rfl

end

/-! ### Which of them a LIVE turn is (R120) -/

section
variable {x : State}

theorem replayLive_of_cut (h : x.replay.cutPending = true) : replayLive x = carryCut x := by
  rw [replayLive, if_pos h]

theorem replayLive_of_play {c : Nat} (h : x.replay.cutPending = false)
    (hw : x.replay.waiting = some (.play c)) : replayLive x = carryPlay x c := by
  rw [replayLive, h, if_neg Bool.false_ne_true, hw]

theorem replayLive_of_takeLive (h : x.replay.cutPending = false)
    (hw : x.replay.waiting = some .takeLive) : replayLive x = carryTakeLive x := by
  rw [replayLive, h, if_neg Bool.false_ne_true, hw]

theorem replayLive_of_advance (h : x.replay.cutPending = false) (hw : x.replay.waiting = none) :
    replayLive x = advanceReplay x := by
  rw [replayLive, h, if_neg Bool.false_ne_true, hw]

end

end Sys2Proof.ReplayProofs
end

section
/-! The settling of the statement about the replay's advance, its requests and its cuts at a FRAME_START (R107, R120
to R125, R128, R131 to R133, R183). -/

namespace Sys2Proof.ReplayProofs
open Sys2Proof.Machine Sys2Proof.FrameProofs Sys2Proof.SponsorProofs Sys2Proof.ScoreProofs

/-! ### The state the replay unit finds -/

section
variable {s : State} {α : Type} {f : ReplayUnit → α} {a : α}

/-- The replay unit is found as the last command left it. -/
theorem found (h : f s.replay = a) : f (frameOpened s).replay = a := by rwa [replay_frameOpened]

end

theorem airedUnit_frameOpened (s : State) (r : ReplayUnit) (c : Nat) :
    airedUnit (frameOpened s) r c = airedUnit s r c := by
  rw [airedUnit, clipAt_frameOpened, airedUnit]

theorem startedDetail_frameOpened (s : State) (c : Nat) :
    startedDetail (frameOpened s) c = startedDetail s c := by
  have hslot : slotOf (frameOpened s) = slotOf s := by
    funext q
    rw [slotOf, slotOf, replay_frameOpened]
  rw [startedDetail, startedDetail, clipAt_frameOpened, hslot]

theorem slots_frameOpened (s : State) : (frameOpened s).replay.slots = s.replay.slots :=
  congrArg ReplayUnit.slots (replay_frameOpened s)

/-! ### The advance of the playback (R120 to R123) -/

section
variable {s : State} {c : Nat} (h : AdvanceAhead s) (hclip : s.replay.clip = some c)

include h in
theorem turn_of_advance : Turn s (advanceReplay (frameOpened s)) := by
  obtain ⟨hlive, hcut, hwait⟩ := h
  exact turn_of_live hlive (replayLive_of_advance (found hcut) (found hwait))

include h in
theorem turn_of_idle (hplay : s.replay.playback = .live ∨ s.replay.playback = .frozen) :
    Turn s (frameOpened s) := by
  have hturn := turn_of_advance h
  rw [advanceReplay] at hturn
  rcases hplay with hplay | hplay <;> rwa [found hplay] at hturn

section
variable {i b : Nat} (hbumper : s.replay.bumper = some (i, b))

include h hbumper in
theorem turn_of_bumper_running (hb : i + 1 < b)
    (hplay : s.replay.playback = .entering ∨ s.replay.playback = .leaving) :
    Turn s (nextBumper (frameOpened s)) := by
  have hrunning : bumperDone (frameOpened s) = false := by
    rw [bumperDone, found hbumper]
    exact decide_eq_false (by omega)
  have hturn := turn_of_advance h
  rw [advanceReplay, hrunning] at hturn
  rcases hplay with hplay | hplay <;> rwa [found hplay] at hturn

variable (hb : b ≤ i + 1)

include h hclip hbumper hb in
theorem turn_of_entering_done (hplay : s.replay.playback = .entering) :
    Turn s (startReplay (frameOpened s) c) := by
  have hturn := turn_of_advance h
  rwa [advanceReplay_of_entering (found hplay) (bumperDone_of_last (found hbumper) hb),
    found hclip] at hturn

include h hbumper hb in
theorem turn_of_leaving_done (hplay : s.replay.playback = .leaving) :
    Turn s (endReplay (frameOpened s) s.replay.leaveCause) := by
  have hturn := turn_of_advance h
  rwa [advanceReplay_of_leaving (found hplay) (bumperDone_of_last (found hbumper) hb),
    replay_frameOpened] at hturn

end

include hclip in
theorem playingClip_frameOpened : playingClip (frameOpened s) = clipAt s c := by
  rw [playingClip_of_clip (found hclip), clipAt_frameOpened]

variable (hplay : s.replay.playback = .onAir)

include h hclip hplay in
theorem turn_of_position_held (hrate : s.replay.counter + 1 < (clipAt s c).rate) :
    Turn s (setReplay (frameOpened s) fun r => { r with counter := r.counter + 1 }) := by
  have hheld : positionDone (frameOpened s) = false := by
    rw [positionDone, playingClip_frameOpened hclip, replay_frameOpened]
    exact decide_eq_false (by omega)
  have hturn := turn_of_advance h
  rwa [advanceReplay, found hplay, hheld] at hturn

variable (hrate : (clipAt s c).rate ≤ s.replay.counter + 1)

include hclip hrate in
theorem positionDone_frameOpened : positionDone (frameOpened s) = true := by
  rw [positionDone, playingClip_frameOpened hclip, replay_frameOpened]
  exact decide_eq_true hrate

include h hclip hplay hrate

theorem turn_of_position_done (hout : s.replay.position < (clipAt s c).outPoint) :
    Turn s (setReplay (frameOpened s) fun r => { r with position := r.position + 1, counter := 0 }) := by
  have hstep : advanceReplay (frameOpened s) =
      setReplay (frameOpened s) fun r => { r with position := r.position + 1, counter := 0 } := by
    rw [advanceReplay, found hplay]
    refine (if_neg ?_).trans (if_pos ?_)
    · simp [positionDone_frameOpened hclip hrate]
    · rwa [playingClip_frameOpened hclip, replay_frameOpened]
  rw [← hstep]
  exact turn_of_advance h

theorem turn_of_clip_end (hout : (clipAt s c).outPoint ≤ s.replay.position) :
    Turn s (endAction (frameOpened s)) := by
  have hturn := turn_of_advance h
  rwa [advanceReplay_of_end (found hplay) (positionDone_frameOpened hclip hrate)
    (by rw [playingClip_frameOpened hclip, replay_frameOpened]; exact hout)] at hturn

variable (hout : (clipAt s c).outPoint ≤ s.replay.position)
include hout

theorem turn_of_hold (haction : (clipAt s c).endAction = .holdLast) :
    Turn s (setReplay (frameOpened s) fun r => { r with playback := .frozen, counter := 0 }) := by
  have hturn := turn_of_clip_end h hclip hplay hrate hout
  rwa [endAction, playingClip_frameOpened hclip, haction] at hturn

variable (haction : (clipAt s c).endAction = .returnLive)
include haction

theorem turn_of_leave (hb : 0 < (clipAt s c).bumperFrames) :
    Turn s (leaveReplay (frameOpened s) (clipAt s c).bumperFrames .ended) := by
  have hturn := turn_of_clip_end h hclip hplay hrate hout
  rwa [endAction, playingClip_frameOpened hclip, haction, if_pos hb] at hturn

theorem turn_of_return (hb : (clipAt s c).bumperFrames = 0) :
    Turn s (endReplay (frameOpened s) .ended) := by
  have hturn := turn_of_clip_end h hclip hplay hrate hout
  rwa [endAction, playingClip_frameOpened hclip, haction, if_neg (by omega)] at hturn

end

/-! ### The unit and the notices after a return or a start -/

section
variable {s x : State} {c : Nat} {cause : EndCause}

/-- The return to the live canvas, and REPLAY_ENDED (R124). -/
theorem Turn.ended (h : Turn s (endReplay x cause)) (hclip : x.replay.clip = some c) :
    (settle (frameStart s)).replay = endedUnit x.replay c := by
  rw [h.replay_of_offSlot (.inl (playback_endReplay x cause)), replay_endReplay hclip]

theorem Turn.closing (h : Turn s (endReplay x cause)) (hclip : x.replay.clip = some c)
    (hx : details .replayEnded x = details .replayEnded (frameOpened s)) :
    Quiet s → RingOk s → PlacesOk s →
      Noticed (settle (frameStart s)) .replayEnded fun d => d = endedDetail x.replay c cause :=
  h.noticed (by decide) (by rw [details_endReplay hclip, hx])

/-- The start of a replay, and REPLAY_STARTED (R121, R125). -/
theorem Turn.aired (h : Turn s (startReplay x c)) (hslots : x.replay.slots = s.replay.slots) :
    (settle (frameStart s)).replay = shownIn s (airedUnit x x.replay c) :=
  h.replay_of_onSlot (.inl rfl) hslots

theorem Turn.begun (h : Turn s (startReplay x c))
    (hx : details .replayStarted x = details .replayStarted (frameOpened s)) :
    Quiet s → RingOk s → PlacesOk s →
      Noticed (settle (frameStart s)) .replayStarted fun d => d = startedDetail x c :=
  h.noticed (by decide) (by rw [details_startReplay, hx])

/-- The return with the cut's request and mark gone as well. -/
def endedAll (r : ReplayUnit) (c : Nat) : ReplayUnit :=
  { endedUnit r c with waiting := none, cutPending := false }

end

/-! ### The first clause: the ends of the bumpers and of the clip -/

section
variable {s : State} {c i b : Nat} (h : AdvanceAhead s) (hclip : s.replay.clip = some c)
include h hclip

section
variable (hbumper : s.replay.bumper = some (i, b)) (hb : b ≤ i + 1)
include hbumper hb

theorem replay_of_entering_done (hplay : s.replay.playback = .entering) :
    (settle (frameStart s)).replay = shownIn s (airedUnit s s.replay c) := by
  rw [(turn_of_entering_done h hclip hbumper hb hplay).aired (slots_frameOpened s), airedUnit_frameOpened,
    replay_frameOpened]

theorem begun_of_entering_done (hplay : s.replay.playback = .entering) :
    Quiet s → RingOk s → PlacesOk s →
      Noticed (settle (frameStart s)) .replayStarted fun d => d = startedDetail s c := by
  rw [← startedDetail_frameOpened s c]
  exact (turn_of_entering_done h hclip hbumper hb hplay).begun rfl

theorem replay_of_leaving_done (hplay : s.replay.playback = .leaving) :
    (settle (frameStart s)).replay = endedUnit s.replay c := by
  rw [(turn_of_leaving_done h hbumper hb hplay).ended (found hclip), replay_frameOpened]

theorem closing_of_leaving_done (hplay : s.replay.playback = .leaving) :
    Quiet s → RingOk s → PlacesOk s → Noticed (settle (frameStart s)) .replayEnded fun d =>
      d = endedDetail s.replay c s.replay.leaveCause := by
  have hclosing := (turn_of_leaving_done h hbumper hb hplay).closing (found hclip) rfl
  rwa [replay_frameOpened] at hclosing

end

variable (hplay : s.replay.playback = .onAir) (hrate : (clipAt s c).rate ≤ s.replay.counter + 1)
  (hout : (clipAt s c).outPoint ≤ s.replay.position)
include hplay hrate hout

theorem replay_of_hold (haction : (clipAt s c).endAction = .holdLast) :
    (settle (frameStart s)).replay = shownIn s { s.replay with playback := .frozen, counter := 0 } := by
  have hturn := turn_of_hold h hclip hplay hrate hout haction
  rw [hturn.replay_of_onSlot (.inr (.inl rfl)) (slots_frameOpened s), setReplay,
    replay_frameOpened]

variable (haction : (clipAt s c).endAction = .returnLive)
include haction

theorem replay_of_leave (hb : 0 < (clipAt s c).bumperFrames) :
    (settle (frameStart s)).replay = shownIn s { s.replay with
      playback := .leaving, bumper := some (0, (clipAt s c).bumperFrames), leaveCause := .ended } := by
  have hturn := turn_of_leave h hclip hplay hrate hout haction hb
  rw [hturn.replay_of_onSlot (.inr (.inr rfl)) (slots_frameOpened s), leaveReplay,
    setReplay, replay_frameOpened]

theorem replay_of_return (hb : (clipAt s c).bumperFrames = 0) :
    (settle (frameStart s)).replay = endedUnit s.replay c := by
  rw [(turn_of_return h hclip hplay hrate hout haction hb).ended (found hclip), replay_frameOpened]

theorem closing_of_return (hb : (clipAt s c).bumperFrames = 0) :
    Quiet s → RingOk s → PlacesOk s → Noticed (settle (frameStart s)) .replayEnded fun d =>
      d = endedDetail s.replay c .ended := by
  have hclosing := (turn_of_return h hclip hplay hrate hout haction hb).closing (found hclip) rfl
  rwa [replay_frameOpened] at hclosing

end

/-! ### The advance of a playback that has not come to its end -/

section
variable {s : State} {c i b : Nat} (h : AdvanceAhead s)
include h

theorem replay_of_live (hplay : s.replay.playback = .live) :
    (settle (frameStart s)).replay = s.replay := by
  rw [(turn_of_idle h (.inl hplay)).replay_of_offSlot (.inl (found hplay)), replay_frameOpened]

theorem replay_of_frozen (hplay : s.replay.playback = .frozen) :
    (settle (frameStart s)).replay = shownIn s s.replay := by
  rw [(turn_of_idle h (.inr hplay)).replay_of_onSlot (.inr (.inl (found hplay))) (slots_frameOpened s),
    replay_frameOpened]

section
variable (hbumper : s.replay.bumper = some (i, b)) (hb : i + 1 < b)
include hbumper hb

omit h hb in
theorem replay_nextBumper :
    (nextBumper (frameOpened s)).replay = { s.replay with bumper := some (i + 1, b) } := by
  rw [nextBumper, setReplay, replay_frameOpened, hbumper]
  rfl

theorem replay_of_entering_running (hplay : s.replay.playback = .entering) :
    (settle (frameStart s)).replay = { s.replay with bumper := some (i + 1, b) } := by
  rw [(turn_of_bumper_running h hbumper hb (.inl hplay)).replay_of_offSlot (.inr (found hplay)),
    replay_nextBumper hbumper]

theorem replay_of_leaving_running (hplay : s.replay.playback = .leaving) :
    (settle (frameStart s)).replay = shownIn s { s.replay with bumper := some (i + 1, b) } := by
  rw [(turn_of_bumper_running h hbumper hb (.inr hplay)).replay_of_onSlot (.inr (.inr (found hplay)))
    (slots_frameOpened s), replay_nextBumper hbumper]

end

variable (hclip : s.replay.clip = some c) (hplay : s.replay.playback = .onAir)
include hclip hplay

theorem replay_of_position_held (hrate : s.replay.counter + 1 < (clipAt s c).rate) :
    (settle (frameStart s)).replay = shownIn s { s.replay with counter := s.replay.counter + 1 } := by
  rw [(turn_of_position_held h hclip hplay hrate).replay_of_onSlot (.inl (found hplay))
    (slots_frameOpened s), setReplay, replay_frameOpened]

theorem replay_of_position_done (hrate : (clipAt s c).rate ≤ s.replay.counter + 1)
    (hout : s.replay.position < (clipAt s c).outPoint) : (settle (frameStart s)).replay =
      shownIn s { s.replay with position := s.replay.position + 1, counter := 0 } := by
  rw [(turn_of_position_done h hclip hplay hrate hout).replay_of_onSlot (.inl (found hplay))
    (slots_frameOpened s), setReplay, replay_frameOpened]

end

end Sys2Proof.ReplayProofs
end

section
/-! The waiting request, the cut and PASS at a FRAME_START, and the statement (R107, R124, R128, R131 to R133,
R183). -/

namespace Sys2Proof.ReplayProofs
open Sys2Proof.Machine Sys2Proof.FrameProofs Sys2Proof.SponsorProofs Sys2Proof.ScoreProofs

/-! ### A waiting PLAY (R128) -/

section
variable {s : State} {c : Nat} (hlive : modeAhead s = .live) (hcut : s.replay.cutPending = false)
  (hwait : s.replay.waiting = some (.play c))
include hlive hcut hwait

theorem turn_of_play : Turn s (carryPlay (frameOpened s) c) :=
  turn_of_live hlive (replayLive_of_play (found hcut) (found hwait))

section
variable (harmed : (clipAt s c).state = .armed)

omit hlive hcut hwait in
include harmed in
theorem armed_frameOpened : (clipAt (frameOpened s) c).state = .armed := by rw [clipAt_frameOpened, harmed]

/-- The state that PLAY(c) goes on from: the request over, the clips swapped. -/
abbrev swapped (s : State) (c : Nat) : State := swapPlaying (fulfilWaiting (frameOpened s)) c

omit hlive hcut hwait in
theorem replay_swapped : (swapped s c).replay = swappedUnit s.replay c :=
  congrArg (fun r => swappedUnit r c) (replay_frameOpened s)

include harmed

theorem turn_of_play_over_slot (hon : OnSlot s.replay) : Turn s (putOnAir (swapped s c) c) := by
  have hturn := turn_of_play hlive hcut hwait
  rwa [carryPlay_over_slot (armed_frameOpened harmed) (by rwa [replay_frameOpened])] at hturn

theorem turn_of_play_entering (hoff : ¬OnSlot s.replay) (hb : 0 < (clipAt s c).bumperFrames) :
    Turn s (enterClip (swapped s c) c (clipAt s c).bumperFrames) := by
  have hturn := turn_of_play hlive hcut hwait
  rwa [carryPlay_over_canvas (armed_frameOpened harmed) (by rwa [replay_frameOpened]), clipAt_frameOpened,
    if_pos hb] at hturn

theorem turn_of_play_on_air (hoff : ¬OnSlot s.replay) (hb : (clipAt s c).bumperFrames = 0) :
    Turn s (startReplay (swapped s c) c) := by
  have hturn := turn_of_play hlive hcut hwait
  rwa [carryPlay_over_canvas (armed_frameOpened harmed) (by rwa [replay_frameOpened]), clipAt_frameOpened,
    if_neg (by omega)] at hturn

omit hlive hcut hwait in
theorem airedUnit_swapped : airedUnit (swapped s c) (swapped s c).replay c =
    airedUnit s (swappedUnit s.replay c) c := by
  rw [airedUnit_swapPlaying (armed_frameOpened harmed), airedUnit_frameOpened, replay_swapped]

omit hlive hcut hwait harmed in
theorem slots_swapped : (swapped s c).replay.slots = s.replay.slots := slots_frameOpened s

theorem replay_of_play_entering (hoff : ¬OnSlot s.replay) (hb : 0 < (clipAt s c).bumperFrames) :
    (settle (frameStart s)).replay = { swappedUnit s.replay c with
      playback := .entering, clip := some c, position := 0, counter := 0,
      bumper := some (0, (clipAt s c).bumperFrames) } := by
  rw [(turn_of_play_entering hlive hcut hwait harmed hoff hb).replay_of_offSlot (.inr rfl), enterClip,
    setReplay, replay_swapped]

theorem replay_of_play_on_air (hoff : ¬OnSlot s.replay) (hb : (clipAt s c).bumperFrames = 0) :
    (settle (frameStart s)).replay = shownIn s (airedUnit s (swappedUnit s.replay c) c) := by
  rw [(turn_of_play_on_air hlive hcut hwait harmed hoff hb).aired slots_swapped, airedUnit_swapped harmed]

theorem begun_of_play_on_air (hoff : ¬OnSlot s.replay) (hb : (clipAt s c).bumperFrames = 0) :
    Quiet s → RingOk s → PlacesOk s →
      Noticed (settle (frameStart s)) .replayStarted fun d => d = startedDetail s c := by
  rw [← startedDetail_frameOpened s c, ← startedDetail_swapPlaying (armed_frameOpened harmed)]
  exact (turn_of_play_on_air hlive hcut hwait harmed hoff hb).begun rfl

theorem replay_of_play_over_slot (hon : OnSlot s.replay) :
    (settle (frameStart s)).replay = shownIn s (airedUnit s (swappedUnit s.replay c) c) := by
  have hturn := turn_of_play_over_slot hlive hcut hwait harmed hon
  rw [hturn.replay_of_onSlot (.inl rfl) (slots_swapped (c := c)), ← airedUnit_swapped harmed]
  rfl

theorem row_of_play_armed : replayRow (settle (frameStart s)) = fulfilledRow (replayRow s) := by
  have hswap : replayRow (swapped s c) = replayRow (fulfilWaiting (frameOpened s)) := rfl
  rw [(turn_of_play hlive hcut hwait).row_eq, carryPlay_of_armed (armed_frameOpened harmed),
    replayRow_cutToClip, hswap, replayRow_fulfilWaiting, replayRow_frameOpened]

end

variable (hgone : (clipAt s c).state ≠ .armed)
include hgone

theorem turn_of_play_refused : Turn s (refusePlay (frameOpened s)) := by
  have hturn := turn_of_play hlive hcut hwait
  rwa [carryPlay_of_not_armed (by rwa [clipAt_frameOpened])] at hturn

omit hlive hcut hwait hgone in
theorem replay_refused : (refusePlay (frameOpened s)).replay = { s.replay with waiting := none } := by
  rw [replay_refusePlay, replay_frameOpened]

theorem replay_of_play_refused_off (hoff : ¬OnSlot s.replay) :
    (settle (frameStart s)).replay = { s.replay with waiting := none } := by
  rw [(turn_of_play_refused hlive hcut hwait hgone).replay_of_offSlot
    (by rw [replay_refused]; exact offSlot_of_not hoff), replay_refused]

theorem replay_of_play_refused_on (hon : OnSlot s.replay) :
    (settle (frameStart s)).replay = shownIn s { s.replay with waiting := none } := by
  rw [(turn_of_play_refused hlive hcut hwait hgone).replay_of_onSlot
    (by rw [replay_refused]; exact hon) (by rw [replay_refused]), replay_refused]

theorem row_of_play_refused :
    replayRow (settle (frameStart s)) = droppedRow .notArmed (replayRow s) := by
  rw [(turn_of_play_refused hlive hcut hwait hgone).row_eq, replayRow_refusePlay, replayRow_frameOpened]

omit hlive hcut hwait hgone in
theorem markedTag_frameOpened : markedTag (frameOpened s) .replayWord = markedTag s .replayWord := by
  have hrow : outcomeRow (frameOpened s) .replayWord = outcomeRow s .replayWord := replayRow_frameOpened s
  rw [markedTag, markedTag, hrow]

theorem refused_of_marked {tag : Byte} (hmark : markedTag s .replayWord = some tag) :
    Quiet s → RingOk s → PlacesOk s →
      Noticed (settle (frameStart s)) .requestRefused fun d => d = refusedDetail tag :=
  (turn_of_play_refused hlive hcut hwait hgone).noticed (by decide)
    (details_refusePlay_of_marked (markedTag_frameOpened.trans hmark))

theorem not_refused_of_unmarked (hmark : markedTag s .replayWord = none) : Quiet s →
    ∀ x ∈ (settle (frameStart s)).report.ring, x.kind = some .requestRefused → x ∈ s.report.ring :=
  (turn_of_play_refused hlive hcut hwait hgone).not_noticed (by decide)
    (details_refusePlay_of_unmarked (markedTag_frameOpened.trans hmark))

end

/-! ### A waiting TAKE_LIVE (R131) -/

section
variable {s : State} {c : Nat} (hlive : modeAhead s = .live) (hcut : s.replay.cutPending = false)
  (hwait : s.replay.waiting = some .takeLive)
include hlive hcut hwait

theorem turn_of_takeLive : Turn s (carryTakeLive (frameOpened s)) :=
  turn_of_live hlive (replayLive_of_takeLive (found hcut) (found hwait))

theorem row_of_takeLive : replayRow (settle (frameStart s)) = fulfilledRow (replayRow s) := by
  rw [(turn_of_takeLive hlive hcut hwait).row_eq, replayRow_carryTakeLive, replayRow_frameOpened]

omit hlive hcut hwait in
theorem replay_fulfilled :
    (fulfilWaiting (frameOpened s)).replay = { s.replay with waiting := none } :=
  congrArg (fun r => { r with waiting := none }) (replay_frameOpened s)

theorem replay_of_takeLive_in_live (hplay : s.replay.playback = .live) :
    (settle (frameStart s)).replay = { s.replay with waiting := none } := by
  have hturn := turn_of_takeLive hlive hcut hwait
  rw [carryTakeLive_of_live (found hplay)] at hturn
  rw [hturn.replay_of_offSlot (.inl (found hplay)), replay_fulfilled]

variable (hclip : s.replay.clip = some c)
include hclip

theorem replay_of_takeLive_leaving (hheld : s.replay.playback = .onAir ∨ s.replay.playback = .frozen)
    (hb : 0 < (clipAt s c).bumperFrames) : (settle (frameStart s)).replay = shownIn s { s.replay with
      playback := .leaving, bumper := some (0, (clipAt s c).bumperFrames), leaveCause := .takeLive,
      waiting := none } := by
  have hturn := turn_of_takeLive hlive hcut hwait
  rw [carryTakeLive_of_held (found hclip) (by rwa [replay_frameOpened]), clipAt_frameOpened,
    if_pos hb] at hturn
  rw [hturn.replay_of_onSlot (.inr (.inr rfl)) (slots_frameOpened s), leaveReplay, setReplay,
    replay_fulfilled]

theorem turn_of_takeLive_ending
    (h : ((s.replay.playback = .onAir ∨ s.replay.playback = .frozen) ∧ (clipAt s c).bumperFrames = 0) ∨
      s.replay.playback = .entering) :
    Turn s (endReplay (fulfilWaiting (frameOpened s)) .takeLive) := by
  have hturn := turn_of_takeLive hlive hcut hwait
  rcases h with ⟨hheld, hb⟩ | hplay
  · rwa [carryTakeLive_of_held (found hclip) (by rwa [replay_frameOpened]), clipAt_frameOpened,
      if_neg (by omega)] at hturn
  · rwa [carryTakeLive_of_entering (found hplay)] at hturn

theorem replay_of_takeLive_ending
    (h : ((s.replay.playback = .onAir ∨ s.replay.playback = .frozen) ∧ (clipAt s c).bumperFrames = 0) ∨
      s.replay.playback = .entering) :
    (settle (frameStart s)).replay = endedAll s.replay c := by
  rw [(turn_of_takeLive_ending hlive hcut hwait hclip h).ended (found hclip), replay_fulfilled]
  exact congrArg (fun cut => { endedUnit s.replay c with waiting := none, cutPending := cut }) hcut

theorem closing_of_takeLive_ending
    (h : ((s.replay.playback = .onAir ∨ s.replay.playback = .frozen) ∧ (clipAt s c).bumperFrames = 0) ∨
      s.replay.playback = .entering) : Quiet s → RingOk s → PlacesOk s →
      Noticed (settle (frameStart s)) .replayEnded fun d => d = endedDetail s.replay c .takeLive := by
  have hclosing := (turn_of_takeLive_ending hlive hcut hwait hclip h).closing (found hclip) rfl
  rwa [replay_fulfilled] at hclosing

end

/-! ### A pending cut (R132) -/

section
variable {s : State} {c : Nat} (hlive : modeAhead s = .live) (hcut : s.replay.cutPending = true)
include hlive hcut

theorem turn_of_cut : Turn s (carryCut (frameOpened s)) :=
  turn_of_live hlive (replayLive_of_cut (found hcut))

theorem turn_of_cut_in_live (hplay : s.replay.playback = .live) : Turn s (sansCut (frameOpened s)) := by
  have hturn := turn_of_cut hlive hcut
  rwa [carryCut_of_live (found hplay)] at hturn

omit hlive hcut in
theorem replay_sansCut : (sansCut (frameOpened s)).replay = { s.replay with cutPending := false } :=
  congrArg (fun r => { r with cutPending := false }) (replay_frameOpened s)

theorem replay_of_cut_in_live (hplay : s.replay.playback = .live) :
    (settle (frameStart s)).replay = { s.replay with cutPending := false } := by
  rw [(turn_of_cut_in_live hlive hcut hplay).replay_of_offSlot (.inl (found hplay)), replay_sansCut]

theorem row_of_cut_in_live (hplay : s.replay.playback = .live) :
    replayRow (settle (frameStart s)) = replayRow s :=
  ((turn_of_cut_in_live hlive hcut hplay).row_eq).trans (replayRow_frameOpened s)

variable (hplay : s.replay.playback ≠ .live)
include hplay

theorem row_of_cut_of_replay :
    replayRow (settle (frameStart s)) = rowAfterDrop s.replay.waiting (replayRow s) := by
  rw [(turn_of_cut hlive hcut).row_eq, replayRow_carryCut_of_replay (by rwa [replay_frameOpened]),
    replay_frameOpened, replayRow_frameOpened]

variable (hclip : s.replay.clip = some c)
include hclip

theorem replay_of_cut_of_replay : (settle (frameStart s)).replay = endedAll s.replay c := by
  have hended : (carryCut (frameOpened s)).replay = endedAll s.replay c := by
    rw [carryCut_of_replay (by rwa [replay_frameOpened]), replay_dropWaiting,
      replay_endReplay (x := sansCut (frameOpened s)) (found hclip), replay_sansCut]
    rfl
  rw [(turn_of_cut hlive hcut).replay_of_offSlot (by rw [hended]; exact .inl rfl), hended]

theorem closing_of_cut_of_replay : Quiet s → RingOk s → PlacesOk s →
    Noticed (settle (frameStart s)) .replayEnded fun d => d = endedDetail s.replay c .cut :=
  (turn_of_cut hlive hcut).noticed (by decide) (by
    rw [carryCut_of_replay (by rwa [replay_frameOpened]), details_dropWaiting,
      details_endReplay (x := sansCut (frameOpened s)) (found hclip), replay_sansCut]
    rfl)

end

/-! ### PASS (R107, R133) -/

/-- The unit with no frame open, no waiting request and no cut (R107, R133). -/
def idleUnit (r : ReplayUnit) : ReplayUnit :=
  { r with
    slots := (match r.fill with
      | none => r.slots
      | some k => r.slots.modify k fun x => { Slot.emptied with writeError := x.writeError }),
    fill := none, waiting := none, cutPending := false }

theorem replay_abandonFilling (x : State) : (abandonFilling x).replay = { x.replay with
    slots := (idleUnit x.replay).slots, fill := none } := by
  rw [abandonFilling, idleUnit]
  cases h : x.replay.fill with
  | none => exact congrArg (fun fill => { x.replay with fill := fill }) h
  | some k => rfl

section
variable {s : State} {c : Nat} (hpass : modeAhead s = .pass)
include hpass

theorem turn_in_pass : Turn s (replayPass (frameOpened s)) := turn_of_pass hpass rfl

theorem row_in_pass :
    replayRow (settle (frameStart s)) = rowAfterDrop s.replay.waiting (replayRow s) := by
  rw [(turn_in_pass hpass).row_eq, replayRow_replayPass, replay_frameOpened, replayRow_frameOpened]

omit hpass in
theorem replay_dropped : (dropWaiting (sansCut (frameOpened s))).replay =
    { s.replay with waiting := none, cutPending := false } := by
  rw [replay_dropWaiting, replay_sansCut]

theorem replay_in_pass_of_live (hplay : s.replay.playback = .live) :
    (settle (frameStart s)).replay = idleUnit s.replay := by
  have hidle : (replayPass (frameOpened s)).replay = idleUnit s.replay := by
    rw [replayPass_of_live (found hplay), replay_abandonFilling, replay_dropped]
    rfl
  rw [(turn_in_pass hpass).replay_of_offSlot (by rw [hidle]; exact .inl hplay), hidle]

theorem replay_in_pass_of_replay (hplay : s.replay.playback ≠ .live) (hclip : s.replay.clip = some c) :
    (settle (frameStart s)).replay = endedUnit (idleUnit s.replay) c := by
  have hended : (replayPass (frameOpened s)).replay = endedUnit (idleUnit s.replay) c := by
    rw [replayPass_of_replay (by rwa [replay_frameOpened]), replay_abandonFilling,
      replay_returnLive (c := c) (by rw [replay_dropped]; exact hclip), replay_dropped]
    rfl
  rw [(turn_in_pass hpass).replay_of_offSlot (by rw [hended]; exact .inl rfl), hended]

end

/-! ### The statement -/

theorem row_of_advance {s : State} (h : AdvanceAhead s) :
    replayRow (settle (frameStart s)) = replayRow s := by
  rw [(turn_of_advance h).row_eq, replayRow_advanceReplay, replayRow_frameOpened]

theorem row_of_no_request {s : State} (hwait : s.replay.waiting = none) :
    replayRow (settle (frameStart s)) = replayRow s := by
  cases hmode : modeAhead s with
  | pass => rw [row_in_pass hmode, hwait, rowAfterDrop]
  | live =>
    cases hcut : s.replay.cutPending with
    | false => exact row_of_advance ⟨hmode, hcut, hwait⟩
    | true =>
      by_cases hplay : s.replay.playback = .live
      · exact row_of_cut_in_live hmode hcut hplay
      · rw [row_of_cut_of_replay hmode hcut hplay, hwait, rowAfterDrop]

/-- PASS and the cut of a replay drop the waiting request (R132, R133). -/
theorem row_of_dropping {s : State}
    (h : modeAhead s = .pass ∨
      ((modeAhead s = .live ∧ s.replay.cutPending = true) ∧ s.replay.playback ≠ .live)) :
    replayRow (settle (frameStart s)) = rowAfterDrop s.replay.waiting (replayRow s) := by
  rcases h with hpass | ⟨⟨hlive, hcut⟩, hplay⟩
  · exact row_in_pass hpass
  · exact row_of_cut_of_replay hlive hcut hplay

theorem shownIn_of_present {s : State} {x : ReplayUnit} (h : present s x.position = true) :
    shownIn s x = { x with lastShown := x.position } := if_pos h

/-- Settles O30: each clause by the replay unit's turn in its case. -/
theorem replayAdvancesAtItsEnds : Obligations.ReplayAdvancesAtItsEnds := by
  refine ⟨fun s c h hclip _ => ?ends, fun s t ht hlive => ?acts, fun s t ht hpass => ?pass,
    fun s t ht => ?outcomes⟩
  case ends =>
    intro x ended
    refine ⟨fun i b hplay hbumper hb => ?_, fun i b hplay hbumper hb => ?_, fun hplay hrate hout hshown => ?_⟩
    · obtain ⟨hexec, -⟩ := entering_bumper_ends h hbumper hb hplay
      refine ⟨hexec, _, hexec, ?_⟩
      rw [replay_of_entering_done h hclip hbumper hb hplay, shownIn, airedUnit, ← hclip]
      by_cases hp : present s (clipAt s c).inPoint = true <;> simp [hp, x]
    · obtain ⟨hexec, -⟩ := leaving_bumper_ends h hbumper hb hplay
      exact ⟨hexec, _, hexec, replay_of_leaving_done h hclip hbumper hb hplay⟩
    · obtain ⟨hexec, -⟩ := clip_end_acts h hplay hclip hrate hout
      refine ⟨hexec, _, hexec, fun haction => ?_, fun haction hb => ?_, fun haction hb => ?_⟩
      · rw [replay_of_hold h hclip hplay hrate hout haction]
        exact shownIn_of_present hshown
      · rw [replay_of_leave h hclip hplay hrate hout haction hb]
        exact shownIn_of_present hshown
      · exact replay_of_return h hclip hplay hrate hout haction hb
  case acts =>
    obtain rfl : settle (frameStart s) = t := Host.Outcome.next.inj ht
    refine ⟨fun c hcut hwait harmed => ⟨fun hoff hb => ?_, fun hoff hb => ⟨?_, ?_⟩, fun hon => ?_⟩,
      fun c hcut hwait hgone => ⟨fun hoff => ?_, fun hon => ?_⟩,
      fun c hcut hwait hclip => ⟨fun hheld hb => ?_, fun h => ⟨?_, ?_⟩⟩, fun hcut hwait hplay => ?_,
      fun c hcut hplay hclip => ⟨?_, ?_⟩, fun hcut hplay => ?_,
      fun c h hclip => ⟨fun i b hplay hbumper hb => ?_, fun i b hplay hbumper hb => ?_,
        fun hplay hrate hout haction hb => ?_⟩,
      fun h => ⟨fun hplay => ?_, fun hplay => ?_, fun i b hplay hbumper hb => ?_,
        fun i b hplay hbumper hb => ?_, fun c hplay hclip => ⟨fun hrate => ?_, fun hrate hout => ?_⟩⟩⟩
    · exact replay_of_play_entering hlive hcut hwait harmed hoff hb
    · exact replay_of_play_on_air hlive hcut hwait harmed hoff hb
    · exact begun_of_play_on_air hlive hcut hwait harmed hoff hb
    · exact replay_of_play_over_slot hlive hcut hwait harmed hon
    · exact replay_of_play_refused_off hlive hcut hwait hgone hoff
    · exact replay_of_play_refused_on hlive hcut hwait hgone hon
    · exact replay_of_takeLive_leaving hlive hcut hwait hclip hheld hb
    · exact replay_of_takeLive_ending hlive hcut hwait hclip h
    · exact closing_of_takeLive_ending hlive hcut hwait hclip h
    · exact replay_of_takeLive_in_live hlive hcut hwait hplay
    · exact replay_of_cut_of_replay hlive hcut hplay hclip
    · exact closing_of_cut_of_replay hlive hcut hplay hclip
    · exact replay_of_cut_in_live hlive hcut hplay
    · exact begun_of_entering_done h hclip hbumper hb hplay
    · exact closing_of_leaving_done h hclip hbumper hb hplay
    · exact closing_of_return h hclip hplay hrate hout haction hb
    · exact replay_of_live h hplay
    · exact replay_of_frozen h hplay
    · exact replay_of_entering_running h hbumper hb hplay
    · exact replay_of_leaving_running h hbumper hb hplay
    · exact replay_of_position_held h hclip hplay hrate
    · exact replay_of_position_done h hclip hplay hrate hout
  case pass =>
    obtain rfl : settle (frameStart s) = t := Host.Outcome.next.inj ht
    exact ⟨fun hplay => replay_in_pass_of_live hpass hplay,
      fun c hplay hclip => replay_in_pass_of_replay hpass hplay hclip⟩
  case outcomes =>
    obtain rfl : settle (frameStart s) = t := Host.Outcome.next.inj ht
    refine ⟨fun h => ⟨fun c hwait => ?_, fun hwait => ?_⟩, fun ⟨hlive, hcut⟩ hplay => ?_, row_of_no_request,
      fun ⟨hlive, hcut⟩ hwait => ?_, fun c ⟨hlive, hcut⟩ hwait => ⟨fun harmed => ?_,
        fun hgone => ⟨?_, fun hmark => ?_, fun hlatest hmark => ?_, fun hlatest hmark => ?_⟩⟩⟩
    · exact (row_of_dropping h).trans (by rw [hwait]; rfl)
    · exact (row_of_dropping h).trans (by rw [hwait]; rfl)
    · exact row_of_cut_in_live hlive hcut hplay
    · exact row_of_takeLive hlive hcut hwait
    · exact row_of_play_armed hlive hcut hwait harmed
    · exact row_of_play_refused hlive hcut hwait hgone
    · exact refused_of_marked hlive hcut hwait hgone (markedTag_latest hmark)
    · exact refused_of_marked hlive hcut hwait hgone (markedTag_previous hlatest hmark)
    · exact not_refused_of_unmarked hlive hcut hwait hgone (markedTag_none hlatest hmark)

end Sys2Proof.ReplayProofs
end

section
/-! The playback requests of the REPLAY word: PLAY and TAKE_LIVE wait for a FRAME_START, FREEZE, RESUME and STEP
act at once (R126, R127, R129 to R131, R183). -/

namespace Sys2Proof.ReplayProofs
open Sys2Proof.Machine Sys2Proof.ScoreProofs

/-! ### What a playback request comes to -/

section
variable {s : State} {id : BitVec 8} {tag code : Byte} {params : List Byte} (h : WordReady s id .replayWord)
include h

/-- A request that changes the replay unit alone, at once. -/
theorem asking_setReplay {f : ReplayUnit → ReplayUnit} {o : ReqOutcome} (ho : o.refused = false)
    (ha : answerRequest (asked s id .replayWord code params tag) .replayWord
        { bytes := wordBytes code params tag } =
      (setReplay (asked s id .replayWord code params tag) f, verdict o)) :
    asking id .replayWord code params tag s = .next (recorded
      { asked s id .replayWord code params tag with replay := f s.replay } .replayWord tag o false) := by
  have ht : setReplay (asked s id .replayWord code params tag) f =
      { asked s id .replayWord code params tag with replay := f s.replay } := by
    rw [setReplay, asked_replay]
  rw [ht] at ha
  exact asking_taken s id .replayWord code params tag _ o false _ h ha ⟨rfl, rfl⟩ ho
    ((asked_quiet s id _ _ _ _ h.1).of_report rfl)

/-- A request that is recorded and changes nothing else. -/
theorem asking_unchanged {o : ReqOutcome} (ho : o.refused = false)
    (ha : answerRequest (asked s id .replayWord code params tag) .replayWord
        { bytes := wordBytes code params tag } = (asked s id .replayWord code params tag, verdict o)) :
    asking id .replayWord code params tag s =
      .next (recorded (asked s id .replayWord code params tag) .replayWord tag o false) :=
  asking_taken s id .replayWord code params tag _ o false _ h ha ⟨rfl, rfl⟩ ho (asked_quiet s id _ _ _ _ h.1)

/-- A request that becomes the waiting request while none waits (R126). -/
theorem asking_waits {w : Waiting} (hwait : s.replay.waiting = none)
    (ha : answerRequest (asked s id .replayWord code params tag) .replayWord
        { bytes := wordBytes code params tag } = waitFor (asked s id .replayWord code params tag) w) :
    asking id .replayWord code params tag s = .next (recorded
      { asked s id .replayWord code params tag with replay := { s.replay with waiting := some w } }
      .replayWord tag .accepted true) := by
  have ht : waitFor (asked s id .replayWord code params tag) w =
      ({ asked s id .replayWord code params tag with replay := { s.replay with waiting := some w } },
        acceptedWaiting) := by
    simp only [waitFor, supersedeWaiting, setReplay, asked_replay, hwait]
  exact asking_taken s id .replayWord code params tag _ .accepted true _ h (ha.trans ht) ⟨rfl, rfl⟩ rfl
    ((asked_quiet s id _ _ _ _ h.1).of_report rfl)

/-- A request that becomes the waiting request in the place of an earlier one (R126, R183). -/
theorem asking_supersedes {w : Waiting} (hwait : s.replay.waiting ≠ none)
    (ha : answerRequest (asked s id .replayWord code params tag) .replayWord
        { bytes := wordBytes code params tag } = waitFor (asked s id .replayWord code params tag) w) :
    asking id .replayWord code params tag s = .next (recorded
      { dropMarked (asked s id .replayWord code params tag) .replayWord .superseded with
        replay := { s.replay with waiting := some w } }
      .replayWord tag .accepted true) := by
  obtain ⟨earlier, hearlier⟩ := Option.ne_none_iff_exists'.1 hwait
  have ht : waitFor (asked s id .replayWord code params tag) w =
      ({ dropMarked (asked s id .replayWord code params tag) .replayWord .superseded with
          replay := { s.replay with waiting := some w } }, acceptedWaiting) := by
    simp only [waitFor, supersedeWaiting, setReplay, dropMarked, setOutcomeRow_replay, asked_replay, hearlier]
  exact asking_taken s id .replayWord code params tag _ .accepted true _ h (ha.trans ht) ⟨rfl, rfl⟩ rfl
    (asked_quiet s id .replayWord code params tag h.1)

end

/-! ### The answers of the replay unit, which rest on the replay unit and the mode -/

/-- The playback states with no replay on air to hold or to move (R129, R130). -/
abbrev OffAir (s : State) : Prop :=
  s.replay.playback = .live ∨ s.replay.playback = .entering ∨ s.replay.playback = .leaving

/-- The playback states that a TAKE_LIVE has something to leave from (R131). -/
abbrev OnReplay (s : State) : Prop :=
  s.replay.playback = .entering ∨ s.replay.playback = .onAir ∨ s.replay.playback = .frozen

section
variable {s t : State} {c : Nat} (hreplay : t.replay = s.replay)
include hreplay

theorem playRequest_of_live (hmode : t.report.mode = .live) (hc : c ≤ 15) : playRequest t c =
    if (clipAt s c).state ≠ .armed then (t, verdict .notArmed)
    else if s.replay.waiting = some (.play c) then (t, verdict .duplicate)
    else waitFor t (.play c) := by
  rw [playRequest, if_neg (by omega), if_neg (by simp [hmode]), clipAt_of_replay hreplay, hreplay]

theorem takeLiveRequest_of_onReplay (hon : OnReplay s) (hwait : s.replay.waiting ≠ some .takeLive) :
    takeLiveRequest t = waitFor t .takeLive := by
  rw [takeLiveRequest, hreplay, if_neg hwait]
  obtain hp | hp | hp := hon <;> rw [hp]

theorem takeLiveRequest_of_live (hp : s.replay.playback = .live) (hwait : s.replay.waiting ≠ some .takeLive) :
    takeLiveRequest t =
      if s.replay.waiting.isSome then waitFor t .takeLive else (t, verdict .notOnAir) := by
  rw [takeLiveRequest, hreplay, if_neg hwait, hp]

theorem takeLiveRequest_duplicate
    (hdup : s.replay.playback = .leaving ∨ s.replay.waiting = some .takeLive) :
    takeLiveRequest t = (t, verdict .duplicate) := by
  rw [takeLiveRequest, hreplay]
  split
  · rfl
  · next hwait => rw [hdup.resolve_right hwait]

theorem freezeRequest_of_onAir (hp : s.replay.playback = .onAir) : freezeRequest t =
    (setReplay t fun r => { r with playback := .frozen, counter := 0 }, verdict .accepted) := by
  rw [freezeRequest, hreplay, hp]

theorem freezeRequest_of_frozen (hp : s.replay.playback = .frozen) :
    freezeRequest t = (t, verdict .duplicate) := by rw [freezeRequest, hreplay, hp]

theorem freezeRequest_of_offAir (hoff : OffAir s) : freezeRequest t = (t, verdict .notOnAir) := by
  rw [freezeRequest, hreplay]
  obtain hp | hp | hp := hoff <;> rw [hp]

theorem playingClip_of_replay (hclip : s.replay.clip = some c) : playingClip t = clipAt s c := by
  rw [playingClip_of_clip (by rw [hreplay, hclip]), clipAt_of_replay hreplay]

theorem replayResumeRequest_of_frozen (hp : s.replay.playback = .frozen) (hclip : s.replay.clip = some c) :
    replayResumeRequest t =
      (setReplay t fun r => { r with playback := .onAir, counter := (clipAt s c).rate - 1 },
        verdict .accepted) := by
  rw [replayResumeRequest, playingClip_of_replay hreplay hclip, hreplay, hp]

theorem replayResumeRequest_of_onAir (hp : s.replay.playback = .onAir) :
    replayResumeRequest t = (t, verdict .duplicate) := by rw [replayResumeRequest, hreplay, hp]

theorem replayResumeRequest_of_offAir (hoff : OffAir s) :
    replayResumeRequest t = (t, verdict .notOnAir) := by
  rw [replayResumeRequest, hreplay]
  obtain hp | hp | hp := hoff <;> rw [hp]

/-- STEP(+1) on a frozen replay stops at the out-point (R130). -/
theorem stepRequest_forward (hp : s.replay.playback = .frozen) (hclip : s.replay.clip = some c) :
    stepRequest t 1 =
      if (clipAt s c).outPoint ≤ s.replay.position then (t, verdict .clamped)
      else (setReplay t fun r => { r with position := r.position + 1 }, verdict .accepted) := by
  rw [stepRequest, if_neg (by decide), playingClip_of_replay hreplay hclip, hreplay, hp]
  rfl

/-- STEP(−1) on a frozen replay stops at the in-point (R130). -/
theorem stepRequest_backward (hp : s.replay.playback = .frozen) (hclip : s.replay.clip = some c) :
    stepRequest t 255 =
      if s.replay.position ≤ (clipAt s c).inPoint then (t, verdict .clamped)
      else (setReplay t fun r => { r with position := r.position - 1 }, verdict .accepted) := by
  rw [stepRequest, if_neg (by decide), playingClip_of_replay hreplay hclip, hreplay, hp]
  rfl

theorem stepRequest_of_onAir {d : Nat} (hd : d = 1 ∨ d = 255) (hp : s.replay.playback = .onAir) :
    stepRequest t d = (t, verdict .running) := by
  rw [stepRequest, if_neg (by omega), hreplay, hp]

theorem stepRequest_of_offAir {d : Nat} (hd : d = 1 ∨ d = 255) (hoff : OffAir s) :
    stepRequest t d = (t, verdict .notOnAir) := by
  rw [stepRequest, if_neg (by omega), hreplay]
  obtain hp | hp | hp := hoff <;> rw [hp]

end

/-! ### The statements -/

/-- Settles O15: the checks of PLAY in the table's order, then whether a request waits. -/
theorem playBecomesTheWaitingRequest : Obligations.PlayBecomesTheWaitingRequest := by
  intro s id tag c h t waits refused
  have hreplay : t.replay = s.replay := asked_replay ..
  have hreport : t.report = s.report := asked_report ..
  have answer (hmode : s.report.mode = .live) (hc : c.toNat ≤ 15) :=
    (answer_play t tag c).trans (playRequest_of_live hreplay (by rw [hreport, hmode]) hc)
  refine ⟨fun hc hmode harmed => ⟨fun hwait => ?_, fun hwait => ?_, fun hwait hother => ?_⟩, fun hc => ?_,
    fun hc hmode => ?_, fun hc hmode hclip => ?_⟩
  · refine asking_waits h hwait ((answer hmode hc).trans ?_)
    rw [if_neg (not_not.2 harmed), if_neg (by simp [hwait])]
  · refine asking_unchanged h rfl ((answer hmode hc).trans ?_)
    rw [if_neg (not_not.2 harmed), if_pos hwait]
  · refine asking_supersedes h hwait ((answer hmode hc).trans ?_)
    rw [if_neg (not_not.2 harmed), if_neg hother]
  · exact asking_refused s id .replayWord 4 [c] tag .badParam c.toNat 1 h
      ((answer_play t tag c).trans (if_pos hc)) rfl
  · refine asking_refused s id .replayWord 4 [c] tag .wrongMode 0 0 h ((answer_play t tag c).trans ?_) rfl
    rw [playRequest, if_neg (by omega), if_pos (by rw [hreport, hmode])]
    rfl
  · exact asking_refused s id .replayWord 4 [c] tag .notArmed 0 0 h
      ((answer hmode hc).trans (if_pos hclip)) rfl

/-- Settles O16: TAKE_LIVE by the playback state and the waiting request. -/
theorem takeLiveBecomesTheWaitingRequest : Obligations.TakeLiveBecomesTheWaitingRequest := by
  intro s id tag h t waits onReplay
  have hreplay : t.replay = s.replay := asked_replay ..
  refine ⟨fun hon hwait => ?_, fun c hon hwait => ?_, fun hdup => ?_, fun hp hwait => ?_⟩
  · exact asking_waits h hwait
      ((answer_takeLive t tag).trans (takeLiveRequest_of_onReplay hreplay hon (by simp [hwait])))
  · have hother : s.replay.waiting ≠ some .takeLive := by simp [hwait]
    refine asking_supersedes h (by simp [hwait]) ((answer_takeLive t tag).trans ?_)
    obtain hon | hp := hon
    · exact takeLiveRequest_of_onReplay hreplay hon hother
    · exact (takeLiveRequest_of_live hreplay hp hother).trans (if_pos (by rw [hwait]; rfl))
  · exact asking_unchanged h rfl
      ((answer_takeLive t tag).trans (takeLiveRequest_duplicate hreplay hdup))
  · refine asking_refused s id .replayWord 8 [] tag .notOnAir 0 0 h ((answer_takeLive t tag).trans ?_) rfl
    exact (takeLiveRequest_of_live hreplay hp (by simp [hwait])).trans (if_neg (by simp [hwait]))

/-- Settles O17: FREEZE and RESUME by the playback state. -/
theorem freezeAndResumeActAtOnce : Obligations.FreezeAndResumeActAtOnce := by
  intro s id tag h t u off
  have ht : t.replay = s.replay := asked_replay ..
  have hu : u.replay = s.replay := asked_replay ..
  refine ⟨fun hp => ?_, fun hp => ?_, fun hoff => ?_, fun c hp hclip => ?_, fun hp => ?_, fun hoff => ?_⟩
  · exact asking_setReplay h rfl ((answer_freeze t tag).trans (freezeRequest_of_onAir ht hp))
  · exact asking_unchanged h rfl ((answer_freeze t tag).trans (freezeRequest_of_frozen ht hp))
  · exact asking_refused s id .replayWord 5 [] tag .notOnAir 0 0 h
      ((answer_freeze t tag).trans (freezeRequest_of_offAir ht hoff)) rfl
  · exact asking_setReplay h rfl
      ((answer_replayResume u tag).trans (replayResumeRequest_of_frozen hu hp hclip))
  · exact asking_unchanged h rfl ((answer_replayResume u tag).trans (replayResumeRequest_of_onAir hu hp))
  · exact asking_refused s id .replayWord 6 [] tag .notOnAir 0 0 h
      ((answer_replayResume u tag).trans (replayResumeRequest_of_offAir hu hoff)) rfl

/-- The two directions that STEP takes, as the word spells them (R130; ch. 12.4). -/
theorem toNat_of_direction {d : Byte} (hd : d = 1 ∨ d = 255) : d.toNat = 1 ∨ d.toNat = 255 :=
  hd.imp (congrArg BitVec.toNat) (congrArg BitVec.toNat)

/-- Settles O18: STEP by its direction, the playback state and the end of the clip it comes to. -/
theorem stepMovesAFrozenReplay : Obligations.StepMovesAFrozenReplay := by
  intro s id tag d h t moved refused
  have hreplay : t.replay = s.replay := asked_replay ..
  refine ⟨fun c hp hclip => ⟨fun hd hlt => ?_, fun hd hle => ?_, fun hd hlt => ?_, fun hd hle => ?_⟩,
    fun hone hminus => ?_, fun hd hp => ?_, fun hd hoff => ?_⟩
  · subst hd
    exact asking_setReplay h rfl ((answer_step t tag 1).trans
      ((stepRequest_forward hreplay hp hclip).trans (if_neg (not_le.2 hlt))))
  · subst hd
    exact asking_unchanged h rfl ((answer_step t tag 1).trans
      ((stepRequest_forward hreplay hp hclip).trans (if_pos hle)))
  · subst hd
    exact asking_setReplay h rfl ((answer_step t tag 255).trans
      ((stepRequest_backward hreplay hp hclip).trans (if_neg (not_le.2 hlt))))
  · subst hd
    exact asking_unchanged h rfl ((answer_step t tag 255).trans
      ((stepRequest_backward hreplay hp hclip).trans (if_pos hle)))
  · have hbad : d.toNat ≠ 1 ∧ d.toNat ≠ 255 :=
      ⟨fun hd => hone (BitVec.eq_of_toNat_eq hd), fun hd => hminus (BitVec.eq_of_toNat_eq hd)⟩
    exact asking_refused s id .replayWord 7 [d] tag .badParam d.toNat 1 h
      ((answer_step t tag d).trans (if_pos hbad)) rfl
  · exact asking_refused s id .replayWord 7 [d] tag .running 0 0 h
      ((answer_step t tag d).trans (stepRequest_of_onAir hreplay (toNat_of_direction hd) hp)) rfl
  · exact asking_refused s id .replayWord 7 [d] tag .notOnAir 0 0 h
      ((answer_step t tag d).trans (stepRequest_of_offAir hreplay (toNat_of_direction hd) hoff)) rfl

end Sys2Proof.ReplayProofs
end

section
/-! What carries a predicate over every step: it is enough that the operations which commands are made of
carry it (ch. 1). -/

namespace Sys2Proof.IntakeProofs
open Sys2Proof.Machine Sys2Proof.FrameProofs

/-- What an arriving write is made of carries `P` (R164, R170, R172). -/
structure KeptByWrites (P : State → Prop) : Prop where
  settle : ∀ {s}, P s → P (settle s)
  forwardWrite : ∀ {s} w, P s → P (forwardWrite s w)
  blockWrite : ∀ {s} w cause sector, P s → P (blockWrite s w cause sector)
  openFor : ∀ {s first k t}, openFor s first = some (k, t) → P s → P t
  issuePieces : ∀ {s} w k, P s → P (issueAll s (ingestPieces s.path.geom w k))
  enterIngest : ∀ {s} id k other, P s → P (enterOrder s id .write (.ingest k .waiting other) 0 1 none)
  commitFrame : ∀ {s} k, P s → P (commitFrame s k)
  mergeCapture : ∀ {s} bytes, P s → P (mergeCapture s bytes)
  geometryCaptured : ∀ {s} w bytes, P s → P (geometryCaptured s w bytes)
  clockConfigCaptured : ∀ {s}, P s → P (clockConfigCaptured s)
  teamCaptured : ∀ {s} x old, P s → P (teamCaptured s x old)
  sponsorCaptured : ∀ {s} i, P s → P (sponsorCaptured s i)
  consumeCaptured : ∀ {s}, P s → P (consumeCaptured s)
  tailCaptured : ∀ {s}, P s → P (tailCaptured s)
  answerRequest : ∀ {s} w x, P s → P (answerRequest s w x).1
  recordOutcome : ∀ {s} w tag code v, P s → P (recordOutcome s w tag code v)

/-- What the commands are made of carries `P`. -/
structure KeptByCommands (P : State → Prop) : Prop extends KeptByWrites P where
  queueTaken : ∀ {s} rest, P s → P { s with pending := rest }
  reset : ∀ tbase gate stale pending, P (.resetWith tbase gate stale pending)
  frameStart : ∀ {s}, P s → P (frameStart s)
  gateEdge : ∀ {s}, P s → P (gateEdge s)
  loadShotReset : ∀ {s}, P s → P (loadShotReset s)
  timebaseEdge : ∀ {s}, P s → P (timebaseEdge s)
  houseAdvance : ∀ {s}, P s → P (houseAdvance s)
  arriveRead : ∀ {s} r, P s → P (arriveRead s r)
  compositedAnswer : ∀ {s} read f, P s → P (compositedAnswer s read f)
  overlayError : ∀ {s} read l a, P s → P (overlayError s read l a)
  programError : ∀ {s} read, P s → P (programError s read)
  ingestResponse : ∀ {s} id outside code, P s → P (ingestResponse s id outside code)
  forwardedResponse : ∀ {s} dir id data status, P s → P (forwardedResponse s dir id data status)
  fetchStart : ∀ {s}, P s → P (fetchStart s)
  completeFetch : ∀ {s r} error data, s.msg.fetch = some r → P s → P (completeFetch s r error data)
  discard : ∀ {s} x, P s → P (discard s x)
  refreshStart : ∀ {s}, P s → P (refreshStart s)
  refreshComplete : ∀ {s}, P s → P (refreshComplete s)

/-- Several operations that carry a predicate carry it together. -/
theorem foldl_keeps {α : Type} {P : State → Prop} {f : State → α → State} (hf : ∀ {t} x, P t → P (f t x))
    (l : List α) {s : State} (h : P s) : P (l.foldl f s) := by
  induction l generalizing s with
  | nil => exact h
  | cons x l ih => exact ih (hf x h)

theorem reacting_keeps (P : State → Prop) {f : State → State} (hf : ∀ {t}, P t → P (f t)) {s : State}
    (h : P s) (reached : Bool) : P (reacting reached f s) := by
  unfold reacting
  split
  · exact hf h
  · exact h

/-! ### Arriving writes -/

section
variable {P : State → Prop} {s : State} (kept : KeptByWrites P) (h : P s)
include kept h

theorem capture_keeps (w : WriteReq) : P (capture s w) := by
  have hconfig : P (configReactions (mergeCapture s (captureBytes s w)) w (captureBytes s w)) :=
    reacting_keeps P kept.clockConfigCaptured
      (reacting_keeps P (kept.geometryCaptured w _) (kept.mergeCapture _ h) _) _
  have hrecord : ∀ {t} bytes home away, P t → P (recordReactions t bytes home away) :=
    fun _ home away ht => foldl_keeps kept.sponsorCaptured _
      (reacting_keeps P (kept.teamCaptured .away away)
        (reacting_keeps P (kept.teamCaptured .home home) ht _) _)
  have hword : ∀ {t} bytes, P t → P (wordReactions t bytes) := fun _ ht =>
    reacting_keeps P kept.tailCaptured (reacting_keeps P kept.consumeCaptured ht _) _
  exact takeRequests_keeps (fun w _ ht => kept.recordOutcome w _ _ _ (kept.answerRequest w _ ht))
    (fun _ ht => kept.settle ht) _ _ (hword _ (hrecord _ _ _ hconfig))

theorem ingestWrite_keeps {w : WriteReq} {t : State} (hw : ingestWrite s w = some t) : P t := by
  obtain ⟨⟨k, u⟩, hopen, rfl⟩ := Option.map_eq_some_iff.1 hw
  have hentered := kept.enterIngest w.id k (outsidePiece u.path.geom w)
    (kept.issuePieces w k (kept.openFor hopen h))
  refine capture_keeps kept ?_ w
  split
  · exact kept.commitFrame k hentered
  · exact hentered

theorem arriveWrite_keeps {w : WriteReq} {t : State} (hw : arriveWrite s w = some t) : P t := by
  unfold arriveWrite at hw
  split at hw
  case h_3 => exact ingestWrite_keeps kept h hw
  all_goals cases hw
  · exact kept.blockWrite w _ _ h
  · exact kept.blockWrite w _ _ h
  · exact capture_keeps kept (kept.forwardWrite w h) w
  · exact kept.forwardWrite w h

end

/-! ### Commands -/

/-- Every next state of this outcome meets `P`. -/
def NextMeets (P : State → Prop) (o : Host.Outcome State Fault Refusal) : Prop := ∀ t, o = .next t → P t

section
variable {P : State → Prop} {s : State}

theorem nextMeets_next (h : P s) : NextMeets P (.next s) := by
  rintro t ⟨⟩
  exact h

section
variable (kept : KeptByWrites P) (h : P s)
include kept h

theorem nextMeets_done : NextMeets P (done s) := nextMeets_next (kept.settle h)

theorem nextMeets_whenDue {u : State} (due : Bool) (hu : P u) : NextMeets P (whenDue due u s) := by
  unfold whenDue
  split
  · exact nextMeets_done kept hu
  · exact nextMeets_next h

theorem nextMeets_settled (w : WriteReq) : NextMeets P (settled (arriveWrite s w)) := by
  cases hw : arriveWrite s w with
  | none => rintro t ⟨⟩
  | some t => exact nextMeets_done kept (arriveWrite_keeps kept h hw)

theorem nextMeets_arriving (w : WriteReq) : NextMeets P (arriving w s) := by
  unfold arriving
  split
  · exact nextMeets_settled kept h w
  · rintro t ⟨⟩

end

variable (kept : KeptByCommands P) (h : P s)
include kept h

theorem nextMeets_reading (r : ReadReq) : NextMeets P (reading r s) := by
  unfold reading
  split
  · exact nextMeets_done kept.toKeptByWrites (kept.arriveRead r h)
  · rintro t ⟨⟩

theorem nextMeets_intakeFetchComplete (error : Bool) (data : List Byte) :
    NextMeets P (execIntakeFetchComplete error data s) := by
  unfold execIntakeFetchComplete
  split
  · exact nextMeets_next (kept.discard _ h)
  · split
    · exact nextMeets_next h
    · next hr => exact nextMeets_whenDue kept.toKeptByWrites h _ (kept.completeFetch error data hr h)

theorem tickArrival_keeps : P (tickArrival s) := by
  unfold tickArrival
  split
  · exact kept.timebaseEdge h
  · exact kept.houseAdvance h

theorem nextMeets_exec (c : Instr) : NextMeets P (exec c s) := by
  have done {u : State} (hu : P u) : NextMeets P (done u) := nextMeets_done kept.toKeptByWrites hu
  have due {u : State} (d : Bool) (hu : P u) : NextMeets P (whenDue d u s) :=
    nextMeets_whenDue kept.toKeptByWrites h d hu
  cases c with
  | resetN => exact nextMeets_next (kept.reset _ _ _ _)
  | frameStart => exact done (kept.frameStart h)
  | flashEnd | stackEntryDwellEnd | enteringBumperEnd | leavingBumperEnd | clipEndAction =>
    exact due _ (kept.frameStart h)
  | gateRunEdge => exact done (kept.gateEdge h)
  | shotRstEdge => exact done (kept.loadShotReset h)
  | tbInEdge => exact done (kept.timebaseEdge h)
  | houseTimeAdvance => exact done (kept.houseAdvance h)
  | timebaseLoss | hornEnd | messageExpiry => exact due _ (kept.houseAdvance h)
  | timebaseRestore => exact due _ (kept.timebaseEdge h)
  | gameClockExpiry | shotClockExpiry | upSetPointReached | upLimit =>
    exact due _ (tickArrival_keeps kept h)
  | compositedRead r | windowRead r => exact nextMeets_reading kept h r
  | compositedReadAnswer => exact done (kept.compositedAnswer _ _ h)
  | overlayFetchError => exact done (kept.overlayError _ _ _ h)
  | programFetchError => exact done (kept.programError _ h)
  | ingestWriteResponse => exact done (kept.ingestResponse _ _ _ h)
  | forwardedResponse => exact done (kept.forwardedResponse _ _ _ _ h)
  | forwardedTransaction t =>
    cases t with
    | read r => exact nextMeets_reading kept h r
    | write w => exact nextMeets_arriving kept.toKeptByWrites h w
  | ingestWrite w | blockedWrite w | partOwnedWrite w | capturedWrite w | geometryCapture w
  | teamRecordCapture w | sponsorEntryCapture w | clockConfigCapture w | intakeTailCapture w
  | noticeConsumeCapture w => exact nextMeets_arriving kept.toKeptByWrites h w
  | intakeFetchStart => exact done (kept.fetchStart h)
  | intakeFetchComplete e d => exact nextMeets_intakeFetchComplete kept h e d
  | statusRefreshStart => exact nextMeets_next (kept.refreshStart h)
  | statusRefreshComplete => exact done (kept.refreshComplete h)
  | goLive | goPass | clearGame | clearExposure | spareRequest | runEnable | runDisable | clockSet
  | clockAdjust | periodNext | shotReset | shotSet | shotEnable | shotDisable | horn | spot | setLowest
  | endEntry | suspend | sponsorResume | arm | disarm | resetRing | play | freeze | replayResume
  | stepReplay | takeLive | purge | pause | tickerResume | unknownRequestCode =>
    exact nextMeets_settled kept.toKeptByWrites h _

/-- What every operation carries, every step carries. -/
theorem step_keeps {t : State} (hstep : step s = .next t) : P t := by
  unfold step at hstep
  split at hstep
  · cases hstep
    exact h
  · next c rest _ => exact nextMeets_exec kept (kept.queueTaken rest h) c t hstep

end
end Sys2Proof.IntakeProofs
end

section
/-! What the bounds of the crowd queue and of the band rest on, and what leaves it as it was: every operation
of the other units, every answer, every request but those of the TICKER word (R137, R141, R152). -/

namespace Sys2Proof.IntakeProofs
open Sys2Proof.Machine Sys2Proof.FrameProofs Sys2Proof.SponsorProofs

/-- What the bounds of the crowd queue and of the band rest on: the queue, the record in flight, the band. -/
def crowdView (s : State) : List Message × Option (BitVec 16) × List BandEntry :=
  (s.msg.queue, s.msg.fetch, s.ticker.band)

/-- R141, R152: the bounds of the crowd queue and of the band. -/
def CrowdHolds (s : State) : Prop := QueueOk s ∧ BandOk s

theorem onBand_eq_false_iff (s : State) (id : BitVec 32) :
    onBand s id = false ↔ id ∉ s.ticker.band.map BandEntry.id := by
  simp [onBand]

theorem inQueue_eq_false_iff (s : State) (id : BitVec 32) :
    inQueue s id = false ↔ id ∉ s.msg.queue.map Message.id := by
  simp [inQueue]

/-- A state in which nothing but departures has happened to the queue and to the band keeps the bounds. -/
theorem crowdHolds_of_fewer {s t : State} (h : CrowdHolds s) (hfetch : t.msg.fetch = s.msg.fetch)
    (hqueue : t.msg.queue.Sublist s.msg.queue)
    (hband : (t.ticker.band.map BandEntry.id).Sublist (s.ticker.band.map BandEntry.id)) :
    CrowdHolds t := by
  obtain ⟨⟨hlength, hroom, hnodup, happart⟩, hbound⟩ := h
  refine ⟨⟨hqueue.length_le.trans hlength, fun hf => hqueue.length_le.trans (hroom (hfetch ▸ hf)),
    hnodup.sublist (hqueue.map _), fun m hm => ?_⟩, ?_⟩
  · rw [onBand_eq_false_iff]
    exact fun hon => (onBand_eq_false_iff s m.id).1 (happart m (hqueue.subset hm)) (hband.subset hon)
  · have hle : t.ticker.band.length ≤ s.ticker.band.length := by simpa using hband.length_le
    exact hle.trans hbound

theorem crowdHolds_of_view {s t : State} (h : crowdView t = crowdView s) (hs : CrowdHolds s) :
    CrowdHolds t := by
  obtain ⟨hqueue, hfetch, hband⟩ : t.msg.queue = s.msg.queue ∧ t.msg.fetch = s.msg.fetch ∧
      t.ticker.band = s.ticker.band := by simpa [crowdView] using h
  exact crowdHolds_of_fewer hs hfetch (by rw [hqueue]) (by rw [hband])

section
variable (s : State)

@[simp] theorem crowdView_setClock (f : ClockUnit → ClockUnit) :
    crowdView (setClock s f) = crowdView s := rfl
@[simp] theorem crowdView_raise (k : NoticeKind) (d : List (Nat × List Byte)) :
    crowdView (raise s k d) = crowdView s := rfl
@[simp] theorem crowdView_refreshDue (c : RefreshCause) :
    crowdView (refreshDue s c) = crowdView s := rfl
@[simp] theorem crowdView_issue (d : DownTxn) : crowdView (issue s d) = crowdView s := rfl
@[simp] theorem crowdView_enterOrder (id : BitVec 8) (dir : Dir) (k : EntryKind) (n m : Nat)
    (a : Option UpResp) : crowdView (enterOrder s id dir k n m a) = crowdView s := rfl
@[simp] theorem crowdView_aside : crowdView (aside s) = crowdView s := rfl

@[simp] theorem crowdView_settle : crowdView (settle s) = crowdView s := by
  rw [← crowdView_aside, aside_settle, crowdView_aside]

@[simp] theorem crowdView_refreshStart : crowdView (refreshStart s) = crowdView s := by
  rw [← crowdView_aside, aside_refreshStart, crowdView_aside]

@[simp] theorem crowdView_issueAll (l : List DownTxn) : crowdView (issueAll s l) = crowdView s :=
  view_foldl s crowdView_issue l

@[simp] theorem crowdView_raiseAll {α : Type} (k : NoticeKind) (key : α → Nat)
    (detail : α → List (Nat × List Byte)) (l : List α) :
    crowdView (raiseAll s k key detail l) = crowdView s := by
  unfold raiseAll
  split <;> exact view_foldl _ (fun t x => crowdView_raise t k (detail x)) _

@[simp] theorem crowdView_recordOutcome (w : ReqWord) (tag : Byte) (code : Nat) (v : Verdict) :
    crowdView (recordOutcome s w tag code v) = crowdView s := by
  unfold recordOutcome
  dsimp only
  split <;> rfl

/-! ### The clock unit -/

@[simp] theorem crowdView_tryStart (c : ClockCause) : crowdView (tryStart s c) = crowdView s := by
  rw [tryStart_eq]
  rfl

@[simp] theorem crowdView_takeConfig : crowdView (takeConfig s) = crowdView s := by
  rw [takeConfig_eq]
  rfl

@[simp] theorem crowdView_stopClock (g : GameState) (c : ClockCause) :
    crowdView (stopClock s g c) = crowdView s := by
  simp only [stopClock, apply_ite crowdView, crowdView_takeConfig, crowdView_refreshDue,
    crowdView_raise, crowdView_setClock, ite_self]

@[simp] theorem crowdView_reevaluate (c : ClockCause) : crowdView (reevaluate s c) = crowdView s := by
  simp only [reevaluate, apply_ite crowdView, crowdView_stopClock, crowdView_tryStart, ite_self]

@[simp] theorem crowdView_spotRequest (o : SpotOffsets) (i p dwell c : Nat) :
    crowdView (spotRequest s o i p dwell c).1 = crowdView s := by
  unfold spotRequest
  repeat' split
  all_goals rfl

@[simp] theorem crowdView_periodEndSpot : crowdView (periodEndSpot s) = crowdView s := by
  unfold periodEndSpot
  split <;> simp

@[simp] theorem crowdView_tick : crowdView (tick s) = crowdView s := by
  have hshot : ∀ t, crowdView (shotExpire t) = crowdView t := fun t => rfl
  have hdown : ∀ t, crowdView (expireClock t) = crowdView t := fun t => by
    simp [expireClock, raisePeriodEnd, startHornGame]
  have hpoint : ∀ t, crowdView (reachSetPoint t) = crowdView t := fun t => by
    unfold reachSetPoint
    dsimp only
    split <;> rfl
  have hlimit : ∀ t, crowdView (reachLimit t) = crowdView t := fun t => by simp [reachLimit]
  unfold tick
  dsimp only
  split <;> simp only [apply_ite crowdView, hshot, hdown, hpoint, hlimit, tickValues,
    crowdView_setClock, ite_self]

@[simp] theorem crowdView_creditTicks (n : Nat) : crowdView (creditTicks n s) = crowdView s := by
  induction n generalizing s with
  | zero => rfl
  | succ n ih => simp only [creditTicks, apply_ite crowdView, ih, crowdView_tick, ite_self]

theorem crowdView_advanceClock : crowdView (advanceClock s) = crowdView s := by
  simp only [advanceClock, loseTimebase, raiseTimebase, apply_ite crowdView, crowdView_setClock,
    crowdView_raise, crowdView_creditTicks, crowdView_tick, ite_self]

theorem crowdView_timebaseEdge : crowdView (timebaseEdge s) = crowdView s := by
  unfold timebaseEdge
  split
  · simp only [apply_ite crowdView, crowdView_tick, crowdView_setClock, ite_self]
  · simp only [countReturn, raiseTimebase, apply_ite crowdView, crowdView_setClock, crowdView_raise,
      ite_self]

theorem crowdView_gateEdge : crowdView (gateEdge s) = crowdView s :=
  (crowdView_reevaluate _ _).trans (by rfl)

@[simp] theorem crowdView_stopForGame : crowdView (stopForGame s) = crowdView s := by
  simp only [stopForGame, apply_ite crowdView, crowdView_stopClock, crowdView_setClock, ite_self]

/-! ### Requests but for those of the TICKER word -/

theorem crowdView_showRequest (x : RequestWord) : crowdView (showRequest s x).1 = crowdView s := by
  have hsupersede : crowdView (supersedeMode s) = crowdView s := by
    unfold supersedeMode
    split <;> rfl
  have hpend : ∀ m tag, crowdView (pendMode s m tag).1 = crowdView s := fun _ _ => hsupersede
  have hunpend : crowdView (unpendMode s).1 = crowdView s := hsupersede
  have hclear : crowdView (clearClock s) = crowdView s :=
    (crowdView_setClock _ _).trans (crowdView_stopForGame s)
  unfold showRequest
  split
  · unfold goLiveRequest
    split
    · rfl
    · split
      · rfl
      · split
        · exact hpend _ _
        · exact hunpend
  · unfold goPassRequest
    split
    · rfl
    · split
      · exact hpend _ _
      · exact hunpend
  · exact hclear
  · rfl
  · rfl

theorem crowdView_clockRequest (x : RequestWord) : crowdView (clockRequest s x).1 = crowdView s := by
  have hadjust : ∀ t, crowdView (adjustState t) = crowdView t := fun t => by
    unfold adjustState
    split
    · rfl
    · simp only [apply_ite crowdView, crowdView_stopClock, crowdView_tryStart, crowdView_setClock,
        ite_self]
  have hsoft : ∀ on, crowdView (softRequest s on).1 = crowdView s := fun on => by
    simp only [softRequest, apply_ite Prod.fst, apply_ite crowdView, crowdView_reevaluate,
      crowdView_setClock, ite_self]
  have hswitch : ∀ on, crowdView (shotSwitchRequest s on).1 = crowdView s := fun on => by
    simp only [shotSwitchRequest, apply_ite Prod.fst, apply_ite crowdView, crowdView_setClock, ite_self]
  unfold clockRequest
  split
  · exact hsoft _
  · exact hsoft _
  · simp only [setRequest, apply_ite Prod.fst, apply_ite crowdView, crowdView_tryStart,
      crowdView_setClock, ite_self]
  · exact (hadjust _).trans (crowdView_setClock s _)
  · exact (crowdView_setClock _ _).trans (crowdView_stopForGame s)
  · rfl
  · simp only [shotSetRequest, apply_ite Prod.fst, apply_ite crowdView, crowdView_setClock, ite_self]
  · exact hswitch _
  · exact hswitch _
  · simp only [hornRequest, startHornGame, apply_ite Prod.fst, apply_ite crowdView, crowdView_setClock,
      ite_self]
  · rfl

theorem crowdView_sponsorRequest (x : RequestWord) : crowdView (sponsorRequest s x).1 = crowdView s := by
  have hsuspend : ∀ i on, crowdView (suspendRequest s i on).1 = crowdView s := fun i on => by
    unfold suspendRequest
    repeat' split
    all_goals rfl
  unfold sponsorRequest
  split
  · exact crowdView_spotRequest s _ _ _ _ _
  · unfold setLowestRequest
    repeat' split
    all_goals rfl
  · unfold endRequest
    repeat' split
    all_goals rfl
  · exact hsuspend _ _
  · exact hsuspend _ _
  · rfl

theorem crowdView_replayRequest (x : RequestWord) : crowdView (replayRequest s x).1 = crowdView s := by
  have hwait : ∀ w, crowdView (waitFor s w).1 = crowdView s := fun w => by
    unfold waitFor supersedeWaiting
    dsimp only
    split <;> rfl
  unfold replayRequest
  split
  · unfold armRequest
    split
    · rfl
    · dsimp only
      repeat' split
      all_goals rfl
  · unfold disarmRequest
    repeat' split
    all_goals rfl
  · unfold resetRingRequest
    split <;> rfl
  · simp only [playRequest, apply_ite Prod.fst, apply_ite crowdView, hwait, ite_self]
  · unfold freezeRequest
    split <;> rfl
  · unfold replayResumeRequest
    split <;> rfl
  · unfold stepRequest
    repeat' split
    all_goals rfl
  · unfold takeLiveRequest
    split
    · rfl
    · split
      · rfl
      · simp only [apply_ite Prod.fst, apply_ite crowdView, hwait, ite_self]
      all_goals exact hwait _
  · rfl

/-! ### Captures but for those of the intake tail -/

theorem crowdView_openFor {s t : State} {first : Bool} {k : Nat} (h : openFor s first = some (k, t)) :
    crowdView t = crowdView s := by
  unfold openFor at h
  split at h
  · obtain ⟨j, -, h⟩ := Option.map_eq_some_iff.1 h
    cases h
    rfl
  · split at h <;> cases h <;> rfl

theorem crowdView_commitFrame (k : Nat) : crowdView (commitFrame s k) = crowdView s := by
  unfold commitFrame
  repeat' split
  all_goals rfl

theorem crowdView_geometryCaptured (w : WriteReq) (bytes : List (Nat × Byte)) :
    crowdView (geometryCaptured s w bytes) = crowdView s := by
  unfold geometryCaptured setGeometry
  dsimp only
  repeat' split
  all_goals rfl

theorem crowdView_clockConfigCaptured : crowdView (clockConfigCaptured s) = crowdView s := by
  simp only [clockConfigCaptured, apply_ite crowdView, crowdView_setClock, crowdView_takeConfig, ite_self]

theorem crowdView_teamCaptured (t : Team) (old : Nat) :
    crowdView (teamCaptured s t old) = crowdView s := by
  have hask : ∀ u, crowdView (askFlash u t) = crowdView u := fun u => by
    unfold askFlash
    split <;> rfl
  have hcut : ∀ u, crowdView (sendCut u) = crowdView u := fun u => by
    unfold sendCut
    split <;> rfl
  simp only [teamCaptured, scoreRise, apply_ite crowdView, hcut, hask, crowdView_raise, ite_self]

theorem crowdView_sponsorCaptured (i : Nat) : crowdView (sponsorCaptured s i) = crowdView s := by
  unfold sponsorCaptured
  split <;> rfl

/-! ### Reads, answers and errors -/

theorem crowdView_of_sameButAnswers {s t : State} (h : SameButAnswers s t) :
    crowdView t = crowdView s := by
  rw [h]
  rfl

theorem crowdView_arriveRead (r : ReadReq) : crowdView (arriveRead s r) = crowdView s := by
  unfold arriveRead
  split
  · next p _ _ =>
    calc crowdView (compositedRead s r p)
        = crowdView (enterOrder (issueAll s _) r.id .read .composited 0 r.beats none) := rfl
      _ = crowdView s := by rw [crowdView_enterOrder, crowdView_issueAll]
  · split
    · simp [windowRead]
    · rfl

theorem crowdView_programError (read : ReadName) : crowdView (programError s read) = crowdView s := by
  unfold programError
  split
  · rfl
  · split
    · split
      · exact crowdView_of_sameButAnswers ((modifyRead_same s _ _).trans (failRead_same _ _))
      · rfl
    · rfl

theorem crowdView_overlayError (read : ReadName) (l addr : Nat) :
    crowdView (overlayError s read l addr) = crowdView s := by
  have herase : ∀ f, crowdView (eraseLayer s f l) = crowdView s := fun f => crowdView_issueAll _ _
  unfold overlayError
  split
  · rfl
  · split
    · rfl
    · simp only [apply_ite crowdView, crowdView_raise, herase, ite_self]

theorem crowdView_compositedAnswer (read : ReadName) (f : Fetched) :
    crowdView (compositedAnswer s read f) = crowdView s := by
  unfold compositedAnswer
  split
  · rfl
  · split
    · rfl
    · next c _ =>
      simp only [apply_ite crowdView, crowdView_of_sameButAnswers (completeRead_same s c _), ite_self]

theorem crowdView_ingestResponse (id : BitVec 8) (outside : Bool) (code : Resp) :
    crowdView (ingestResponse s id outside code) = crowdView s := by
  have hset : ∀ u e k a b, crowdView (setPieces u e k a b) = crowdView u := fun u e k a b => by
    unfold setPieces
    split
    · exact crowdView_of_sameButAnswers (answerKey_same u _ _)
    · rfl
  have hmark : ∀ k, crowdView (markWriteError s k) = crowdView s := fun _ => rfl
  unfold ingestResponse
  split
  · rfl
  · split
    · rfl
    · split
      · exact hset _ _ _ _ _
      · simp only [hset, apply_ite crowdView, hmark, ite_self]
      · rfl

theorem crowdView_forwardedResponse (dir : Dir) (id : BitVec 8) (data : List Byte)
    (status : List Resp) : crowdView (forwardedResponse s dir id data status) = crowdView s := by
  unfold forwardedResponse
  split
  · rfl
  · split
    · rfl
    · next e _ =>
      simp only [apply_ite crowdView, crowdView_of_sameButAnswers (answerKey_same s e.key _), ite_self]

theorem crowdView_refreshComplete : crowdView (refreshComplete s) = crowdView s := by
  unfold refreshComplete
  split
  · rfl
  · split <;> rfl

end
end Sys2Proof.IntakeProofs
end

section
/-! What the message unit and the ticker unit make of the queue and of the band, and that every step keeps
their bounds (O56). -/

namespace Sys2Proof.IntakeProofs
open Sys2Proof.Machine Sys2Proof.FrameProofs Sys2Proof.SponsorProofs

/-! ### The place of a message in the queue (R142) -/

theorem take_append_behindAnnounces (q : List Message) :
    q.take (q.length - (behindAnnounces q).length) ++ behindAnnounces q = q := by
  have hsuffix : behindAnnounces q <:+ q := by
    rw [← List.reverse_prefix, behindAnnounces, List.reverse_reverse]
    exact List.takeWhile_prefix _
  exact List.suffix_iff_eq_append.1 hsuffix

theorem insertMessage_perm (q : List Message) (m : Message) : (insertMessage q m).Perm (m :: q) := by
  unfold insertMessage
  split
  · have h := List.perm_middle (a := m) (l₁ := q.take (q.length - (behindAnnounces q).length))
      (l₂ := behindAnnounces q)
    rwa [take_append_behindAnnounces] at h
  · exact List.perm_append_singleton m q
  · exact List.perm_append_singleton m q

section
variable {s : State}

/-! ### The message unit -/

theorem crowdHolds_fetchStart (h : CrowdHolds s) : CrowdHolds (fetchStart s) := by
  by_cases hdue : FetchDue s s.msg.queue
  · obtain ⟨⟨hlength, -, hids⟩, hband⟩ := h
    rw [fetchStart_of_due hdue]
    exact ⟨⟨hlength, fun _ => Nat.le_of_lt_succ hdue.2.2, hids⟩, hband⟩
  · rwa [fetchStart_of_not_due hdue]

theorem crowdView_releaseTest (s : State) : crowdView (releaseTest s) = crowdView s := by
  rw [releaseTest_eq]
  rfl

theorem crowdView_overrunTest (s : State) : crowdView (overrunTest s) = crowdView s := by
  unfold overrunTest
  split <;> rfl

/-- A departure leaves the queue with room for the record that it fetches (R137). -/
theorem crowdHolds_departed (h : CrowdHolds s) : CrowdHolds (departed s) :=
  crowdHolds_fetchStart (crowdHolds_of_view (crowdView_releaseTest s) h)

theorem crowdHolds_tailCaptured (h : CrowdHolds s) : CrowdHolds (tailCaptured s) := by
  unfold tailCaptured
  dsimp only
  split
  · exact crowdHolds_of_view rfl h
  · exact crowdHolds_fetchStart (crowdHolds_of_view ((crowdView_overrunTest _).trans (by rfl)) h)

/-- A message enters where the queue has room for it and its id stands nowhere (R140, R142). -/
theorem crowdHolds_queueMessage {m : Message} (h : CrowdHolds s) (hfetch : s.msg.fetch = none)
    (hroom : s.msg.queue.length ≤ 31) (hqueue : inQueue s m.id = false) (hband : onBand s m.id = false) :
    CrowdHolds (queueMessage s m) := by
  have hassert : ∀ t, crowdView (assertTest t) = crowdView t := fun t => by
    unfold assertTest
    split <;> rfl
  obtain ⟨⟨-, -, hnodup, happart⟩, hbound⟩ := h
  have hperm := insertMessage_perm s.msg.queue m
  refine crowdHolds_of_view (hassert _) ⟨⟨?_, fun hf => ?_, ?_, fun x hx => ?_⟩, hbound⟩
  · exact hperm.length_eq.trans_le (Nat.succ_le_succ hroom)
  · rw [setMsg_msg, hfetch] at hf
    cases hf
  · refine (hperm.map Message.id).nodup_iff.2 (List.nodup_cons.2 ⟨?_, hnodup⟩)
    exact (inQueue_eq_false_iff s m.id).1 hqueue
  · rcases List.mem_cons.1 (hperm.subset hx) with rfl | hx
    · exact hband
    · exact happart x hx

theorem crowdHolds_withdraw (h : CrowdHolds s) (id : BitVec 32) : CrowdHolds (withdraw s id) := by
  unfold withdraw
  split
  · refine crowdHolds_of_view (crowdView_releaseTest _) ?_
    exact crowdHolds_of_fewer h rfl List.filter_sublist (List.Sublist.refl _)
  · split
    · unfold handWithdrawal
      split <;> exact h
    · exact h

/-- A record that is queued passed the check for a second message of its id (R140). -/
theorem judgeRecord_message {data : List Byte} {m : Message} (h : judgeRecord s data = .message m) :
    inQueue s m.id = false ∧ onBand s m.id = false := by
  have hjudge : ∀ cls, judgeMessage s cls data = .message m →
      inQueue s m.id = false ∧ onBand s m.id = false := by
    intro cls hm
    unfold judgeMessage at hm
    split at hm
    · cases hm
    · split at hm
      · cases hm
      · next hfree =>
        cases hm
        simpa [recordMessage] using hfree
  unfold judgeRecord at h
  split at h
  · cases h
  · split at h
    · cases h
    · split at h
      · cases h
      · split at h
        · cases h
        · exact hjudge _ h

/-- The record in flight has its room in the queue (R137, R138). -/
theorem crowdHolds_completeFetch {r : BitVec 16} (h : CrowdHolds s) (hr : s.msg.fetch = some r)
    (error : Bool) (data : List Byte) : CrowdHolds (completeFetch s r error data) := by
  let t := setMsg s fun m => { m with head := m.head + 1, fetch := none }
  have hroom : t.msg.queue.length ≤ 31 := h.1.2.1 (by rw [hr]; rfl)
  have ht : CrowdHolds t := by
    obtain ⟨⟨hlength, -, hids⟩, hband⟩ := h
    exact ⟨⟨hlength, nofun, hids⟩, hband⟩
  have htaken : CrowdHolds (takeRecord t r error data) := by
    unfold takeRecord
    split
    · exact ht
    · split
      · exact ht
      · next m hm =>
        obtain ⟨hqueue, hband⟩ := judgeRecord_message hm
        exact crowdHolds_queueMessage ht rfl hroom hqueue hband
      · exact crowdHolds_withdraw ht _
  exact crowdHolds_fetchStart (crowdHolds_of_view (crowdView_overrunTest _) htaken)

theorem crowdHolds_expireMessages (h : CrowdHolds s) : CrowdHolds (expireMessages s) := by
  unfold expireMessages
  dsimp only
  split
  · exact h
  · refine crowdHolds_departed (crowdHolds_of_view (crowdView_raiseAll _ _ _ _ _) ?_)
    exact crowdHolds_of_fewer h rfl List.filter_sublist (List.Sublist.refl _)

theorem crowdHolds_houseAdvance (h : CrowdHolds s) : CrowdHolds (houseAdvance s) :=
  crowdHolds_expireMessages (crowdHolds_of_view (crowdView_advanceClock s) h)

/-! ### The ticker unit -/

theorem crowdHolds_tickerRequest (h : CrowdHolds s) (x : RequestWord) :
    CrowdHolds (tickerRequest s x).1 := by
  have hact : ∀ b, crowdView (setActedOn s b) = crowdView s := fun b => by
    unfold setActedOn
    split <;> rfl
  unfold tickerRequest
  split
  · unfold purgeRequest
    split
    · exact h
    · exact crowdHolds_departed
        (crowdHolds_of_fewer h rfl (List.nil_sublist _) (List.Sublist.refl _))
  · unfold pauseRequest
    split
    · exact crowdHolds_of_view (hact _) h
    all_goals exact h
  · unfold tickerResumeRequest
    split
    · exact crowdHolds_of_view (hact _) h
    all_goals exact h
  · exact h

theorem crowdView_bandSuppress (s : State) : crowdView (bandSuppress s) = crowdView s := by
  unfold bandSuppress
  dsimp only
  repeat' split
  all_goals rfl

theorem crowdView_bandStart (s : State) : crowdView (bandStart s) = crowdView s := by
  unfold bandStart
  split <;> rfl

/-- Entries that move keep their ids, and those that pass the left edge leave (R158). -/
theorem crowdHolds_bandScroll (h : CrowdHolds s) : CrowdHolds (bandScroll s) := by
  unfold bandScroll
  dsimp only
  split
  · refine crowdHolds_of_fewer h rfl (List.Sublist.refl _) ?_
    have hids : (s.ticker.band.map (BandEntry.moved (bandSpeed s.path.shadow))).map BandEntry.id =
        s.ticker.band.map BandEntry.id := by
      rw [List.map_map]
      rfl
    exact hids ▸ List.filter_sublist.map BandEntry.id
  · exact h

theorem crowdHolds_bandWithdraw (h : CrowdHolds s) : CrowdHolds (bandWithdraw s) :=
  crowdHolds_of_fewer h rfl (List.Sublist.refl _) (List.filter_sublist.map _)

/-- The queue head enters a band that has room, and its id leaves the queue as it enters the band (R160). -/
theorem crowdHolds_bandEnter (h : CrowdHolds s) : CrowdHolds (bandEnter s) := by
  by_cases hrun : s.ticker.state = .running
  · by_cases hstays : s.msg.queue = [] ∨ ¬Room s.path.shadow s.ticker.band
    · rw [bandEnter_of_no_room hrun hstays]
      exact crowdHolds_of_view rfl h
    · obtain ⟨hne, hroom⟩ := not_or.1 hstays
      obtain ⟨x, rest, hq⟩ := List.exists_cons_of_ne_nil hne
      have hroom := not_not.1 hroom
      obtain ⟨⟨hlength, hfetch, hnodup, happart⟩, -⟩ := h
      rw [hq] at hlength hfetch hnodup happart
      obtain ⟨hx, hnodup⟩ := List.nodup_cons.1 hnodup
      rw [bandEnter_of_room hrun hq hroom]
      refine crowdHolds_departed ⟨⟨Nat.le_of_succ_le hlength, fun hf => Nat.le_of_succ_le (hfetch hf), hnodup,
        fun m hm => ?_⟩, ?_⟩
      · have hne : m.id ≠ x.id := fun he => hx (he ▸ List.mem_map_of_mem hm)
        have hold := (onBand_eq_false_iff s m.id).1 (happart m (List.mem_cons_of_mem x hm))
        rw [onBand_eq_false_iff]
        simpa [enteredAt, hne] using hold
      · exact (List.length_append ..).trans_le (Nat.succ_le_of_lt hroom.1)
  · rwa [bandEnter, if_neg hrun]

theorem crowdHolds_tickerFrame (h : CrowdHolds s) : CrowdHolds (tickerFrame s) := by
  unfold tickerFrame
  split
  · exact crowdHolds_of_fewer h rfl (List.Sublist.refl _) (List.nil_sublist _)
  · exact crowdHolds_bandEnter (crowdHolds_of_view (crowdView_bandStart _)
      (crowdHolds_bandWithdraw (crowdHolds_bandScroll
        (crowdHolds_of_view (crowdView_bandSuppress s) h))))

/-- The ticker unit alone acts on the queue and on the band at a FRAME_START (R154). -/
theorem crowdHolds_frameStart (h : CrowdHolds s) : CrowdHolds (frameStart s) := by
  have hunits : crowdView (frameStart s) = crowdView (tickerFrame (frameRotated s)) := rfl
  have hbefore : crowdView (frameRotated s) = crowdView s := by
    rw [crowdView, msg_frameRotated, ticker_frameRotated]
    rfl
  exact crowdHolds_of_view hunits (crowdHolds_tickerFrame (crowdHolds_of_view hbefore h))

/-! ### Every step -/

theorem crowdHolds_answerRequest (h : CrowdHolds s) (w : ReqWord) (x : RequestWord) :
    CrowdHolds (answerRequest s w x).1 := by
  cases w with
  | showWord => exact crowdHolds_of_view (crowdView_showRequest s x) h
  | clockWord => exact crowdHolds_of_view (crowdView_clockRequest s x) h
  | sponsorWord => exact crowdHolds_of_view (crowdView_sponsorRequest s x) h
  | replayWord => exact crowdHolds_of_view (crowdView_replayRequest s x) h
  | tickerWord => exact crowdHolds_tickerRequest h x
  | spareWord => exact h

theorem crowdHolds_reset (tbase : BitVec 8) (gate : Bool) (stale : List Stale) (pending : List Instr) :
    CrowdHolds (.resetWith tbase gate stale pending) :=
  ⟨⟨Nat.zero_le _, nofun, List.nodup_nil, nofun⟩, Nat.zero_le _⟩

end

theorem crowdHolds_keptByCommands : KeptByCommands CrowdHolds where
  settle := crowdHolds_of_view (crowdView_settle _)
  forwardWrite _ := crowdHolds_of_view rfl
  blockWrite _ _ _ := crowdHolds_of_view rfl
  openFor hopen := crowdHolds_of_view (crowdView_openFor hopen)
  issuePieces _ _ := crowdHolds_of_view (crowdView_issueAll _ _)
  enterIngest _ _ _ := crowdHolds_of_view rfl
  commitFrame k := crowdHolds_of_view (crowdView_commitFrame _ k)
  mergeCapture _ := crowdHolds_of_view rfl
  geometryCaptured w bytes := crowdHolds_of_view (crowdView_geometryCaptured _ w bytes)
  clockConfigCaptured := crowdHolds_of_view (crowdView_clockConfigCaptured _)
  teamCaptured x old := crowdHolds_of_view (crowdView_teamCaptured _ x old)
  sponsorCaptured i := crowdHolds_of_view (crowdView_sponsorCaptured _ i)
  consumeCaptured := crowdHolds_of_view rfl
  tailCaptured := crowdHolds_tailCaptured
  answerRequest w x h := crowdHolds_answerRequest h w x
  recordOutcome _ _ _ _ := crowdHolds_of_view (crowdView_recordOutcome _ _ _ _ _)
  queueTaken _ h := h
  reset := crowdHolds_reset
  frameStart := crowdHolds_frameStart
  gateEdge := crowdHolds_of_view (crowdView_gateEdge _)
  loadShotReset := crowdHolds_of_view rfl
  timebaseEdge := crowdHolds_of_view (crowdView_timebaseEdge _)
  houseAdvance := crowdHolds_houseAdvance
  arriveRead r := crowdHolds_of_view (crowdView_arriveRead _ r)
  compositedAnswer read f := crowdHolds_of_view (crowdView_compositedAnswer _ read f)
  overlayError read l a := crowdHolds_of_view (crowdView_overlayError _ read l a)
  programError read := crowdHolds_of_view (crowdView_programError _ read)
  ingestResponse id o code := crowdHolds_of_view (crowdView_ingestResponse _ id o code)
  forwardedResponse dir id d st := crowdHolds_of_view (crowdView_forwardedResponse _ dir id d st)
  fetchStart := crowdHolds_fetchStart
  completeFetch error data hr h := crowdHolds_completeFetch h hr error data
  discard _ := crowdHolds_of_view rfl
  refreshStart := crowdHolds_of_view (crowdView_refreshStart _)
  refreshComplete := crowdHolds_of_view (crowdView_refreshComplete _)

/-- Settles O56: the record in flight keeps its room, and an id enters the queue or the band only where it
stands in neither. -/
theorem stepsKeepTheQueueAndTheBand : Obligations.StepsKeepTheQueueAndTheBand :=
  fun _ _ hqueue hband hstep => step_keeps crowdHolds_keptByCommands ⟨hqueue, hband⟩ hstep

end Sys2Proof.IntakeProofs
end

section
/-! The requests of the TICKER word (R149, R161). -/

namespace Sys2Proof.IntakeProofs
open Sys2Proof.Machine Sys2Proof.FrameProofs

/-! ### How a request of the TICKER word ends -/

section
variable {s : State} {id : BitVec 8} {tag code : Byte} (h : WordReady s id .tickerWord)
include h

/-- A request that acts at once and leaves the report unit as it was. -/
theorem asking_acts {t : State}
    (ha : answerRequest (asked s id .tickerWord code [] tag) .tickerWord
      { bytes := wordBytes code [] tag } = (t, verdict .accepted))
    (hreport : t.report = (asked s id .tickerWord code [] tag).report) :
    asking id .tickerWord code [] tag s = .next (recorded t .tickerWord tag .accepted false) :=
  asking_taken s id .tickerWord code [] tag t .accepted false _ h ha ⟨rfl, rfl⟩ rfl
    ((asked_quiet s id _ _ _ _ h.1).of_report hreport)

/-- A request that finds the part as it asks for. -/
theorem asking_duplicate
    (ha : answerRequest (asked s id .tickerWord code [] tag) .tickerWord
      { bytes := wordBytes code [] tag } = (asked s id .tickerWord code [] tag, verdict .duplicate)) :
    asking id .tickerWord code [] tag s =
      .next (recorded (asked s id .tickerWord code [] tag) .tickerWord tag .duplicate false) :=
  asking_taken s id .tickerWord code [] tag _ .duplicate false _ h ha ⟨rfl, rfl⟩ rfl
    (asked_quiet s id _ _ _ _ h.1)

end

/-! ### PURGE (R149) -/

/-- The state with the crowd queue emptied and MSGHOLD low. -/
def queuePurged (t : State) : State := { t with msg := { t.msg with queue := [], hold := false } }

theorem purgeRequest_of_queue {t : State} (h : t.msg.queue ≠ []) :
    purgeRequest t = (fetchStart (queuePurged t), verdict .accepted) := by
  have hreleased : releaseTest (setMsg t fun m => { m with queue := [] }) = queuePurged t :=
    if_pos (Nat.zero_le _)
  rw [purgeRequest, if_neg (by simpa using h), departed, hreleased]

theorem purgeRequest_of_empty {t : State} (h : t.msg.queue = []) :
    purgeRequest t = (t, verdict .duplicate) := by
  rw [purgeRequest, if_pos (by simp [h])]

theorem not_fetchDue_of_none {t : State} {q : List Message}
    (h : t.msg.fetch.isSome = true ∨ outstanding t = 0) : ¬FetchDue t q := by
  rintro ⟨hfetch, hout, -⟩
  rcases h with h | h
  · rw [hfetch] at h
    cases h
  · exact hout.ne' h

/-! ### PAUSE and RESUME (R161) -/

/-- PAUSE and RESUME act on `b`: the band's state, or the prior state of a SUPPRESSED band. -/
abbrev ActsOn (s : State) (b : BandState) : Prop :=
  s.ticker.state = b ∨ (s.ticker.state = .suppressed ∧ s.ticker.prior = some b)

section
variable {s t : State} (hticker : t.ticker = s.ticker)
include hticker

theorem bandActedOn_of_actsOn {b : BandState} (h : ActsOn s b) (hb : b ≠ .suppressed) :
    bandActedOn t = b := by
  unfold bandActedOn
  rw [hticker]
  obtain h | ⟨h, hprior⟩ := h
  · rw [h]
    cases b with
    | suppressed => exact absurd rfl hb
    | hidden | running | paused => rfl
  · rw [h, hprior]
    rfl

theorem setActedOn_of_band (h : s.ticker.state ≠ .suppressed) (b : BandState) :
    setActedOn t b = { t with ticker := { s.ticker with state := b } } := by
  unfold setActedOn setTicker
  rw [hticker]
  split
  · next hs => exact absurd hs h
  · rfl

theorem setActedOn_of_suppressed (h : s.ticker.state = .suppressed) (b : BandState) :
    setActedOn t b = { t with ticker := { s.ticker with prior := some b } } := by
  unfold setActedOn setTicker
  rw [hticker, h]

theorem pauseRequest_of_running (h : ActsOn s .running) :
    pauseRequest t = (setActedOn t .paused, verdict .accepted) := by
  rw [pauseRequest, bandActedOn_of_actsOn hticker h (by decide)]

theorem pauseRequest_of_paused (h : ActsOn s .paused) : pauseRequest t = (t, verdict .duplicate) := by
  rw [pauseRequest, bandActedOn_of_actsOn hticker h (by decide)]

theorem pauseRequest_of_hidden (h : ActsOn s .hidden) : pauseRequest t = (t, verdict .notOnAir) := by
  rw [pauseRequest, bandActedOn_of_actsOn hticker h (by decide)]

theorem tickerResumeRequest_of_paused (h : ActsOn s .paused) :
    tickerResumeRequest t = (setActedOn t .running, verdict .accepted) := by
  rw [tickerResumeRequest, bandActedOn_of_actsOn hticker h (by decide)]

theorem tickerResumeRequest_of_running (h : ActsOn s .running) :
    tickerResumeRequest t = (t, verdict .duplicate) := by
  rw [tickerResumeRequest, bandActedOn_of_actsOn hticker h (by decide)]

theorem tickerResumeRequest_of_hidden (h : ActsOn s .hidden) :
    tickerResumeRequest t = (t, verdict .notOnAir) := by
  rw [tickerResumeRequest, bandActedOn_of_actsOn hticker h (by decide)]

end

/-- Settles O19: PURGE by the queue and the fetch start test of its departure, PAUSE and RESUME by the state
that they act on. -/
theorem tickerRequestsActAtOnce : Obligations.TickerRequestsActAtOnce := by
  intro s id tag h p t u purged acted on
  have hmsg : p.msg = s.msg := asked_msg ..
  have hpurged : queuePurged p = purged := by rw [queuePurged, hmsg]
  have hpause : t.ticker = s.ticker := asked_ticker ..
  have hresume : u.ticker = s.ticker := asked_ticker ..
  have purge (hq : s.msg.queue ≠ []) {v : State} (hv : fetchStart purged = v)
      (hreport : v.report = p.report) :
      exec (.purge id tag) s = .next (recorded v .tickerWord tag .accepted false) :=
    asking_acts h ((answer_purge p tag).trans
      ((purgeRequest_of_queue (by rwa [hmsg])).trans (by rw [hpurged, hv]))) hreport
  refine ⟨fun hq hnone => ?_, fun hq hfetch hout => ?_, fun hq => ?_, fun hb => ?_, fun hb hprior => ?_,
    fun hb => ?_, fun hb => ?_, fun hb => ?_, fun hb hprior => ?_, fun hb => ?_, fun hb => ?_⟩
  · exact purge hq (fetchStart_of_not_due (not_fetchDue_of_none hnone)) rfl
  · have htbase : purged.path.tbase = s.path.tbase := asked_tbase ..
    have haddr : recordFetch purged = recordFetch s := by
      funext r
      rw [recordFetch, recordFetch, recordAddr, recordAddr, tableBase, tableBase, htbase]
    have hroom : ([] : List Message).length < 32 := by decide
    refine purge hq ((fetchStart_of_due (s := purged) ⟨hfetch, hout, hroom⟩).trans ?_) rfl
    rw [haddr]
    rfl
  · exact asking_duplicate h ((answer_purge p tag).trans (purgeRequest_of_empty (by rw [hmsg, hq])))
  · refine asking_acts h ((answer_pause t tag).trans ((pauseRequest_of_running hpause (.inl hb)).trans ?_)) rfl
    rw [setActedOn_of_band hpause (by simp [hb])]
  · refine asking_acts h
      ((answer_pause t tag).trans ((pauseRequest_of_running hpause (.inr ⟨hb, hprior⟩)).trans ?_)) rfl
    rw [setActedOn_of_suppressed hpause hb]
  · exact asking_duplicate h ((answer_pause t tag).trans (pauseRequest_of_paused hpause hb))
  · exact asking_refused s id .tickerWord 2 [] tag .notOnAir 0 0 h
      ((answer_pause t tag).trans (pauseRequest_of_hidden hpause hb)) rfl
  · refine asking_acts h
      ((answer_tickerResume u tag).trans ((tickerResumeRequest_of_paused hresume (.inl hb)).trans ?_)) rfl
    rw [setActedOn_of_band hresume (by simp [hb])]
  · refine asking_acts h ((answer_tickerResume u tag).trans
      ((tickerResumeRequest_of_paused hresume (.inr ⟨hb, hprior⟩)).trans ?_)) rfl
    rw [setActedOn_of_suppressed hresume hb]
  · exact asking_duplicate h
      ((answer_tickerResume u tag).trans (tickerResumeRequest_of_running hresume hb))
  · exact asking_refused s id .tickerWord 3 [] tag .notOnAir 0 0 h
      ((answer_tickerResume u tag).trans (tickerResumeRequest_of_hidden hresume hb)) rfl

end Sys2Proof.IntakeProofs
end

section
/-! Captures of the intake tail and of the consume count (R135 to R137, R187). -/

namespace Sys2Proof.IntakeProofs
open Sys2Proof.Machine Sys2Proof.FrameProofs Sys2Proof.SponsorProofs

/-! ### The tests of the message unit on a state that something is raised in (R136, R137) -/

theorem fetchStart_raise (s : State) (k : NoticeKind) (d : List (Nat × List Byte)) :
    fetchStart (raise s k d) = raise (fetchStart s) k d := by
  by_cases hdue : FetchDue s s.msg.queue
  · rw [fetchStart_of_due hdue, fetchStart_of_due (s := raise s k d) hdue]
    rfl
  · rw [fetchStart_of_not_due hdue, fetchStart_of_not_due (s := raise s k d) hdue]

theorem report_fetchStart (s : State) : (fetchStart s).report = s.report := by
  unfold fetchStart
  split <;> rfl

/-- The state with its head moved to the tail − 64 (R136). -/
def clampedHead (s : State) : State := { s with msg := { s.msg with head := s.msg.tail - 64 } }

/-- The detail of INTAKE_OVERRUN: the records lost, the new head, the tail (ch. 12.6). -/
def overrunFields (s : State) : List (Nat × List Byte) :=
  [(0, leBytes 2 (outstanding s - 64)), (2, leBytes 2 (s.msg.tail - 64).toNat),
    (4, leBytes 2 s.msg.tail.toNat)]

theorem overrunTest_of_fits {s : State} (h : outstanding s ≤ 64) : overrunTest s = s :=
  if_neg (Nat.not_lt.2 h)

theorem overrunTest_of_overrun {s : State} (h : 64 < outstanding s) :
    overrunTest s = raise (clampedHead s) .intakeOverrun (overrunFields s) := if_pos h

/-- After an overrun 64 records are outstanding (R136). -/
theorem outstanding_clampedHead (s : State) : outstanding (clampedHead s) = 64 := by
  have h : s.msg.tail - (s.msg.tail - 64) = 64 := by bv_omega
  exact congrArg BitVec.toNat h

/-! ### Captures beside the fields that another unit acts on -/

section
variable {bytes : List (Nat × Byte)} {lo hi : Nat} (h : ∀ b ∈ bytes, lo ≤ b.1 ∧ b.1 < hi)
include h

theorem reaches_apart {off n : Nat} (hoff : off + n ≤ lo ∨ hi ≤ off) : reaches bytes off n = false := by
  refine (reaches_eq_false_iff bytes off n).2 fun b hb => ?_
  have := h b hb
  omega

theorem reaches_all (hne : bytes ≠ []) {n : Nat} (hn : lo + n = hi) : reaches bytes lo n = true := by
  obtain ⟨b, hb⟩ := List.exists_mem_of_ne_nil bytes hne
  refine List.any_eq_true.2 ⟨b, hb, ?_⟩
  have := h b hb
  simp only [inRange, Bool.and_eq_true, decide_eq_true_eq]
  omega

/-- Behind the request words and below the team records only the report and message units act. -/
theorem capture_of_words (hlo : 0x1060 ≤ lo) (hhi : hi ≤ 0x2000) {s : State} {w : WriteReq}
    (hb : captureBytes s w = bytes) : capture s w = wordReactions (mergeCapture s bytes) bytes := by
  have apart {off n : Nat} (hoff : off + n ≤ 0x1060 ∨ 0x2000 ≤ off) : reaches bytes off n = false :=
    reaches_apart h (by omega)
  have geometry : reachesGeometry bytes = false := by
    refine List.any_eq_false.2 fun f hf => ?_
    have hoff : f.off + f.width ≤ 0x1060 := by
      revert f
      decide
    rw [apart (.inl hoff)]
    exact Bool.false_ne_true
  have entries : reachedEntries bytes = [] := by
    refine List.filter_eq_nil_iff.2 fun i _ => ?_
    rw [apart (.inr (by unfold sponsorOffset; omega))]
    exact Bool.false_ne_true
  have words : completedWords bytes = [] := by
    refine List.filter_eq_nil_iff.2 fun w _ => ?_
    have := wordOffset_bounds w
    rw [apart (.inl (by omega))]
    exact Bool.false_ne_true
  simp only [capture, hb, words, takeRequests, recordReactions, configReactions, entries, geometry,
    reacting, List.foldl_nil, apart (off := 0x240) (n := 32) (by decide),
    apart (off := 0x2000) (n := 32) (by decide), apart (off := 0x2020) (n := 32) (by decide),
    Bool.false_eq_true, if_false]

end

/-! ### The statement -/

theorem arriving_captured {s : State} {w : WriteReq} (hlegal : legalWrite w = true)
    (hclass : classifyWrite s w = .captured) : arriving w s = done (capture (forwardWrite s w) w) := by
  rw [arriving, if_pos hlegal, arriveWrite, hclass]
  rfl

/-- The state with the tail that the shadow holds (R135). -/
def withTail (t : State) : State :=
  setMsg t fun m => { m with tail := BitVec.ofNat 16 (readLE t.path.shadow 0x1070 2) }

theorem tailCaptured_of_fetching {t : State} (h : t.msg.fetch.isSome = true) :
    tailCaptured t = withTail t := if_pos h

theorem tailCaptured_of_idle {t : State} (h : t.msg.fetch = none) :
    tailCaptured t = fetchStart (overrunTest (withTail t)) := if_neg (by rw [h]; exact Bool.false_ne_true)

/-- A consume capture on a quiet state is all that the command ends with (R187). -/
theorem settle_raise_consume {t : State} (h : Quiet t) (v : BitVec 16) :
    settle (raiseReport t (.consume v)) = takeConsume t v := by
  have htaken : takeRaised (raiseReport t (.consume v)) = takeConsume t v := by
    obtain ⟨pe, ga, pa, co, ro, cl, sc, re, ms, ti, rp⟩ := t
    obtain ⟨a, b, c, d, e, f, g, p, q, raised, w⟩ := rp
    obtain ⟨rfl, -⟩ : raised = [] ∧ _ := h
    rfl
  rw [settle, htaken, refreshStart_of_quiet (takeConsume t v) h.2]

/-- Settles O44: the report unit alone acts on a consume capture, the message unit alone on a tail capture. -/
theorem tailAndConsumeCaptures : Obligations.TailAndConsumeCaptures := by
  intro s w quiet hlegal hclass bytes merged tail n taken overrun fetching noticed
  have hne : bytes ≠ [] := captureBytes_ne_nil hclass
  have harrives := arriving_captured hlegal hclass
  refine ⟨fun hbytes => ?_, fun hbytes => ?_⟩
  · have result : exec (.intakeTailCapture w) s = done (tailCaptured merged) := by
      refine harrives.trans (congrArg done ?_)
      rw [capture_of_words hbytes (by decide) (by decide) (s := forwardWrite s w) rfl, wordReactions,
        reacting, if_pos (reaches_all hbytes hne rfl), reacting,
        if_neg (by rw [reaches_apart hbytes (.inl (by decide))]; exact Bool.false_ne_true)]
    have ends {u : State} (hu : tailCaptured merged = u) (hq : u.report = s.report) :
        exec (.intakeTailCapture w) s = .next u := by
      rw [result, hu]
      exact congrArg _ (settle_of_quiet u (quiet.of_report hq))
    have hfits (hf : s.msg.fetch = none) (hn : n ≤ 64) : tailCaptured merged = fetchStart taken := by
      rw [tailCaptured_of_idle (t := merged) hf, overrunTest_of_fits (by exact hn)]
      rfl
    have hlost (hf : s.msg.fetch = none) (hn : 64 < n) {u : State} (hu : fetchStart overrun = u)
        (hq : u.report = s.report) : exec (.intakeTailCapture w) s = .next (noticed u) := by
      have hover : overrunTest (withTail merged) = raise overrun .intakeOverrun (overrunFields taken) :=
        overrunTest_of_overrun hn
      rw [result, tailCaptured_of_idle (t := merged) hf, hover, fetchStart_raise, hu]
      exact congrArg _ (settle_raise_quiet u (quiet.of_report hq) _ _)
    refine ⟨fun hf => ?_, fun hf hn hnone => ?_, fun hf hn hsome hroom => ?_, fun hf hn hfull => ?_,
      fun hf hn hroom => ?_⟩
    · exact ends (tailCaptured_of_fetching (t := merged) hf) rfl
    · refine ends ((hfits hf hn).trans (fetchStart_of_not_due ?_)) rfl
      rintro ⟨-, hout, hroom⟩
      have hout : 0 < n := hout
      have hroom : s.msg.queue.length < 32 := hroom
      omega
    · exact ends ((hfits hf hn).trans
        (fetchStart_of_due (s := taken) ⟨hf, Nat.pos_of_ne_zero hsome, hroom⟩)) rfl
    · refine hlost hf hn (fetchStart_of_not_due ?_) rfl
      rintro ⟨-, -, hroom⟩
      exact absurd hroom (Nat.not_lt.2 hfull)
    · refine hlost hf hn (fetchStart_of_due (s := overrun) ⟨hf, ?_, hroom⟩) rfl
      have hout : outstanding overrun = 64 := outstanding_clampedHead taken
      rw [hout]
      decide
  · have result : exec (.noticeConsumeCapture w) s = done (consumeCaptured merged) := by
      refine harrives.trans (congrArg done ?_)
      rw [capture_of_words hbytes (by decide) (by decide) (s := forwardWrite s w) rfl, wordReactions,
        reacting, if_neg (by rw [reaches_apart hbytes (.inr (by decide))]; exact Bool.false_ne_true),
        reacting, if_pos (reaches_all hbytes hne rfl)]
    have hquiet : Quiet merged := quiet
    rw [result, consumeCaptured, done, settle_raise_consume hquiet]
    rfl

end Sys2Proof.IntakeProofs
end

section
/-! The start and the completion of an intake fetch (R136 to R142, R147). -/

namespace Sys2Proof.IntakeProofs
open Sys2Proof.Machine Sys2Proof.FrameProofs Sys2Proof.SponsorProofs Sys2Proof.ClockProofs

/-! ### The checks of a record, in their order (R140) -/

section
variable {s : State} {data : List Byte}

theorem judgeRecord_of_badKind (hmessage : recordByte data 0 ≠ 1) (hwithdraw : recordByte data 0 ≠ 2) :
    judgeRecord s data = .bad .badKind (recordId data) := if_pos ⟨hmessage, hwithdraw⟩

theorem judgeRecord_of_zeroId (hkind : recordByte data 0 = 1 ∨ recordByte data 0 = 2)
    (hid : recordId data = 0) : judgeRecord s data = .bad .badId 0 := by
  rw [judgeRecord, if_neg (by omega), if_pos hid]

theorem judgeRecord_of_withdraw (hkind : recordByte data 0 = 2) (hid : recordId data ≠ 0) :
    judgeRecord s data = .withdraw (recordId data) := by
  rw [judgeRecord, if_neg (by omega), if_neg hid, if_pos hkind]

section
variable (hkind : recordByte data 0 = 1) (hid : recordId data ≠ 0)
include hkind hid

theorem judgeRecord_of_badClass (hclass : recordClass data = none) :
    judgeRecord s data = .bad .badClass (recordId data) := by
  rw [judgeRecord, if_neg (by omega), if_neg hid, if_neg (by omega), hclass]

theorem judgeRecord_of_class {cls : MsgClass} (hclass : recordClass data = some cls) :
    judgeRecord s data = judgeMessage s cls data := by
  rw [judgeRecord, if_neg (by omega), if_neg hid, if_neg (by omega), hclass]

end

section
variable {cls : MsgClass}

theorem judgeMessage_of_badLength (hlength : recordByte data 8 = 0 ∨ 120 < recordByte data 8) :
    judgeMessage s cls data = .bad .badLength (recordId data) := if_pos hlength

variable (hlow : 1 ≤ recordByte data 8) (hhigh : recordByte data 8 ≤ 120)
include hlow hhigh

theorem judgeMessage_of_duplicate
    (hknown : inQueue s (recordId data) = true ∨ onBand s (recordId data) = true) :
    judgeMessage s cls data = .bad .duplicate (recordId data) :=
  (if_neg (by omega)).trans (if_pos (Bool.or_eq_true_iff.2 hknown))

theorem judgeMessage_of_new (hqueue : inQueue s (recordId data) = false)
    (hband : onBand s (recordId data) = false) :
    judgeMessage s cls data = .message (recordMessage s cls data) :=
  (if_neg (by omega)).trans (if_neg (by simp [hqueue, hband]))

end

/-! ### What is made of a record (R138, R142, R147) -/

variable {r : BitVec 16}

theorem takeRecord_of_bad {cause : BadCause} {id : BitVec 32} (h : judgeRecord s data = .bad cause id) :
    takeRecord s r false data = raiseBad s cause r id := by simp [takeRecord, h]

theorem takeRecord_of_message {m : Message} (h : judgeRecord s data = .message m) :
    takeRecord s r false data = queueMessage s m := by simp [takeRecord, h]

theorem takeRecord_of_withdraw {id : BitVec 32} (h : judgeRecord s data = .withdraw id) :
    takeRecord s r false data = withdraw s id := by simp [takeRecord, h]

end

theorem behindAnnounces_append {ahead behind : List Message} (hbehind : ∀ x ∈ behind, x.cls ≠ .announce)
    (hahead : ∀ x, ahead.getLast? = some x → x.cls = .announce) :
    behindAnnounces (ahead ++ behind) = behind := by
  have hstops : ahead.reverse.takeWhile (fun x => x.cls != .announce) = [] := by
    rcases List.eq_nil_or_concat ahead with rfl | ⟨front, x, rfl⟩
    · rfl
    · have hx : x.cls = .announce := hahead x (by simp)
      simp [hx]
  rw [behindAnnounces, List.reverse_append, List.takeWhile_append_of_pos (by simpa using hbehind), hstops,
    List.append_nil, List.reverse_reverse]

/-- An ANNOUNCE goes behind the last ANNOUNCE, another message to the tail (R142). -/
theorem insertMessage_append {ahead behind : List Message} {m : Message}
    (hannounce : m.cls = .announce → (∀ x ∈ behind, x.cls ≠ .announce) ∧
      ∀ x, ahead.getLast? = some x → x.cls = .announce)
    (hother : m.cls ≠ .announce → behind = []) :
    insertMessage (ahead ++ behind) m = ahead ++ m :: behind := by
  have htail (hm : m.cls ≠ .announce) : ahead ++ behind ++ [m] = ahead ++ m :: behind := by
    rw [hother hm, List.append_nil]
  unfold insertMessage
  split
  · next hm =>
    obtain ⟨hbehind, hahead⟩ := hannounce hm
    rw [behindAnnounces_append hbehind hahead, List.length_append, Nat.add_sub_cancel, List.take_left']
    rfl
  · next hm => exact htail (by simp [hm])
  · next hm => exact htail (by simp [hm])

theorem assertTest_eq (s : State) : assertTest s =
    { s with msg := { s.msg with
      hold := if highMark s.path.shadow ≤ s.msg.queue.length then true else s.msg.hold } } := by
  unfold assertTest
  split <;> rfl

theorem queueMessage_eq (s : State) (m : Message) : queueMessage s m =
    { s with msg := { s.msg with
      queue := insertMessage s.msg.queue m,
      hold := if highMark s.path.shadow ≤ (insertMessage s.msg.queue m).length then true
        else s.msg.hold } } := assertTest_eq _

section
variable {s : State} {id : BitVec 32}

theorem withdraw_of_queued (h : inQueue s id = true) : withdraw s id =
    { s with msg := { s.msg with
      queue := s.msg.queue.filter fun x => x.id != id,
      hold := if (s.msg.queue.filter fun x => x.id != id).length ≤ lowMark s.path.shadow then false
        else s.msg.hold } } := by
  rw [withdraw, if_pos h, releaseTest_eq]
  rfl

theorem withdraw_of_onBand (hqueue : inQueue s id = false) (hband : onBand s id = true) : withdraw s id =
    { s with ticker := { s.ticker with
      withdrawals := if id ∈ s.ticker.withdrawals then s.ticker.withdrawals
        else s.ticker.withdrawals ++ [id] } } := by
  rw [withdraw, if_neg (ne_true_of_eq_false hqueue), if_pos hband, handWithdrawal]
  simp only [List.contains_iff_mem]
  split <;> rfl

theorem withdraw_of_unknown (hqueue : inQueue s id = false) (hband : onBand s id = false) :
    withdraw s id = raise s .withdrawLate [(4, leBytes 4 id.toNat)] := by
  rw [withdraw, if_neg (ne_true_of_eq_false hqueue), if_neg (ne_true_of_eq_false hband)]

end

/-! ### The end of a completion: the overrun test, then the fetch start test (R136 to R138) -/

section
variable {t : State} (quiet : Quiet t)
include quiet

theorem done_fetchStart : done (fetchStart t) = .next (fetchStart t) :=
  congrArg _ (settle_of_quiet _ (quiet.of_report (report_fetchStart t)))

theorem done_raise (k : NoticeKind) (d : List (Nat × List Byte)) :
    done (raise (fetchStart t) k d) = .next (takeOccurrence (fetchStart t) k (layout 16 d)) :=
  congrArg _ (settle_raise_quiet _ (quiet.of_report (report_fetchStart t)) k d)

theorem done_tests_of_fits (hn : outstanding t ≤ 64) :
    done (fetchStart (overrunTest t)) = .next (fetchStart t) := by
  rw [overrunTest_of_fits hn, done_fetchStart quiet]

theorem done_tests_of_overrun (hn : 64 < outstanding t) :
    done (fetchStart (overrunTest t)) = .next (takeOccurrence (fetchStart (clampedHead t)) .intakeOverrun
      (layout 16 (overrunFields t))) := by
  rw [overrunTest_of_overrun hn, fetchStart_raise]
  exact done_raise (t := clampedHead t) quiet _ _

theorem done_tests_raised_of_fits (k : NoticeKind) (d : List (Nat × List Byte))
    (hn : outstanding t ≤ 64) : done (fetchStart (overrunTest (raise t k d))) =
      .next (takeOccurrence (fetchStart t) k (layout 16 d)) := by
  rw [overrunTest_of_fits (s := raise t k d) hn, fetchStart_raise, done_raise quiet]

/-- A completion that raises one occurrence and finds an overrun raises two (R186, log 1). -/
theorem done_tests_raised_of_overrun (k : NoticeKind) (d : List (Nat × List Byte))
    (hn : 64 < outstanding t) : ∃ u, done (fetchStart (overrunTest (raise t k d))) = .next u ∧
      takenInSomeOrder (fetchStart (clampedHead t)) u (k, layout 16 d)
        (.intakeOverrun, layout 16 (overrunFields t)) := by
  have hover : overrunTest (raise t k d) =
      raise (raise (clampedHead t) k d) .intakeOverrun (overrunFields t) :=
    overrunTest_of_overrun (s := raise t k d) hn
  have hraised : fetchStart (overrunTest (raise t k d)) = withRaised (fetchStart (clampedHead t))
      [(k, layout 16 d), (.intakeOverrun, layout 16 (overrunFields t))] := by
    rw [hover, fetchStart_raise, fetchStart_raise]
    exact raise_withRaised (fetchStart (clampedHead t)) [(k, layout 16 d)] _ _
  refine ⟨_, congrArg done hraised, settle_withRaised_pair ?_ _ _⟩
  rw [report_fetchStart]
  exact quiet.1

end

/-- The completion of the fetch in flight, where no reset dropped it (R138). -/
theorem exec_intakeFetchComplete {s : State} {r : BitVec 16} (hr : s.msg.fetch = some r)
    (hstale : Stale.intake ∉ s.path.stale) {error : Bool} {data : List Byte}
    (hdue : error = true ∨ data.length = 256) :
    exec (.intakeFetchComplete error data) s = done (completeFetch s r error data) := by
  have hfresh : ¬isStale s .intake = true := by simpa [isStale] using hstale
  change execIntakeFetchComplete error data s = _
  rw [execIntakeFetchComplete, if_neg hfresh, hr]
  exact if_pos (by simpa using hdue)

/-- Settles O45: the checks of the record decide what its completion makes of it; the tests that end the
completion are the same for all. -/
theorem intakeFetchesAreStartedAndCompleted : Obligations.IntakeFetchesAreStartedAndCompleted := by
  intro s quiet
  refine ⟨fun hfetch hout hroom => ?_, fun hnone => ?_, fun r data hr hstale => ?_⟩
  · refine (done_fetchStart quiet).trans ?_
    rw [fetchStart_of_due ⟨hfetch, hout, hroom⟩]
    rfl
  · refine (done_fetchStart quiet).trans ?_
    rw [fetchStart_of_not_due]
    rintro ⟨hfetch, hout, hroom⟩
    simp only [hfetch, Option.isSome_none, Bool.false_eq_true, false_or] at hnone
    omega
  intro n clamped lost t id byte completed reported noticed bad
  have hquiet : Quiet t := quiet
  have hcomplete {error : Bool} {u : State} (hdue : error = true ∨ data.length = 256)
      (hu : takeRecord t r error data = u) :
      exec (.intakeFetchComplete error data) s = done (fetchStart (overrunTest u)) := by
    rw [exec_intakeFetchComplete hr hstale hdue, ← hu]
    rfl
  have reports {error : Bool} {kind : NoticeKind} {fields : List (Nat × List Byte)}
      (hdue : error = true ∨ data.length = 256) (hu : takeRecord t r error data = raise t kind fields) :
      reported error kind fields := by
    refine ⟨fun hn => ?_, fun hn => ?_⟩
    · rw [hcomplete hdue hu, done_tests_raised_of_fits hquiet kind fields hn]
    · rw [hcomplete hdue hu]
      exact done_tests_raised_of_overrun hquiet kind fields hn
  refine ⟨reports (.inl rfl) rfl, fun hlength => ?_⟩
  have judged {cause : BadCause} {x : BitVec 32} {c v : Nat} (hj : judgeRecord t data = .bad cause x)
      (hc : cause.code = c) (hv : x.toNat = v) : bad c v := by
    subst hc hv
    exact reports (.inr hlength) (takeRecord_of_bad hj)
  have completes {queue : List Message} {hold : Bool} {k : TickerUnit}
      (hu : takeRecord t r false data =
        { t with msg := { t.msg with queue := queue, hold := hold }, ticker := k }) :
      completed { t with msg := { t.msg with queue := queue, hold := hold }, ticker := k } := by
    have hdone := hcomplete (.inr hlength) hu
    exact ⟨fun hn => hdone.trans (done_tests_of_fits (t := { t with msg := _, ticker := k }) hquiet hn),
      fun hn => hdone.trans (done_tests_of_overrun (t := { t with msg := _, ticker := k }) hquiet hn)⟩
  refine ⟨?_, ?_, ?_, fun cls hk hid hc => ?_, fun hk hid => ?_⟩
  · exact fun hmessage hwithdraw => judged (judgeRecord_of_badKind hmessage hwithdraw) rfl rfl
  · exact fun hk hid => judged (judgeRecord_of_zeroId hk hid) rfl rfl
  · exact fun hk hid hc => judged (judgeRecord_of_badClass hk hid hc) rfl rfl
  · have hj := judgeRecord_of_class (s := t) hk hid hc
    refine ⟨fun hb => ?_, fun hlow hhigh hknown => ?_, ?_⟩
    · exact judged (hj.trans (judgeMessage_of_badLength hb)) rfl rfl
    · exact judged (hj.trans (judgeMessage_of_duplicate hlow hhigh hknown)) rfl rfl
    · intro hlow hhigh hqueue hband ahead behind hq hannounce hother q
      have hinsert : insertMessage t.msg.queue (recordMessage t cls data) = q :=
        (congrArg (insertMessage · _) hq).trans (insertMessage_append hannounce hother)
      have hnew := hj.trans (judgeMessage_of_new hlow hhigh hqueue hband)
      have hu := (takeRecord_of_message (r := r) hnew).trans (queueMessage_eq t _)
      rw [hinsert] at hu
      exact completes hu
  · have hj := takeRecord_of_withdraw (r := r) (judgeRecord_of_withdraw (s := t) hk hid)
    refine ⟨?_, fun hqueue hband => ?_, fun hqueue hband => ?_⟩
    · intro hqueue q
      exact completes (hj.trans (withdraw_of_queued hqueue))
    · exact completes (hj.trans (withdraw_of_onBand hqueue hband))
    · exact reports (.inr hlength) (hj.trans (withdraw_of_unknown hqueue hband))

end Sys2Proof.IntakeProofs
end

section
/-! What the shadow's form and the notice ring rest on: the desk of a state, which every operation but a
merge of captured bytes and the end of a command keeps (R168 to R170, R177, R186). -/

namespace Sys2Proof.TransactionProofs
open Sys2Proof.Machine Sys2Proof.FrameProofs

/-- The transaction is a status page write or a notice record write (R168). -/
def isOwn : DownTxn → Bool
  | .own _ _ _ => true
  | _ => false

/-- The shadow, the base address, the notice ring with its two counts, the own writes issued since reset. -/
structure Desk where
  shadow : Memory
  tbase : BitVec 8
  ring : List NoticeRecord
  produce : BitVec 16
  consume : BitVec 16
  own : List DownTxn

def desk (s : State) : Desk :=
  { shadow := s.path.shadow, tbase := s.path.tbase, ring := s.report.ring, produce := s.report.produce
    consume := s.report.consume, own := s.path.issued.filter isOwn }

section
variable (s : State)

@[simp] theorem desk_setClock (f : ClockUnit → ClockUnit) : desk (setClock s f) = desk s := rfl
@[simp] theorem desk_setReplay (f : ReplayUnit → ReplayUnit) : desk (setReplay s f) = desk s := rfl
@[simp] theorem desk_setMsg (f : MessageUnit → MessageUnit) : desk (setMsg s f) = desk s := rfl
@[simp] theorem desk_setTicker (f : TickerUnit → TickerUnit) : desk (setTicker s f) = desk s := rfl
@[simp] theorem desk_modifyPlacement (p : Nat) (f : Placement → Placement) :
    desk (modifyPlacement s p f) = desk s := rfl
@[simp] theorem desk_modifyClip (c : Nat) (f : Clip → Clip) : desk (modifyClip s c f) = desk s := rfl
@[simp] theorem desk_raise (k : NoticeKind) (d : List (Nat × List Byte)) :
    desk (raise s k d) = desk s := rfl
@[simp] theorem desk_refreshDue (c : RefreshCause) : desk (refreshDue s c) = desk s := rfl

theorem desk_issue {d : DownTxn} (h : isOwn d = false) : desk (issue s d) = desk s := by
  simp [desk, h]

theorem desk_forwardWrite (w : WriteReq) : desk (forwardWrite s w) = desk s :=
  desk_issue s (d := .burst (.write w)) rfl

/-- What is issued for others is no own write. -/
theorem desk_issueAll {l : List DownTxn} (h : ∀ d ∈ l, isOwn d = false) : desk (issueAll s l) = desk s := by
  have hnone : l.filter isOwn = [] := List.filter_eq_nil_iff.2 fun d hd => by simp [h d hd]
  simp [issueAll_eq, desk, hnone]

@[simp] theorem desk_recordOutcome (w : ReqWord) (tag : Byte) (code : Nat) (v : Verdict) :
    desk (recordOutcome s w tag code v) = desk s := by
  unfold recordOutcome
  dsimp only
  split <;> rfl

/-! ### The clock unit -/

@[simp] theorem desk_tryStart (c : ClockCause) : desk (tryStart s c) = desk s := by
  rw [tryStart_eq]
  rfl

@[simp] theorem desk_takeConfig : desk (takeConfig s) = desk s := by
  rw [takeConfig_eq]
  rfl

@[simp] theorem desk_stopClock (g : GameState) (c : ClockCause) : desk (stopClock s g c) = desk s := by
  simp only [stopClock, apply_ite desk, desk_takeConfig, desk_refreshDue, desk_raise, desk_setClock, ite_self]

@[simp] theorem desk_reevaluate (c : ClockCause) : desk (reevaluate s c) = desk s := by
  simp only [reevaluate, apply_ite desk, desk_stopClock, desk_tryStart, ite_self]

theorem desk_spotRequest (o : SpotOffsets) (i p dwell c : Nat) :
    desk (spotRequest s o i p dwell c).1 = desk s := by
  simp only [spotRequest, apply_ite Prod.fst, apply_ite desk, desk_modifyPlacement, ite_self]

@[simp] theorem desk_periodEndSpot : desk (periodEndSpot s) = desk s := by
  simp only [periodEndSpot, apply_ite desk, desk_recordOutcome, desk_spotRequest, ite_self]

@[simp] theorem desk_tick : desk (tick s) = desk s := by
  have hpoint : ∀ t, desk (reachSetPoint t) = desk t := fun t => by
    simp only [reachSetPoint, raisePeriodEnd, startHornGame, apply_ite desk, desk_setClock, desk_raise,
      ite_self]
  unfold tick
  dsimp only
  split <;>
    simp only [apply_ite desk, expireClock, raisePeriodEnd, startHornGame, hpoint, reachLimit, shotExpire,
      startHornShot, tickValues, desk_periodEndSpot, desk_raise, desk_stopClock, desk_setClock, ite_self]

@[simp] theorem desk_creditTicks (n : Nat) : desk (creditTicks n s) = desk s := by
  induction n generalizing s with
  | zero => rfl
  | succ n ih => simp only [creditTicks, apply_ite desk, desk_tick, ih, ite_self]

theorem desk_advanceClock : desk (advanceClock s) = desk s := by
  simp only [advanceClock, loseTimebase, raiseTimebase, apply_ite desk, desk_setClock, desk_raise,
    desk_creditTicks, desk_tick, ite_self]

theorem desk_timebaseEdge : desk (timebaseEdge s) = desk s := by
  unfold timebaseEdge
  split
  · simp only [apply_ite desk, desk_tick, desk_setClock, ite_self]
  · simp only [countReturn, raiseTimebase, apply_ite desk, desk_raise, desk_setClock, ite_self]

theorem desk_gateEdge : desk (gateEdge s) = desk s := desk_reevaluate _ _

@[simp] theorem desk_clearClock : desk (clearClock s) = desk s := by
  simp only [clearClock, stopForGame, apply_ite desk, desk_stopClock, desk_setClock, ite_self]

/-! ### The message unit -/

/-- The intake fetch is a read (R137). -/
@[simp] theorem desk_fetchStart : desk (fetchStart s) = desk s := by
  simp only [fetchStart, apply_ite desk, desk_issue _ (d := .burst _) rfl, desk_setMsg, ite_self]

@[simp] theorem desk_releaseTest : desk (releaseTest s) = desk s := by
  simp only [releaseTest, apply_ite desk, desk_setMsg, ite_self]

@[simp] theorem desk_departed : desk (departed s) = desk s := by
  rw [departed, desk_fetchStart, desk_releaseTest]

@[simp] theorem desk_overrunTest : desk (overrunTest s) = desk s := by
  simp only [overrunTest, apply_ite desk, desk_raise, desk_setMsg, ite_self]

theorem desk_tailCaptured : desk (tailCaptured s) = desk s := by
  simp only [tailCaptured, apply_ite desk, desk_fetchStart, desk_overrunTest, desk_setMsg, ite_self]

theorem desk_withdraw (id : BitVec 32) : desk (withdraw s id) = desk s := by
  have hhand : desk (handWithdrawal s id) = desk s := by
    unfold handWithdrawal
    split <;> rfl
  simp only [withdraw, removeQueued, apply_ite desk, hhand, desk_releaseTest, desk_raise, desk_setMsg,
    ite_self]

theorem desk_completeFetch (r : BitVec 16) (error : Bool) (data : List Byte) :
    desk (completeFetch s r error data) = desk s := by
  have hqueue : ∀ t m, desk (queueMessage t m) = desk t := fun t m => by
    simp only [queueMessage, assertTest, apply_ite desk, desk_setMsg, ite_self]
  have htake : ∀ t, desk (takeRecord t r error data) = desk t := fun t => by
    unfold takeRecord
    split
    · rfl
    · split
      · rfl
      · exact hqueue t _
      · exact desk_withdraw t _
  simp [completeFetch, htake]

theorem desk_houseAdvance : desk (houseAdvance s) = desk s := by
  have hall : ∀ t (l : List Message) key detail, desk (raiseAll t .msgExpired key detail l) = desk t :=
    fun t l key detail => by
      unfold raiseAll
      split <;> exact view_foldl _ (fun u x => desk_raise u _ (detail x)) _
  simp only [houseAdvance, expireMessages, apply_ite desk, desk_departed, hall, desk_setMsg, ite_self,
    desk_advanceClock]

/-! ### The requests but those that write into the shadow -/

theorem desk_clockRequest (x : RequestWord) : desk (clockRequest s x).1 = desk s := by
  have hadjust : ∀ t, desk (adjustState t) = desk t := fun t => by
    unfold adjustState
    split
    · rfl
    · simp only [apply_ite desk, desk_stopClock, desk_tryStart, desk_setClock, ite_self]
  unfold clockRequest
  split
  all_goals
    simp only [softRequest, setRequest, adjustRequest, periodNextRequest, stopForGame, shotResetRequest,
      shotSetRequest, shotSwitchRequest, hornRequest, startHornGame, loadShotReset, unknown,
      apply_ite Prod.fst, apply_ite desk, hadjust, desk_reevaluate, desk_tryStart, desk_stopClock,
      desk_setClock, ite_self]

theorem desk_replayRequest (x : RequestWord) : desk (replayRequest s x).1 = desk s := by
  have hwait : ∀ w, desk (waitFor s w).1 = desk s := fun w => by
    change desk (supersedeWaiting s) = desk s
    unfold supersedeWaiting
    split <;> rfl
  unfold replayRequest
  split
  · unfold armRequest
    split
    · rfl
    · simp only [apply_ite Prod.fst, apply_ite desk, desk_modifyClip, ite_self]
  · unfold disarmRequest
    repeat' split
    all_goals rfl
  · unfold resetRingRequest
    split <;> rfl
  · simp only [playRequest, apply_ite Prod.fst, apply_ite desk, hwait, ite_self]
  · unfold freezeRequest
    split <;> rfl
  · unfold replayResumeRequest
    split <;> rfl
  · unfold stepRequest
    repeat' split
    all_goals rfl
  · unfold takeLiveRequest
    split
    · rfl
    · split
      · rfl
      · simp only [apply_ite Prod.fst, apply_ite desk, hwait, ite_self]
      all_goals exact hwait _
  · rfl

theorem desk_tickerRequest (x : RequestWord) : desk (tickerRequest s x).1 = desk s := by
  have hact : ∀ b, desk (setActedOn s b) = desk s := fun b => by
    unfold setActedOn
    split <;> rfl
  unfold tickerRequest
  split
  · unfold purgeRequest
    split
    · rfl
    · exact desk_departed _
  · unfold pauseRequest
    split
    · exact hact _
    all_goals rfl
  · unfold tickerResumeRequest
    split
    · exact hact _
    all_goals rfl
  · rfl

/-! ### Captures -/

theorem desk_openFor {s t : State} {first : Bool} {k : Nat} (h : openFor s first = some (k, t)) :
    desk t = desk s := by
  unfold openFor at h
  split at h
  · obtain ⟨j, -, h⟩ := Option.map_eq_some_iff.1 h
    cases h
    rfl
  · split at h <;> cases h <;> rfl

theorem desk_issuePieces (g : Geometry) (w : WriteReq) (k : Nat) :
    desk (issueAll s (ingestPieces g w k)) = desk s := by
  refine desk_issueAll s fun d hd => ?_
  unfold ingestPieces remappedWrite at hd
  split at hd
  · rw [List.mem_singleton.1 hd]
    rfl
  · dsimp only at hd
    split at hd <;> rcases List.mem_pair.1 hd with rfl | rfl <;> rfl

theorem desk_commitFrame (k : Nat) : desk (commitFrame s k) = desk s := by
  unfold commitFrame
  repeat' split
  all_goals rfl

theorem desk_geometryCaptured (w : WriteReq) (bytes : List (Nat × Byte)) :
    desk (geometryCaptured s w bytes) = desk s := by
  unfold geometryCaptured setGeometry
  repeat' split
  all_goals rfl

theorem desk_clockConfigCaptured : desk (clockConfigCaptured s) = desk s := by
  simp only [clockConfigCaptured, apply_ite desk, desk_setClock, desk_takeConfig, ite_self]

theorem desk_teamCaptured (t : Team) (old : Nat) : desk (teamCaptured s t old) = desk s := by
  unfold teamCaptured scoreRise sendCut askFlash
  repeat' split
  all_goals rfl

theorem desk_sponsorCaptured (i : Nat) : desk (sponsorCaptured s i) = desk s := by
  unfold sponsorCaptured
  split <;> rfl

/-! ### Reads, answers and errors -/

theorem desk_arriveRead (r : ReadReq) : desk (arriveRead s r) = desk s := by
  have hpieces : ∀ id dest addrs, ∀ d ∈ readPieces id dest addrs, isOwn d = false := by
    intro id dest addrs d hd
    obtain ⟨p, as, rfl, -⟩ := mem_readPieces hd
    rfl
  unfold arriveRead
  split
  · refine desk_issueAll s fun d hd => ?_
    rcases List.mem_append.1 hd with hd | hd
    · exact hpieces _ _ _ d hd
    · obtain ⟨n, as, -, rfl⟩ := mem_overlayFetches hd
      rfl
  · split
    · exact desk_issueAll s (hpieces _ _ _)
    · exact desk_issue s rfl

theorem desk_of_sameButAnswers {s t : State} (h : SameButAnswers s t) : desk t = desk s := by
  rw [h]
  rfl

theorem desk_programError (read : ReadName) : desk (programError s read) = desk s := by
  have hfail : ∀ c, desk (failRead (modifyRead s c.key fun x => { x with failed := true }) c) = desk s :=
    fun c => desk_of_sameButAnswers ((modifyRead_same s _ _).trans (failRead_same _ _))
  unfold programError
  split
  · rfl
  · split
    · simp only [apply_ite desk, hfail, ite_self]
    · rfl

/-- The fetches in the place of a dropped layer are no own writes (R14). -/
theorem desk_overlayError (read : ReadName) (l addr : Nat) : desk (overlayError s read l addr) = desk s := by
  have herase : ∀ f, desk (eraseLayer s f l) = desk s := fun f => by
    refine desk_issueAll _ fun d hd => ?_
    obtain ⟨c, -, hd⟩ := List.mem_flatMap.1 hd
    split at hd
    · unfold CompRead.inPlace at hd
      split at hd
      · cases hd
      · obtain ⟨n, as, -, rfl⟩ := mem_overlayFetches hd
        rfl
    · cases hd
  unfold overlayError
  split
  · rfl
  · split
    · rfl
    · simp only [apply_ite desk, desk_raise, herase, ite_self]

theorem desk_compositedAnswer (read : ReadName) (f : Fetched) : desk (compositedAnswer s read f) = desk s := by
  have hcomplete : ∀ c g, desk (completeRead s c g) = desk s := fun c g =>
    desk_of_sameButAnswers (completeRead_same s c g)
  unfold compositedAnswer
  split
  · rfl
  · split
    · rfl
    · simp only [apply_ite desk, hcomplete, ite_self]

theorem desk_ingestResponse (id : BitVec 8) (outside : Bool) (code : Resp) :
    desk (ingestResponse s id outside code) = desk s := by
  have hset : ∀ u e k a b, desk (setPieces u e k a b) = desk u := fun u e k a b => by
    unfold setPieces
    split
    · exact desk_of_sameButAnswers (answerKey_same _ _ _)
    · rfl
  unfold ingestResponse
  split
  · rfl
  · split
    · rfl
    · split
      · exact hset _ _ _ _ _
      · rw [hset]
        split <;> rfl
      · rfl

theorem desk_forwardedResponse (dir : Dir) (id : BitVec 8) (data : List Byte) (status : List Resp) :
    desk (forwardedResponse s dir id data status) = desk s := by
  have hanswer : ∀ key r, desk (answerKey s key r) = desk s := fun key r =>
    desk_of_sameButAnswers (answerKey_same s key r)
  unfold forwardedResponse
  split
  · rfl
  · split
    · rfl
    · simp only [apply_ite desk, hanswer, ite_self]

theorem desk_refreshComplete : desk (refreshComplete s) = desk s := by
  unfold refreshComplete
  repeat' split
  all_goals rfl

/-! ### FRAME_START -/

theorem desk_tickerFrame : desk (tickerFrame s) = desk s := by
  have hsuppress : ∀ t, desk (bandSuppress t) = desk t := fun t => by
    unfold bandSuppress
    dsimp only
    repeat' split
    all_goals rfl
  have hband : ∀ t, desk (bandEnter t) = desk t := fun t => by
    have henter : ∀ m rest, desk (enterHead t m rest) = desk t := fun m rest => desk_departed _
    unfold bandEnter
    dsimp only
    cases t.msg.queue with
    | nil => simp only [apply_ite desk, desk_setTicker, ite_self]
    | cons m rest => simp only [apply_ite desk, desk_setTicker, henter, ite_self]
  unfold tickerFrame
  split
  · rfl
  · simp only [hband, bandStart, bandWithdraw, bandScroll, apply_ite desk, desk_setTicker, ite_self,
      hsuppress]

/-- The units' handling of FRAME_START keeps the desk: the refresh and the notices follow at the end of the
command (R4). -/
theorem desk_frameStart : desk (frameStart s) = desk s := by
  have hmode : desk (frameOpened s) = desk s := (congrArg desk (sansMode_modeFrame (openFrame s)) :)
  have hreplay : ∀ t, desk (replayFrame t) = desk t := fun t => (congrArg desk (sansReplay_replayFrame t) :)
  have hsourced : desk (frameSourced s) = desk s := by
    rw [frameSourced, scoreFrame_eq]
    exact (hreplay _).trans hmode
  have hrot : ∀ t hand r, desk (rotFrame t hand r) = desk t := fun t hand r =>
    (congrArg desk (sansRot_rotFrame t hand r) :).trans (congrArg desk (sansAccrual_rotOpen t hand) :)
  change desk (frameUnits s) = desk s
  rw [frameUnits, desk_tickerFrame, hrot, hsourced]

end
end Sys2Proof.TransactionProofs
end

section
/-! What rests on the desk is kept by every step where merges and the end of a command keep it; every step
keeps the shadow canonical and settles (O54). -/

namespace Sys2Proof.TransactionProofs
open Sys2Proof.Machine Sys2Proof.FrameProofs Sys2Proof.IntakeProofs

/-! ### The requests that write into the shadow (R54, R88) -/

/-- Nothing of the desk differs but bytes merged into the shadow. -/
def Merges (s t : State) : Prop := ∃ bytes, desk t = desk (mergeCapture s bytes)

theorem merges_of_desk {s t : State} (h : desk t = desk s) : Merges s t := ⟨[], h⟩

theorem desk_mergeCapture_congr {s t : State} (h : desk t = desk s) (bytes : List (Nat × Byte)) :
    desk (mergeCapture t bytes) = desk (mergeCapture s bytes) :=
  (congrArg (fun d : Desk => { d with shadow := writeAll d.shadow bytes }) h :)

theorem merges_showRequest (s : State) (x : RequestWord) : Merges s (showRequest s x).1 := by
  have hmode : desk (supersedeMode s) = desk s := by
    unfold supersedeMode
    split <;> rfl
  unfold showRequest
  split
  · refine merges_of_desk ?_
    unfold goLiveRequest
    split
    · rfl
    · split
      · rfl
      · split <;> exact hmode
  · refine merges_of_desk ?_
    unfold goPassRequest
    split
    · rfl
    · split <;> exact hmode
  · exact ⟨_, (desk_mergeCapture_congr (desk_clearClock s) (clearTeamBytes .home
      (clearClock s).clock.config.timeouts ++ clearTeamBytes .away (clearClock s).clock.config.timeouts) :)⟩
  · exact merges_of_desk rfl
  · exact merges_of_desk rfl

theorem merges_sponsorRequest (s : State) (x : RequestWord) : Merges s (sponsorRequest s x).1 := by
  have hsuspend : ∀ i on, Merges s (suspendRequest s i on).1 := fun i on => by
    unfold suspendRequest
    split
    · exact merges_of_desk rfl
    · split
      · exact merges_of_desk rfl
      · exact ⟨[(sponsorOffset i, _)], rfl⟩
  unfold sponsorRequest
  split
  · exact merges_of_desk (desk_spotRequest s _ _ _ _ _)
  · refine merges_of_desk ?_
    simp only [setLowestRequest, apply_ite Prod.fst, apply_ite desk, desk_modifyPlacement, ite_self]
  · refine merges_of_desk ?_
    unfold endRequest
    repeat' split
    all_goals rfl
  · exact hsuspend _ _
  · exact hsuspend _ _
  · exact merges_of_desk rfl

theorem merges_answerRequest (s : State) (w : ReqWord) (x : RequestWord) :
    Merges s (answerRequest s w x).1 := by
  cases w with
  | showWord => exact merges_showRequest s x
  | clockWord => exact merges_of_desk (desk_clockRequest s x)
  | sponsorWord => exact merges_sponsorRequest s x
  | replayWord => exact merges_of_desk (desk_replayRequest s x)
  | tickerWord => exact merges_of_desk (desk_tickerRequest s x)
  | spareWord => exact merges_of_desk rfl

/-! ### What rests on the desk -/

/-- What the desk alone decides is kept by every step, where a merge, the end of a command, the start of a
refresh and a reset keep it. -/
theorem keptByCommands_of_desk {P : State → Prop} (decided : ∀ {s t}, desk t = desk s → P s → P t)
    (merge : ∀ {s} bytes, P s → P (mergeCapture s bytes)) (settles : ∀ {s}, P s → P (settle s))
    (starts : ∀ {s}, P s → P (refreshStart s))
    (reset : ∀ tbase gate stale pending, P (.resetWith tbase gate stale pending)) : KeptByCommands P where
  settle := settles
  forwardWrite w := decided (desk_forwardWrite _ w)
  blockWrite _ _ _ := decided rfl
  openFor hopen := decided (desk_openFor hopen)
  issuePieces w k := decided (desk_issuePieces _ _ w k)
  enterIngest _ _ _ := decided rfl
  commitFrame k := decided (desk_commitFrame _ k)
  mergeCapture := merge
  geometryCaptured w bytes := decided (desk_geometryCaptured _ w bytes)
  clockConfigCaptured := decided (desk_clockConfigCaptured _)
  teamCaptured x old := decided (desk_teamCaptured _ x old)
  sponsorCaptured i := decided (desk_sponsorCaptured _ i)
  consumeCaptured := decided rfl
  tailCaptured := decided (desk_tailCaptured _)
  answerRequest w x h :=
    let ⟨_, hbytes⟩ := merges_answerRequest _ w x
    decided hbytes (merge _ h)
  recordOutcome _ _ _ _ := decided (desk_recordOutcome _ _ _ _ _)
  queueTaken _ := decided rfl
  reset := reset
  frameStart := decided (desk_frameStart _)
  gateEdge := decided (desk_gateEdge _)
  loadShotReset := decided rfl
  timebaseEdge := decided (desk_timebaseEdge _)
  houseAdvance := decided (desk_houseAdvance _)
  arriveRead r := decided (desk_arriveRead _ r)
  compositedAnswer read f := decided (desk_compositedAnswer _ read f)
  overlayError read l a := decided (desk_overlayError _ read l a)
  programError read := decided (desk_programError _ read)
  ingestResponse id o code := decided (desk_ingestResponse _ id o code)
  forwardedResponse dir id d st := decided (desk_forwardedResponse _ dir id d st)
  fetchStart := decided (desk_fetchStart _)
  completeFetch error data _ := decided (desk_completeFetch _ _ error data)
  discard _ := decided rfl
  refreshStart := starts
  refreshComplete := decided (desk_refreshComplete _)

/-! ### The shadow (R169, R170) -/

theorem shadowWf_keptByCommands : KeptByCommands fun s => Memory.wf s.path.shadow = true :=
  keptByCommands_of_desk (fun h => (congrArg (fun d : Desk => Memory.wf d.shadow = true) h).mpr)
    (fun bytes => writeAll_wf bytes _) (fun h => (settle_shadow _).symm ▸ h)
    (fun h => (shadow_of_aside (aside_refreshStart _)).symm ▸ h) (fun _ _ _ _ => rfl)

/-! ### Quiet states (R184, R186) -/

section
variable {s : State}

theorem quiet_done (u : State) : NextMeets Quiet (done u) := nextMeets_next (quiet_settle u)

theorem quiet_settled (r : Option State) : NextMeets Quiet (settled r) := by
  cases r with
  | none => rintro t ⟨⟩
  | some u => exact quiet_done u

theorem quiet_arriving (w : WriteReq) : NextMeets Quiet (arriving w s) := by
  unfold arriving
  split
  · exact quiet_settled _
  · rintro t ⟨⟩

theorem quiet_reading (r : ReadReq) : NextMeets Quiet (reading r s) := by
  unfold reading
  split
  · exact quiet_done _
  · rintro t ⟨⟩

variable (h : Quiet s)
include h

theorem quiet_whenDue (due : Bool) (u : State) : NextMeets Quiet (whenDue due u s) := by
  unfold whenDue
  split
  · exact quiet_done u
  · exact nextMeets_next h

theorem quiet_intakeFetchComplete (error : Bool) (data : List Byte) :
    NextMeets Quiet (execIntakeFetchComplete error data s) := by
  unfold execIntakeFetchComplete
  split
  · exact nextMeets_next h
  · split
    · exact nextMeets_next h
    · exact quiet_whenDue h _ _

/-- Every command ends by settling, or leaves the report unit as it was, or resets it (log 1, log 10). -/
theorem quiet_exec (c : Instr) : NextMeets Quiet (exec c s) := by
  cases c with
  | resetN => exact nextMeets_next ⟨rfl, .inl rfl⟩
  | flashEnd | stackEntryDwellEnd | enteringBumperEnd | leavingBumperEnd | clipEndAction | timebaseLoss
  | hornEnd | messageExpiry | timebaseRestore | gameClockExpiry | shotClockExpiry | upSetPointReached
  | upLimit => exact quiet_whenDue h _ _
  | frameStart | gateRunEdge | shotRstEdge | tbInEdge | houseTimeAdvance | compositedReadAnswer
  | overlayFetchError | programFetchError | ingestWriteResponse | forwardedResponse | intakeFetchStart
  | statusRefreshComplete => exact quiet_done _
  | compositedRead r | windowRead r => exact quiet_reading r
  | forwardedTransaction t =>
    cases t with
    | read r => exact quiet_reading r
    | write w => exact quiet_arriving w
  | ingestWrite w | blockedWrite w | partOwnedWrite w | capturedWrite w | geometryCapture w
  | teamRecordCapture w | sponsorEntryCapture w | clockConfigCapture w | intakeTailCapture w
  | noticeConsumeCapture w => exact quiet_arriving w
  | intakeFetchComplete e d => exact quiet_intakeFetchComplete h e d
  | statusRefreshStart => exact nextMeets_next ((refreshStart_of_quiet s h.2).symm ▸ h)
  | goLive | goPass | clearGame | clearExposure | spareRequest | runEnable | runDisable | clockSet
  | clockAdjust | periodNext | shotReset | shotSet | shotEnable | shotDisable | horn | spot | setLowest
  | endEntry | suspend | sponsorResume | arm | disarm | resetRing | play | freeze | replayResume
  | stepReplay | takeLive | purge | pause | tickerResume | unknownRequestCode =>
    exact quiet_settled _

theorem quiet_step {t : State} (hstep : step s = .next t) : Quiet t := by
  unfold step at hstep
  split at hstep
  · cases hstep
    exact h
  · next c rest _ => exact quiet_exec (s := { s with pending := rest }) h c t hstep

end

/-- Settles O54: merges alone reach the shadow, and a command settles at its end, or leaves the report unit as
it was, or resets it. -/
theorem stepsKeepTheShadowCanonicalAndSettle : Obligations.StepsKeepTheShadowCanonicalAndSettle :=
  fun _ _ hstep => ⟨fun h => step_keeps shadowWf_keptByCommands h hstep, fun h => quiet_step h hstep⟩

end Sys2Proof.TransactionProofs
end

section
/-! Every step keeps the notice ring in order and the own writes inside their areas; what one occurrence taken
comes to (O58). -/

namespace Sys2Proof.TransactionProofs
open Sys2Proof.Machine Sys2Proof.FrameProofs Sys2Proof.IntakeProofs

/-! ### The notice ring (R186, R187) -/

/-- The records stand in order, each at its place, and every own write lies inside its area. -/
def NoticesHold (s : State) : Prop := RingFits s ∧ OwnWritesOk s

theorem ownInside_congr {s t : State} (h : t.path.tbase = s.path.tbase) (d : DownTxn) :
    ownInside t d ↔ ownInside s d := by
  cases d <;> simp only [ownInside, statusBase, noticeBase, tableBase, h]

/-- What is no own write lies outside the areas by its kind (R168). -/
theorem ownWritesOk_iff (s : State) :
    OwnWritesOk s ↔ s.report.ring.length = 32 ∧ ∀ d ∈ s.path.issued.filter isOwn, ownInside s d := by
  refine and_congr_right fun _ => ⟨fun h d hd => h d (List.mem_filter.1 hd).1, fun h d hd => ?_⟩
  cases d with
  | own id a bytes => exact h _ (List.mem_filter.2 ⟨hd, rfl⟩)
  | burst | fetch | store => trivial

theorem noticesHold_of_desk {s t : State} (h : desk t = desk s) (hs : NoticesHold s) : NoticesHold t := by
  obtain ⟨hfits, hown⟩ := hs
  have hring : t.report.ring = s.report.ring := congrArg Desk.ring h
  have hissued : t.path.issued.filter isOwn = s.path.issued.filter isOwn := congrArg Desk.own h
  refine ⟨hfits.of_report hring (congrArg Desk.produce h) (congrArg Desk.consume h), ?_⟩
  rw [ownWritesOk_iff] at hown ⊢
  obtain ⟨hlen, hall⟩ := hown
  rw [hring, hissued]
  exact ⟨hlen, fun d hd => (ownInside_congr (congrArg Desk.tbase h) d).2 (hall d hd)⟩

/-- The unit once the `k` oldest unconsumed records are consumed. -/
def withConsumed (r : ReportUnit) (k : Nat) : ReportUnit :=
  { r with consume := r.consume + BitVec.ofNat 16 k }

theorem noticeCount_withConsumed {r : ReportUnit} {k : Nat} (hk : k ≤ noticeCount r) :
    noticeCount (withConsumed r k) = noticeCount r - k := by
  have hp := r.produce.isLt
  have hc := r.consume.isLt
  simp only [noticeCount, withConsumed, BitVec.toNat_sub, BitVec.toNat_add, BitVec.toNat_ofNat] at hk ⊢
  omega

/-- The numbers behind a consume number are those behind an earlier one. -/
theorem consume_withConsumed (r : ReportUnit) (k j : Nat) :
    (withConsumed r k).consume + BitVec.ofNat 16 j = r.consume + BitVec.ofNat 16 (k + j) := by
  rw [withConsumed, BitVec.add_assoc, BitVec.ofNat_add]

theorem noticeKindAt_withConsumed (r : ReportUnit) (k j : Nat) :
    noticeKindAt (withConsumed r k) j = noticeKindAt r (k + j) := by
  rw [noticeKindAt, consume_withConsumed]
  rfl

/-- Records that are consumed leave the others in order (R187). -/
theorem ringFits_consumed {s : State} (h : RingFits s) {k : Nat} (hk : k ≤ noticeCount s.report) :
    RingFits { s with report := withConsumed s.report k } := by
  obtain ⟨⟨hlen, hcount, hnumber, hdistinct⟩, hplaces⟩ := h
  have hleft := noticeCount_withConsumed hk
  refine ⟨⟨hlen, ?_, fun j hj => ?_, fun i hi j hj hij => ?_⟩, hplaces⟩
  · exact hleft.trans_le (by omega)
  · dsimp only at hj ⊢
    rw [noticeKindAt_withConsumed, consume_withConsumed]
    exact hnumber (k + j) (by omega)
  · dsimp only at hi hj hij
    rw [noticeKindAt_withConsumed, noticeKindAt_withConsumed] at hij
    have := hdistinct (k + i) (by omega) (k + j) (by omega) hij
    omega

/-- A consume capture consumes the records before its number, one out of range all of them (R187). -/
theorem ringFits_takeConsume {s : State} (h : RingFits s) (v : BitVec 16) : RingFits (takeConsume s v) := by
  by_cases hv : (v - s.report.consume).toNat ≤ noticeCount s.report
  · refine (ringFits_consumed h hv).of_report rfl rfl ?_
    rw [withConsumed, BitVec.ofNat_toNat, BitVec.setWidth_eq, BitVec.add_comm, BitVec.sub_add_cancel]
    exact if_pos hv
  · refine (ringFits_consumed h le_rfl).of_report rfl rfl ?_
    rw [withConsumed, produce_eq_consume_add]
    exact if_neg hv

theorem noticeBytes_length (x : NoticeRecord) : (noticeBytes x).length = 32 := by simp [noticeBytes, layout]

/-- One own write more inside its area keeps the own writes inside. -/
theorem ownWritesOk_append {s : State} {l : List DownTxn} {r : ReportUnit} (h : OwnWritesOk s)
    (hl : ∀ d ∈ l, ownInside s d) (hr : r.ring.length = 32) :
    OwnWritesOk { s with report := r, path := { s.path with issued := s.path.issued ++ l } } :=
  ⟨hr, fun d hd => (ownInside_congr (s := s) rfl d).2 <|
    (List.mem_append.1 hd).elim (h.2 d) (hl d)⟩

/-- The write of a record lies inside the notice ring (R168, R177). -/
theorem ownInside_notice (s : State) {i : Nat} (hi : i < 32) (x : NoticeRecord) :
    ownInside s (.own ownId (noticeBase s + i * 32) (noticeBytes x)) := by
  refine ⟨rfl, .inr ⟨by omega, ?_⟩⟩
  rw [noticeBytes_length]
  omega

/-- The taking of an occurrence, case by case: the record, the produce number, the one write (R186). -/
theorem takeOccurrence_of_some {s : State} {k : NoticeKind} {i : Nat} (d : List Byte)
    (h : recordOf s.report k = some i) :
    takeOccurrence s k d = { s with
      report := { s.report with ring := s.report.ring.modify i (repeatRecord s d) }
      path := { s.path with issued := s.path.issued ++ [.own ownId (noticeBase s + i * 32)
        (noticeBytes ((s.report.ring.modify i (repeatRecord s d)).getD i .zero))] } } := by
  rw [takeOccurrence, h]
  rfl

theorem takeOccurrence_of_none {s : State} {k : NoticeKind} (d : List Byte)
    (h : recordOf s.report k = none) :
    takeOccurrence s k d = { s with
      report := withFresh s.report (freshRecord s k d)
      path := { s.path with issued := s.path.issued ++
        [.own ownId (noticeBase s + s.report.produce.toNat % 32 * 32) (noticeBytes
          ((withFresh s.report (freshRecord s k d)).ring.getD (s.report.produce.toNat % 32) .zero))] } } := by
  rw [takeOccurrence, h]
  rfl

theorem ownWritesOk_takeOccurrence {s : State} (h : OwnWritesOk s) (k : NoticeKind) (d : List Byte) :
    OwnWritesOk (takeOccurrence s k d) := by
  have hlen := h.1
  have hwrite {i : Nat} (hi : i < 32) (x : NoticeRecord) :
      ∀ t ∈ [DownTxn.own ownId (noticeBase s + i * 32) (noticeBytes x)], ownInside s t := fun t ht =>
    List.mem_singleton.1 ht ▸ ownInside_notice s hi x
  cases hr : recordOf s.report k with
  | some i =>
    obtain ⟨hget, -, -⟩ := openRecord_of_recordOf hr
    obtain ⟨hi, -⟩ := List.getElem?_eq_some_iff.1 hget
    rw [takeOccurrence_of_some d hr]
    exact ownWritesOk_append h (hwrite (by omega) _) (by simpa using hlen)
  | none =>
    rw [takeOccurrence_of_none d hr]
    exact ownWritesOk_append h (hwrite (Nat.mod_lt _ (by decide)) _) (by simpa [withFresh] using hlen)

theorem noticesHold_takeReport {s : State} (r : Report) (h : NoticesHold s) : NoticesHold (takeReport s r) := by
  obtain ⟨hfits, hown⟩ := h
  cases r with
  | occurrence k d => exact ⟨ringFits_takeOccurrence hfits k d, ownWritesOk_takeOccurrence hown k d⟩
  | consume v => exact ⟨ringFits_takeConsume hfits v, hown⟩

/-- The writes of a page stand one behind another, 256 bytes at most each (R184). -/
theorem mem_pageWrites {n a : Nat} {page : List Byte} {d : DownTxn} (h : d ∈ pageWrites n a page) :
    ∃ j < n, ∃ bytes, d = .own ownId (a + 256 * j) bytes ∧ bytes.length ≤ 256 := by
  induction n generalizing a page with
  | zero => cases h
  | succ n ih =>
    rcases List.mem_cons.1 h with rfl | h
    · exact ⟨0, n.succ_pos, _, rfl, List.length_take_le ..⟩
    · obtain ⟨j, hj, bytes, rfl, hbytes⟩ := ih h
      exact ⟨j + 1, by omega, bytes, by rw [Nat.mul_succ, Nat.add_assoc, Nat.add_comm 256], hbytes⟩

/-- The writes of a refresh lie inside the status page (R168, R184). -/
theorem noticesHold_refreshStart {s : State} (h : NoticesHold s) : NoticesHold (refreshStart s) := by
  obtain ⟨hfits, hown⟩ := h
  obtain ⟨hring, hproduce, hconsume⟩ := report_refreshStart s
  refine ⟨hfits.of_report hring hproduce hconsume, ?_⟩
  unfold refreshStart
  split
  · refine ownWritesOk_append hown (fun d hd => ?_) hown.1
    obtain ⟨j, hj, bytes, rfl, hbytes⟩ := mem_pageWrites hd
    refine ⟨rfl, .inl ⟨Nat.le_add_right _ _, ?_⟩⟩
    change statusBase s + 256 * j + bytes.length ≤ statusBase s + 0x10000
    omega
  · exact hown

theorem noticesHold_settle {s : State} (h : NoticesHold s) : NoticesHold (settle s) :=
  noticesHold_refreshStart (foldl_keeps noticesHold_takeReport _ (noticesHold_of_desk rfl h))

/-- After a reset every place of the ring is zero, and nothing has been issued (R189). -/
theorem noticesHold_reset (tbase : BitVec 8) (gate : Bool) (stale : List Stale) (pending : List Instr) :
    NoticesHold (.resetWith tbase gate stale pending) := by
  have hnone : noticeCount (State.resetWith tbase gate stale pending).report = 0 := by
    simp [noticeCount, State.resetWith, ReportUnit.reset]
  refine ⟨⟨⟨rfl, hnone ▸ Nat.zero_le _, fun j hj => ?_, fun i hi => ?_⟩, fun i _ x hx hk => ?_⟩, rfl, nofun⟩
  · exact absurd (hnone ▸ hj) (Nat.not_lt_zero j)
  · exact absurd (hnone ▸ hi) (Nat.not_lt_zero i)
  · rw [List.eq_of_mem_replicate (List.mem_of_getElem? hx)] at hk
    cases hk

theorem noticesHold_keptByCommands : KeptByCommands NoticesHold :=
  keptByCommands_of_desk noticesHold_of_desk (fun _ => id) noticesHold_settle noticesHold_refreshStart
    noticesHold_reset

/-! ### One occurrence taken (R186) -/

/-- The write of a record of this kind, at its position (ch. 12.6). -/
theorem notice_write (s : State) (i : Nat) {k : NoticeKind} {y : NoticeRecord} (hk : y.kind = some k) :
    DownTxn.own ownId (noticeBase s + i * 32) (noticeBytes y) =
      .own 0xF0 (tableBase s + 0x90000 + 32 * i) (layout 32
        [(0, leBytes 2 y.number.toNat), (2, leBytes 1 k.code), (4, leBytes 2 y.count),
          (8, leBytes 4 y.frame.toNat), (12, leBytes 4 y.house.toNat), (16, y.detail)]) := by
  simp only [noticeBytes, hk, noticeBase, Nat.mul_comm 32]
  rfl

theorem irq_iff (s : State) : irq s = true ↔ s.report.produce ≠ s.report.consume := decide_eq_true_iff

/-- Something is unconsumed. -/
theorem irq_of_openRecord {s : State} {k : NoticeKind} {i : Nat} {x : NoticeRecord}
    (h : OpenRecord s.report k i x) : irq s = true := by
  obtain ⟨-, -, hopen⟩ := h
  rw [irq_iff]
  intro he
  simp [unconsumed, he] at hopen

/-- Settles O58: every step keeps the records in order and the own writes inside, and an occurrence meets at
most one unconsumed record of its kind. -/
theorem stepsKeepTheNoticeRing : Obligations.StepsKeepTheNoticeRing := by
  refine ⟨fun s t hring hplaces hown hstep => ?_, fun s kind detail hring hplaces => ?_, irq_iff⟩
  · obtain ⟨⟨hring, hplaces⟩, hown⟩ := step_keeps noticesHold_keptByCommands ⟨⟨hring, hplaces⟩, hown⟩ hstep
    exact ⟨hring, hplaces, hown⟩
  · have hfits : RingFits s := ⟨hring, hplaces⟩
    intro r taken
    refine ⟨fun i x hget hkind hopen => ?_, fun hnone => ?_, ?_⟩
    · have hi : i < s.report.ring.length := (List.getElem?_eq_some_iff.1 hget).1
      have hset : s.report.ring.modify i (repeatRecord s detail) =
          s.report.ring.set i (repeatRecord s detail x) := by
        rw [List.modify_eq_set_getElem?, hget]
        rfl
      refine (takeOccurrence_of_some detail (recordOf_of_openRecord hfits ⟨hget, hkind, hopen⟩)).trans ?_
      rw [hset, List.getD_eq_getElem?_getD, List.getElem?_set_self hi, Option.getD_some,
        notice_write s i (y := repeatRecord s detail x) hkind]
      rfl
    · have hr : recordOf s.report kind = none := recordOf_eq_none.2 fun i x ⟨hget, hkind, hopen⟩ =>
        Bool.false_ne_true ((hnone x (List.mem_of_getElem? hget) hkind).symm.trans hopen)
      refine (takeOccurrence_of_none detail hr).trans ?_
      rw [getD_withFresh hring.1, if_pos rfl, notice_write s _ (y := freshRecord s kind detail) rfl]
      rfl
    · obtain ⟨i, x, hopen, -⟩ := openRecord_takeOccurrence_same hfits kind detail
      exact irq_of_openRecord hopen

end Sys2Proof.TransactionProofs
end

section
/-! The response order: which responses go back, lane by lane (O51), and the writes the part answers itself
(O32). -/

namespace Sys2Proof.TransactionProofs
open Sys2Proof.Machine Sys2Proof.FrameProofs Sys2Proof.IntakeProofs

/-! ### The transactions of one tag and direction (R167) -/

/-- The transaction is of this lane. -/
def inLane (lane : Dir × Nat) (e : Entry) : Bool := decide (e.lane = lane)

/-- The response goes to this lane. -/
def toLane (lane : Dir × Nat) (r : UpResp) : Bool := decide ((r.dir, masterTag r.id) = lane)

/-- Every answer is of its transaction's tag and direction. -/
def AnswersFit (es : List Entry) : Prop :=
  ∀ e ∈ es, ∀ r, e.answer = some r → (r.dir, masterTag r.id) = e.lane

section
variable {waiting : List (Dir × Nat)} {e : Entry} {es : List Entry} {r : UpResp}

theorem drain_of_waits (h : e.answer = none) :
    drain waiting (e :: es) = (e :: (drain (e.lane :: waiting) es).1, (drain (e.lane :: waiting) es).2) := by
  rw [drain, h]

theorem drain_of_held (h : e.answer = some r) (hl : e.lane ∈ waiting) :
    drain waiting (e :: es) = (e :: (drain waiting es).1, (drain waiting es).2) := by
  simp only [drain, h, List.contains_iff_mem.2 hl, if_true]

theorem drain_of_free (h : e.answer = some r) (hl : e.lane ∉ waiting) :
    drain waiting (e :: es) = ((drain waiting es).1, r :: (drain waiting es).2) := by
  have hc : waiting.contains e.lane = false := by simpa using hl
  simp only [drain, h, hc, Bool.false_eq_true, if_false]

variable {lane : Dir × Nat}

/-- Where an earlier transaction of the lane waits, all of it stays. -/
theorem drain_lane_of_waiting (hl : lane ∈ waiting) (hfit : AnswersFit es) :
    (drain waiting es).1.filter (inLane lane) = es.filter (inLane lane) ∧
      (drain waiting es).2.filter (toLane lane) = [] := by
  induction es generalizing waiting with
  | nil => exact ⟨rfl, rfl⟩
  | cons e es ih =>
    have hfits : AnswersFit es := fun x hx => hfit x (List.mem_cons_of_mem _ hx)
    cases ha : e.answer with
    | none =>
      obtain ⟨hstay, hback⟩ := ih (List.mem_cons_of_mem e.lane hl) hfits
      rw [drain_of_waits ha]
      exact ⟨by simp only [List.filter_cons, hstay], hback⟩
    | some r =>
      obtain ⟨hstay, hback⟩ := ih hl hfits
      by_cases hlane : e.lane ∈ waiting
      · rw [drain_of_held ha hlane]
        exact ⟨by simp only [List.filter_cons, hstay], hback⟩
      · have hne : e.lane ≠ lane := fun h => hlane (h ▸ hl)
        have hto : toLane lane r = false := by simp [toLane, hfit e List.mem_cons_self r ha, hne]
        rw [drain_of_free ha hlane]
        exact ⟨by simp [hstay, inLane, hne], by simp [hback, hto]⟩

/-- Of a lane in which no earlier transaction waits, the longest answered front goes back. -/
theorem drain_lane_of_free (hl : lane ∉ waiting) (hfit : AnswersFit es) :
    ∃ gone kept, es.filter (inLane lane) = gone ++ kept ∧
      (drain waiting es).1.filter (inLane lane) = kept ∧
      (drain waiting es).2.filter (toLane lane) = gone.filterMap Entry.answer ∧
      (∀ e ∈ gone, e.answer.isSome = true) ∧ ∀ e rest, kept = e :: rest → e.answer = none := by
  induction es generalizing waiting with
  | nil => exact ⟨[], [], rfl, rfl, rfl, nofun, nofun⟩
  | cons e es ih =>
    have hfits : AnswersFit es := fun x hx => hfit x (List.mem_cons_of_mem _ hx)
    by_cases hlane : e.lane = lane
    · have hin : inLane lane e = true := decide_eq_true hlane
      cases ha : e.answer with
      | none =>
        obtain ⟨hstay, hback⟩ := drain_lane_of_waiting (waiting := e.lane :: waiting)
          (List.mem_cons.2 (.inl hlane.symm)) hfits
        rw [drain_of_waits ha, List.filter_cons_of_pos hin, List.filter_cons_of_pos hin, hstay]
        refine ⟨[], _, rfl, rfl, hback, nofun, fun x rest h => ?_⟩
        rw [← (List.cons.inj h).1, ha]
      | some r =>
        obtain ⟨gone, kept, hsplit, hstay, hback, hgone, hkept⟩ := ih hl hfits
        have hto : toLane lane r = true := decide_eq_true ((hfit e List.mem_cons_self r ha).trans hlane)
        rw [drain_of_free ha (hlane ▸ hl), List.filter_cons_of_pos hin, hsplit]
        refine ⟨e :: gone, kept, rfl, hstay, ?_, ?_, hkept⟩
        · rw [List.filter_cons_of_pos hto, hback, List.filterMap_cons_some ha]
        · exact List.forall_mem_cons.2 ⟨by rw [ha]; rfl, hgone⟩
    · have hin : ¬inLane lane e = true := by simpa [inLane] using hlane
      rw [List.filter_cons_of_neg hin]
      cases ha : e.answer with
      | none =>
        rw [drain_of_waits ha, List.filter_cons_of_neg hin]
        exact ih (by simpa [Ne.symm hlane] using hl) hfits
      | some r =>
        by_cases hheld : e.lane ∈ waiting
        · rw [drain_of_held ha hheld, List.filter_cons_of_neg hin]
          exact ih hl hfits
        · have hto : ¬toLane lane r = true := by simpa [toLane, hfit e List.mem_cons_self r ha] using hlane
          rw [drain_of_free ha hheld, List.filter_cons_of_neg hto]
          exact ih hl hfits

end

/-- Settles O51, by the recursion of the split, for a lane that waits and for one that does not. -/
theorem responsesKeepTheOrderOfTheirTag : Obligations.ResponsesKeepTheOrderOfTheirTag := by
  intro s lane hfit
  obtain ⟨gone, kept, hsplit, hstay, hback, hgone, hkept⟩ :=
    drain_lane_of_free (waiting := []) (lane := lane) List.not_mem_nil hfit
  exact ⟨gone, kept, _, hsplit, hstay, rfl, hback, hgone, hkept⟩

/-! ### The checks of a write in their order (R164) -/

section
variable {s : State} {w : WriteReq}

theorem classifyWrite_locked {before after : List Nat} {j : Nat} (hlock : s.comp.lock = before ++ j :: after)
    (htouch : ∃ b ∈ writeBytes w, inSector s.path.geom j b.1 = true)
    (hbefore : ∀ i ∈ before, ∀ b ∈ writeBytes w, inSector s.path.geom i b.1 = false) :
    classifyWrite s w = .locked j := by
  have hfind : lockedSector s (writeBytes w) = some j := by
    rw [lockedSector, hlock, List.find?_append, List.find?_eq_none.2 fun i hi => by
      simpa using hbefore i hi, Option.none_or, List.find?_cons_of_pos (by simpa using htouch)]
  simp only [classifyWrite, hfind]

theorem classifyWrite_partOwned
    (hfree : ∀ i ∈ s.comp.lock, ∀ b ∈ writeBytes w, inSector s.path.geom i b.1 = false)
    (howned : ∃ b ∈ writeBytes w, inPartOwned s b.1 = true) : classifyWrite s w = .partOwned := by
  have hfind : lockedSector s (writeBytes w) = none :=
    List.find?_eq_none.2 fun i hi => by simpa using hfree i hi
  simp only [classifyWrite, hfind, if_pos (List.any_eq_true.2 howned)]

end

/-! ### Blocked writes (R174, R175) -/

/-- A blocked write enters the order with its answer, and its notice is all that is raised. -/
theorem blockWrite_eq (s : State) (w : WriteReq) (cause sector : Nat) :
    blockWrite s w cause sector =
      raise (returnResponses (enterOrder s w.id .write .blocked 0 1
        (some { id := w.id, dir := .write, data := [], status := [.slverr] }))) .writeBlocked
        [(0, leBytes 1 (masterTag w.id)), (1, leBytes 1 cause), (2, leBytes 1 sector),
          (8, leBytes 5 w.addr)] := rfl

/-- Settles O32: a blocked write issues nothing and captures nothing, and its one notice is taken at the end
of the command. -/
theorem blockedWritesAreAnsweredHere : Obligations.BlockedWritesAreAnsweredHere := by
  intro s w quiet hlegal answered blocked
  have ends (cause sector : Nat) : done (blockWrite s w cause sector) = .next (blocked cause sector) := by
    have hquiet : Quiet answered := quiet
    rw [done, blockWrite_eq, settle_raise_quiet _ hquiet]
  refine ⟨fun before j after hlock htouch hbefore => ?_, fun hfree howned => ?_⟩
  · change arriving w s = _
    rw [arriving, if_pos hlegal, arriveWrite, classifyWrite_locked hlock htouch hbefore]
    exact ends 0 j
  · change arriving w s = _
    rw [arriving, if_pos hlegal, arriveWrite, classifyWrite_partOwned hfree howned]
    exact ends 1 0

end Sys2Proof.TransactionProofs
end

section
/-! A capture into geometry fields alone (R108, R173; O40). -/

namespace Sys2Proof.TransactionProofs
open Sys2Proof.Machine Sys2Proof.FrameProofs Sys2Proof.SponsorProofs Sys2Proof.IntakeProofs

/-! ### Which units a capture reaches -/

theorem reaches_eq_true_iff (bytes : List (Nat × Byte)) (off n : Nat) :
    reaches bytes off n = true ↔ ∃ b ∈ bytes, off ≤ b.1 ∧ b.1 < off + n := by
  simp only [reaches, List.any_eq_true, inRange, Bool.and_eq_true, decide_eq_true_eq]

section
variable {s : State} {w : WriteReq} {bytes : List (Nat × Byte)}

theorem reaches_of_below {lim off n : Nat} (h : ∀ b ∈ bytes, b.1 < lim) (hoff : lim ≤ off) :
    reaches bytes off n = false :=
  (reaches_eq_false_iff bytes off n).2 fun b hb => .inl ((h b hb).trans_le hoff)

/-- Before the team records and the sponsor entries the score and rotation units do not act. -/
theorem capture_below_records (hb : captureBytes s w = bytes) (h : ∀ b ∈ bytes, b.1 < 0x2000) :
    capture s w = takeRequests (completedWords bytes)
      (wordReactions (configReactions (mergeCapture s bytes) w bytes) bytes) := by
  have entries : reachedEntries bytes = [] := by
    refine List.filter_eq_nil_iff.2 fun i _ => ?_
    rw [reaches_of_below h (by unfold sponsorOffset; omega)]
    exact Bool.false_ne_true
  simp only [capture, hb, recordReactions, entries, reacting, List.foldl_nil,
    reaches_of_below h (off := 0x2000) (by decide), reaches_of_below h (off := 0x2020) (by decide),
    Bool.false_eq_true, if_false]

/-- A capture before the clock configuration is the geometry's alone (R173). -/
theorem capture_of_geometry (hb : captureBytes s w = bytes) (hlow : ∀ b ∈ bytes, b.1 < 0x40)
    (hreached : reachesGeometry bytes = true) :
    capture s w = geometryCaptured (mergeCapture s bytes) w bytes := by
  have words : completedWords bytes = [] := by
    refine List.filter_eq_nil_iff.2 fun k _ => ?_
    have := wordOffset_bounds k
    rw [reaches_of_below hlow (by omega)]
    exact Bool.false_ne_true
  rw [capture_below_records hb fun b hm => (hlow b hm).trans (by decide), words]
  simp only [takeRequests, configReactions, wordReactions, hreached, reacting,
    reaches_of_below hlow (off := 0x240) (by decide), reaches_of_below hlow (off := 0x1060) (by decide),
    reaches_of_below hlow (off := 0x1070) (by decide), Bool.false_eq_true, if_false, if_true]

end

/-! ### The taken geometry (R173) -/

/-- A field takes the new value where the capture reached it, and keeps the old one otherwise. -/
theorem takeField_spec (bytes : List (Nat × Byte)) (f : GeometryField) (new old : Nat) :
    ((∃ b ∈ bytes, f.off ≤ b.1 ∧ b.1 < f.off + f.width) → takeField bytes f new old = new) ∧
    ((∀ b ∈ bytes, b.1 < f.off ∨ f.off + f.width ≤ b.1) → takeField bytes f new old = old) := by
  unfold takeField
  refine ⟨fun h => if_pos ((reaches_eq_true_iff bytes f.off f.width).2 h), fun h => ?_⟩
  rw [(reaches_eq_false_iff bytes f.off f.width).2 h]
  rfl

/-- Geometry is taken in PASS with no GO_LIVE pending (R173). -/
theorem takesGeometry_iff (s : State) :
    takesGeometry s = true ↔ s.report.mode = .pass ∧ ∀ tag, s.report.pendingMode ≠ some (.live, tag) := by
  unfold takesGeometry
  rw [Bool.and_eq_true, beq_iff_eq]
  refine and_congr_right fun _ => ?_
  split
  · next tag h => simp [h]
  · next h => exact iff_of_true rfl h

theorem slotGeometryDiffers_iff (a b : Geometry) : slotGeometryDiffers a b = true ↔
    a.poolBase ≠ b.poolBase ∨ a.slotCount ≠ b.slotCount ∨ a.stride ≠ b.stride ∨ a.height ≠ b.height := by
  simp only [slotGeometryDiffers, Bool.or_eq_true, bne_iff_ne, or_assoc]

section
variable {s : State} {w : WriteReq} {bytes : List (Nat × Byte)}

theorem geometryCaptured_of_taking (h : takesGeometry s = true) : geometryCaptured s w bytes =
    setGeometry s (takenGeometry bytes (readGeometry s.path.shadow) s.path.geom) := if_pos h

theorem geometryCaptured_of_same (h : takesGeometry s = false)
    (hg : readGeometry s.path.shadow = s.path.geom) : geometryCaptured s w bytes = s := by
  rw [geometryCaptured, h, if_neg Bool.false_ne_true, if_pos hg]

theorem geometryCaptured_of_other (h : takesGeometry s = false)
    (hg : readGeometry s.path.shadow ≠ s.path.geom) : geometryCaptured s w bytes =
      raise s .tableIgnored [(0, leBytes 1 (masterTag w.id)), (4, leBytes 4 (firstOffset s w))] := by
  rw [geometryCaptured, h, if_neg Bool.false_ne_true, if_neg hg]

end

/-- Settles O40: the capture is the geometry's alone, and is taken field by field, or not taken, with a notice
where the shadow differs. -/
theorem geometryIsTakenInPassOnly : Obligations.GeometryIsTakenInPassOnly := by
  intro s w quiet hlegal hclass bytes hlow hreached merged new g placed taking shadow field
  have hquiet : Quiet merged := quiet
  have result {u : State} (hu : geometryCaptured merged w bytes = u) :
      exec (.geometryCapture w) s = done u :=
    (arriving_captured hlegal hclass).trans (congrArg done
      ((capture_of_geometry (s := forwardWrite s w) rfl hlow hreached).trans hu))
  have taken (h : taking) : geometryCaptured merged w bytes = setGeometry merged g :=
    geometryCaptured_of_taking ((takesGeometry_iff merged).2 h)
  have refused (h : ¬taking) : takesGeometry merged = false :=
    Bool.eq_false_iff.2 fun ht => h ((takesGeometry_iff merged).1 ht)
  have differs := slotGeometryDiffers_iff g s.path.geom
  refine ⟨takeField_spec _ canvasBaseField _ _, takeField_spec _ canvasWidthField _ _,
    takeField_spec _ canvasHeightField _ _, takeField_spec _ canvasStrideField _ _,
    takeField_spec _ scanTagField _ _, takeField_spec _ ingestTagField _ _,
    takeField_spec _ windowBaseField _ _, takeField_spec _ poolBaseField _ _,
    takeField_spec _ slotCountField _ _, takeField_spec _ assetBaseField _ _,
    takeField_spec _ sectorSizeField _ _, fun ht hpool hcount hstride hheight => ?_, fun ht hdiffer => ?_,
    fun ht hsame => ?_, fun ht hother => ?_⟩
  · have hset : setGeometry merged g = placed :=
      if_neg fun hd => (differs.1 hd).elim (· hpool) (·.elim (· hcount) (·.elim (· hstride) (· hheight)))
    rw [result ((taken ht).trans hset)]
    exact congrArg _ (settle_of_quiet placed hquiet)
  · have hset : setGeometry merged g = emptyRing placed := if_pos (differs.2 hdiffer)
    rw [result ((taken ht).trans hset)]
    exact congrArg _ (settle_of_quiet (emptyRing placed) hquiet)
  · rw [result (geometryCaptured_of_same (refused ht) hsame)]
    exact congrArg _ (settle_of_quiet merged hquiet)
  · rw [result (geometryCaptured_of_other (refused ht) hother)]
    exact congrArg _ (settle_raise_quiet merged hquiet _ _)

end Sys2Proof.TransactionProofs
end

section
/-! A capture that reaches no field a block acts on, or the request words and the two counts behind them
(R170 to R172; O34). -/

namespace Sys2Proof.TransactionProofs
open Sys2Proof.Machine Sys2Proof.FrameProofs Sys2Proof.SponsorProofs Sys2Proof.IntakeProofs

/-! ### The merge (R170) -/

/-- The last value at an offset stands. -/
theorem readByte_writeAll_last {m : Memory} (h : Memory.wf m = true) (before : List (Nat × Byte)) (a : Nat)
    (v : Byte) {after : List (Nat × Byte)} (ha : ∀ b ∈ after, b.1 ≠ a) :
    readByte (writeAll m (before ++ (a, v) :: after)) a = v := by
  have hsplit : writeAll m (before ++ (a, v) :: after) =
      writeAll (writeByte (writeAll m before) a v) after := by
    simp [writeAll]
  have hbefore := writeAll_wf before m h
  rw [hsplit, readByte_writeAll_other after _ a (writeByte_wf _ a v hbefore) ha,
    readByte_writeByte _ a a v hbefore, if_pos rfl]

/-! ### Captures beside the configuration and before the records -/

section
variable {s : State} {w : WriteReq} {bytes : List (Nat × Byte)}

/-- Beside the geometry and the clock configuration, before the team records and the sponsor entries, the
report and message units and the owners of the request words act. -/
theorem capture_beside_config (hb : captureBytes s w = bytes)
    (h : ∀ b ∈ bytes, 0x40 ≤ b.1 ∧ (b.1 < 0x240 ∨ 0x260 ≤ b.1) ∧ b.1 < 0x2000) :
    capture s w = takeRequests (completedWords bytes) (wordReactions (mergeCapture s bytes) bytes) := by
  have geometry : reachesGeometry bytes = false := by
    refine List.any_eq_false.2 fun f hf => ?_
    have hoff : f.off + f.width ≤ 0x40 := by
      revert f
      decide
    rw [(reaches_eq_false_iff bytes f.off f.width).2 fun b hm => .inr (hoff.trans (h b hm).1)]
    exact Bool.false_ne_true
  have clock : reaches bytes 0x240 32 = false :=
    (reaches_eq_false_iff bytes 0x240 32).2 fun b hm => (h b hm).2.1
  rw [capture_below_records hb fun b hm => (h b hm).2.2]
  simp only [configReactions, geometry, clock, reacting, Bool.false_eq_true, if_false]

/-! ### The requests of a capture (R171, R172) -/

/-- The capture reached the last byte of the word (R171). -/
theorem completes_iff (bytes : List (Nat × Byte)) (k : ReqWord) :
    reaches bytes (wordOffset k + 15) 1 = true ↔ ∃ v, (0x1000 + 16 * k.code + 15, v) ∈ bytes := by
  rw [reaches_eq_true_iff, wordOffset]
  constructor
  · rintro ⟨⟨a, v⟩, hm, hlo, hhi⟩
    obtain rfl : a = 0x1000 + 16 * k.code + 15 := by dsimp only at hlo hhi; omega
    exact ⟨v, hm⟩
  · rintro ⟨v, hm⟩
    exact ⟨_, hm, le_rfl, Nat.lt_succ_self _⟩

theorem mem_completedWords (bytes : List (Nat × Byte)) (k : ReqWord) :
    k ∈ completedWords bytes ↔ ∃ v, (0x1000 + 16 * k.code + 15, v) ∈ bytes := by
  rw [completedWords, List.mem_filter, completes_iff]
  exact and_iff_right (by cases k <;> decide)

/-- The words in ascending order (R172). -/
def WordsRise (words : List ReqWord) : Prop := words.Pairwise fun i j => i.code < j.code

theorem completedWords_rise (bytes : List (Nat × Byte)) : WordsRise (completedWords bytes) :=
  List.Pairwise.filter _ (by decide)

/-- Words in ascending order are told by which they are. -/
theorem eq_of_wordsRise {ws vs : List ReqWord} (hw : WordsRise ws) (hv : WordsRise vs)
    (h : ∀ k, k ∈ ws ↔ k ∈ vs) : ws = vs := by
  have irrefl : Std.Irrefl fun i j : ReqWord => i.code < j.code := ⟨fun _ => Nat.lt_irrefl _⟩
  have antisymm : Std.Antisymm fun i j : ReqWord => i.code < j.code :=
    ⟨fun _ _ hij hji => absurd hij (Nat.lt_asymm hji)⟩
  exact List.Pairwise.eq_of_mem_iff hw hv h

/-- A settled state is as it was after one settling. -/
theorem settle_settle (s : State) : settle (settle s) = settle s := settle_of_quiet _ (quiet_settle s)

/-- The end of the command settles what the last request raised, as each before it was settled (R172). -/
theorem settle_takeRequests (ws : List ReqWord) (s : State) :
    settle (takeRequests ws s) = settle (ws.foldl (fun x k => settle (takeRequest x k)) s) := by
  induction ws generalizing s with
  | nil => rfl
  | cons k ws ih =>
    cases ws with
    | nil => exact (settle_settle _).symm
    | cons k' ws => exact ih _

/-- A captured write beside the configuration and before the records, with the words that it completes. -/
theorem exec_captured {words : List ReqWord} (hlegal : legalWrite w = true)
    (hclass : classifyWrite s w = .captured) (hrise : WordsRise words)
    (h : ∀ b ∈ captureBytes s w, 0x40 ≤ b.1 ∧ (b.1 < 0x240 ∨ 0x260 ≤ b.1) ∧ b.1 < 0x2000)
    (hwords : ∀ k : ReqWord, (∃ v, (0x1000 + 16 * k.code + 15, v) ∈ captureBytes s w) ↔ k ∈ words) :
    exec (.capturedWrite w) s = .next (settle (words.foldl (fun x k => settle (takeRequest x k))
      (wordReactions (mergeCapture (forwardWrite s w) (captureBytes s w)) (captureBytes s w)))) := by
  have hcompleted : completedWords (captureBytes s w) = words :=
    eq_of_wordsRise (completedWords_rise _) hrise fun k => (mem_completedWords _ k).trans (hwords k)
  have hcapture := capture_beside_config (s := forwardWrite s w) (w := w) (bytes := captureBytes s w) rfl h
  refine (arriving_captured hlegal hclass).trans ?_
  rw [hcapture, hcompleted, done, settle_takeRequests]

/-! ### The tail count and the consume count (R135 to R137, R187) -/

theorem wordReactions_of_beside {t : State}
    (h : ∀ b ∈ bytes, (b.1 < 0x1060 ∨ 0x1062 ≤ b.1) ∧ (b.1 < 0x1070 ∨ 0x1072 ≤ b.1)) :
    wordReactions t bytes = t := by
  have consume := (reaches_eq_false_iff bytes 0x1060 2).2 fun b hb => (h b hb).1
  have tail := (reaches_eq_false_iff bytes 0x1070 2).2 fun b hb => (h b hb).2
  simp only [wordReactions, consume, tail, reacting, Bool.false_eq_true, if_false]

end

/-- A reaction is made just where a byte lies in its area. -/
theorem reacting_eq_if {bytes : List (Nat × Byte)} {off n hi : Nat} (hhi : off + n = hi) (f : State → State)
    (t : State) [Decidable (∃ b ∈ bytes, off ≤ b.1 ∧ b.1 < hi)] :
    reacting (reaches bytes off n) f t = if ∃ b ∈ bytes, off ≤ b.1 ∧ b.1 < hi then f t else t := by
  subst hhi
  exact if_congr (reaches_eq_true_iff bytes off n) rfl rfl

/-- The fetch start test behind the overrun test: an overrun leaves records outstanding (R136, R137). -/
theorem fetchDue_overrunTest {t : State} (h : t.msg.fetch = none) :
    FetchDue (overrunTest t) (overrunTest t).msg.queue ↔ outstanding t ≠ 0 ∧ t.msg.queue.length < 32 := by
  by_cases hover : 64 < outstanding t
  · have hout : outstanding (clampedHead t) = 64 := outstanding_clampedHead t
    rw [overrunTest_of_overrun hover]
    change t.msg.fetch = none ∧ 0 < outstanding (clampedHead t) ∧ t.msg.queue.length < 32 ↔ _
    simp only [h, true_and]
    omega
  · rw [overrunTest_of_fits (Nat.not_lt.1 hover)]
    change t.msg.fetch = none ∧ 0 < outstanding t ∧ t.msg.queue.length < 32 ↔ _
    simp only [h, true_and]
    omega

theorem tableBase_overrunTest (t : State) : tableBase (overrunTest t) = tableBase t := by
  unfold overrunTest
  split <;> rfl

/-- The fetch of the record at the head. -/
def headFetch (t : State) : State :=
  issue (setMsg t fun m => { m with fetch := some m.head }) (.burst (.read (recordFetch t t.msg.head)))

theorem headFetch_eq {s t : State} (h : tableBase t = tableBase s) : headFetch t = issue
    { t with msg := { t.msg with fetch := some t.msg.head } }
    (.burst (.read
      { id := 0xF0, addr := tableBase s + 0x8000 + t.msg.head.toNat % 64 * 256, burst := .incr, size := 4,
        beats := 16 })) := by
  rw [← h]
  rfl

/-- A tail capture, case by case: while a fetch is in flight the tail alone moves (R135 to R137). -/
theorem tailCaptured_eq (t : State) : tailCaptured t =
    if t.msg.fetch.isSome then withTail t
    else if outstanding (withTail t) ≠ 0 ∧ t.msg.queue.length < 32 then headFetch (overrunTest (withTail t))
    else overrunTest (withTail t) := by
  split
  · next h => exact tailCaptured_of_fetching h
  · next h =>
    have hf : t.msg.fetch = none := by simpa using h
    have hdue := fetchDue_overrunTest (t := withTail t) hf
    rw [tailCaptured_of_idle hf]
    split
    · next hd => exact fetchStart_of_due (hdue.2 hd)
    · next hd => exact fetchStart_of_not_due fun hf => hd (hdue.1 hf)

/-- Settles O34: nothing but the merge; two requests, each on the settled state of the one before; any number
of them, behind the consume count and the tail's tests. -/
theorem capturedBytesAreMergedIntoTheShadow : Obligations.CapturedBytesAreMergedIntoTheShadow := by
  refine ⟨fun s w quiet hwf hlegal hclass hbytes => ?_,
    fun s w i j quiet hlegal hclass hij hbytes hwords => ?_, ?_⟩
  · have hnone : ∀ k : ReqWord, (∃ v, (0x1000 + 16 * k.code + 15, v) ∈ captureBytes s w) ↔ k ∈ [] := fun k =>
      iff_of_false (fun ⟨v, hm⟩ => by
        have := hbytes _ hm
        have := wordOffset_bounds k
        simp only [wordOffset] at this
        omega) List.not_mem_nil
    have hexec := exec_captured hlegal hclass List.Pairwise.nil
      (fun b hb => by have := hbytes b hb; omega) hnone
    rw [wordReactions_of_beside fun b hb => by have := hbytes b hb; omega] at hexec
    have hquiet : Quiet (mergeCapture (forwardWrite s w) (captureBytes s w)) := quiet
    refine ⟨writeAll s.path.shadow (captureBytes s w),
      hexec.trans (congrArg _ (settle_of_quiet _ hquiet)),
      fun a ha => readByte_writeAll_other _ _ a hwf ha, fun before a v after hsplit hlast => ?_⟩
    rw [hsplit]
    exact readByte_writeAll_last hwf before a v hlast
  · intro merged
    have hexec := exec_captured (words := [i, j]) hlegal hclass (List.pairwise_pair.2 hij)
      (fun b hb => by have := hbytes b hb; omega) (fun k => (hwords k).trans (by simp))
    rw [wordReactions_of_beside fun b hb => by have := hbytes b hb; omega] at hexec
    exact hexec.trans (congrArg _ (settle_settle _))
  · intro s w words quiet hlegal hclass hrise bytes hbytes hwords
    intro merged tail n consumed followed tested tailed acted
    have hacted : wordReactions merged bytes = acted := by
      have hconsumed : reacting (reaches bytes 0x1060 2) consumeCaptured merged = consumed :=
        reacting_eq_if rfl _ _
      have hmsg : consumed.msg = s.msg := by
        simp only [consumed, apply_ite State.msg]
        exact ite_self _
      have hpath : consumed.path = merged.path := by
        simp only [consumed, apply_ite State.path]
        exact ite_self _
      have htail : withTail consumed = followed := by
        simp only [withTail, setMsg, hmsg, hpath, followed, tail]
      have htested : overrunTest followed = tested := rfl
      have htailed : tailCaptured consumed = tailed := by
        rw [tailCaptured_eq, htail, htested, hmsg]
        have hbase : tableBase tested = tableBase s := by
          rw [← htested, tableBase_overrunTest]
          exact (congrArg (fun p : PathUnit => p.tbase.toNat * 4294967296) hpath :)
        rw [headFetch_eq hbase]
        rfl
      rw [wordReactions, hconsumed, reacting_eq_if (hi := 0x1072) rfl, htailed]
    rw [← hacted]
    exact exec_captured hlegal hclass hrise (fun b hb => by have := hbytes b hb; omega) hwords

end Sys2Proof.TransactionProofs
end
